-- ==== Sys2Proof/Word.lean ====
section
/-! DEFINITION. The word types of the YQ86x0 and the identifiers that name its parts (R13, R14). -/
namespace Sys2Proof

abbrev Byte := BitVec 8
abbrev W32 := BitVec 32
abbrev W64 := BitVec 64
/-- A byte string, lowest address first (R14). -/
abbrev Bytes := List Byte
/-- A core physical address (R12). -/
abbrev Addr := BitVec 48
/-- One plane of a sheet: bit `128 * row + column` belongs to that nib (R58, R63). -/
abbrev Plane := BitVec 16384
/-- An array word (R86). -/
abbrev AWord := BitVec 96

/-- A hub die, H[0] or H[1] (R3). -/
abbrev Hub := Fin 2
/-- A general or floating register number (R166). -/
abbrev Reg := Fin 32
/-- A sheet, 0 to 23 across the package (R14); also a gang by its GID (R67). -/
abbrev Sheet := Fin 24
/-- A partition, P0 to P7 (R14). -/
abbrev Part := Fin 8
/-- A ruling identifier (R32). -/
abbrev Rid := BitVec 11
/-- A mesh tile, 6y + x (R241). -/
abbrev Tile := Fin 36

/-- A scribe core by hub and number (R167 COREID). -/
structure CoreId where
  hub : Hub
  num : Fin 32
  deriving DecidableEq, Repr

/-- The three parts of the family (R1, R2). -/
inductive PartNo where
  | yq8680 | yq8640 | yq8620
  deriving DecidableEq, Repr

/-- The two paths of a debug access unit (R376). -/
inductive DbgPath where
  | probe | host
  deriving DecidableEq, Repr

/-- Who makes an access: a core, the host through BAR0, the mailbox acting for a partition, the
boot ROM, a fabric port, or the debug master of a hub on one of its paths (R326, R331, R343, R376). -/
inductive Master where
  | core (c : CoreId)
  | host (h : Hub)
  | mailbox (part : Part)
  | bootRom (h : Hub)
  | fabric (h : Hub) (port : Part)
  | debug (h : Hub) (path : DbgPath)
  deriving DecidableEq, Repr

/-- The unit that originates a token (R116, R119). -/
inductive TokSrc where
  | core (c : CoreId)
  | ruling | array | loss | chop | drying | mailbox | ligature | stall
  deriving DecidableEq, Repr

/-- What an absorbed packet was (R249). -/
inductive PktKind where
  | request | posted | arrayWord | token | snoop | response
  deriving DecidableEq, Repr

/-- A power domain that the drain-and-fence handshake switches (R257). -/
inductive Domain where
  | tile (t : Tile)
  | cluster (g : Fin 4)
  | fabric
  | sheet (s : Sheet)
  | die (a : Fin 6)
  deriving DecidableEq, Repr

/-- One operation on a block-memory port: idle, or a read or write of `len` bits at bit `pos` (R338). -/
inductive BmOp where
  | idle
  | read (pos : BitVec 16) (len : Fin 73)
  | write (pos : BitVec 16) (len : Fin 73) (data : BitVec 72)
  deriving DecidableEq, Repr

/-- How the clock edges of two block-memory operations fall (R339): the same edge of one net, edges
within 0.8 ns with port A or port B later, or apart. -/
inductive BmWindow where
  | sameEdge | aLater | bLater | apart
  deriving DecidableEq, Repr

end Sys2Proof
end

