-- ==== Sys2Proof/Syntax.lean ====
section
/-! DEFINITION. The commands of the block: one constructor for each row of the opcode table, with its
operands. A register-write row carries the master that writes, the hub whose register it is and the
value; an event row carries what the outside world supplies. -/
namespace Sys2Proof

/-- The commands of the YQ86x0, in the order of the opcode table. -/
inductive Instr where
  /-- POR_N_ASSERT (R397): POR_N low returns every block to its POR_N state, clears edge counts and aborts any final stroke. -/
  | porNAssert (kept : Bool)
  /-- POR_N_RELEASE (R401): Release of POR_N samples BOOTSEL and starts the boot ROM on the cold path. -/
  | porNRelease (sel : BitVec 2)
  /-- WARM_N_ASSERT (R397): WARM_N low drops engine state, puts memory in self-refresh and keeps the configuration fields marked U. -/
  | warmNAssert
  /-- WARM_N_RELEASE (R401): Release of WARM_N samples BOOTSEL and starts the boot ROM on the warm path. -/
  | warmNRelease (sel : BitVec 2)
  /-- NVME_READY_TIMEOUT (R402): During recovery drying, a controller not ready within its CAP.TO becomes FAILED. -/
  | nvmeReadyTimeout (h : Hub) (t : Fin 8)
  /-- BOOTCTL_GO (R400): A debugger at FULL signals that the JTAG firmware image is in place in common memory. -/
  | bootctlGo (m : Master) (h : Hub) (v : W32)
  /-- FUSE_PROGRAM (R404): FUSEPRG.GO programs a key-hash slot with FUSEDATA. -/
  | fuseProgram (m : Master) (h : Hub) (v : W32)
  /-- FUSE_PROGRAM_DONE (R404): Fuse programming ends and STAT reports done, already programmed or verify failed. -/
  | fuseProgramDone (h : Hub) (ok : Bool)
  /-- VAUX_POWER_UP (R308): Power-up of VAUX clears the anchor registers and holds DRY_OK low. -/
  | vauxPowerUp
  /-- SUPPLY_REMOVAL (R261): Removal of the supplies other than VAUX puts the device in AUX, and removal of VAUX puts it in OFF. -/
  | supplyRemoval (vaux : Bool)
  /-- REFCLK_STOP (R413): The 156.25 MHz reference of a hub stops, and every clock of that hub stops with it. -/
  | refclkStop (h : Hub)
  /-- PCAP_N_CHANGE (R410): A change of PCAP_N applies or removes CAPDIV in the effective ACLK division. -/
  | pcapNChange (h : Hub) (low : Bool)
  /-- DIVISION_CHANGE (R410): A new effective division takes effect in every sheet at a word boundary and DIVEFF then shows it. -/
  | divisionChange (h : Hub)
  /-- PWRCTL_WRITE (R411): A PWRCTL write sets FWDIV, CAPDIV, VACODE and TTHROT, and is discarded when FWDIV is below the least for VACODE. -/
  | pwrctlWrite (m : Master) (h : Hub) (v : W32)
  /-- TEMPERATURE_SAMPLE (R415): A new sensor reading starts or ends thermal throttling against TTHROT. -/
  | temperatureSample (h : Hub) (d : Fin 8) (k : Fin 4) (raw : BitVec 16)
  /-- REGISTER_WRITE (R15): A write to a register with no row of its own acts by its access codes and by the discard rules of R16, R427 and R428. -/
  | registerWrite (m : Master) (h : Hub) (off : BitVec 26) (v : W32)
  /-- RULING_ADVANCE (R40): An advance presented by the classifier, the fabric or a core takes effect on its ruling. -/
  | rulingAdvance (h : Hub)
  /-- MARK_TOKEN_EMIT (R48): A fired mark's token leaves the ruling unit into the token path of its hub when the path accepts it. -/
  | markTokenEmit (h : Hub)
  /-- PIN_EDGE (R42): An edge on PPS, PULSE or TICK is counted on its ruling when enabled and not debounced. -/
  | pinEdge (h : Hub) (k : Fin 10) (level : Bool)
  /-- DEBOUNCE_EXPIRY (R42): A pin that has held its new level for DEBOUNCE TICK edges has its edge counted. -/
  | debounceExpiry (h : Hub) (k : Fin 10)
  /-- PTPSTEP_WRITE (R41): A PTPSTEP write steps the PTP ruling forward at once, or holds it for a backward step. -/
  | ptpstepWrite (m : Master) (h : Hub) (v : W32)
  /-- PTP_HOLD_END (R41): After a backward step, the ruling resumes once the accumulated count has overtaken the held position. -/
  | ptpHoldEnd (h : Hub)
  /-- RFEVT_LINE_EVENT (R38): A fabric-port write of 0x1 to RFEVT presents a line event to an SRC 4 ruling. -/
  | rfevtLineEvent (h : Hub) (fp : Fin 8) (r : Rid)
  /-- RFEVT_FRAME_EVENT (R38): A fabric-port write of 0x2 to RFEVT presents a frame event to an SRC 4 ruling. -/
  | rfevtFrameEvent (h : Hub) (fp : Fin 8) (r : Rid)
  /-- RCFG_WRITE (R44): An RCFG write configures a ruling and, for a stream ruling, clears it to 0 and deletes its marks. -/
  | rcfgWrite (m : Master) (h : Hub) (r : Rid) (v : W32)
  /-- RFMT_WRITE (R44): An RFMT write sets FRAMETS, clears the stream ruling and deletes its marks. -/
  | rfmtWrite (m : Master) (h : Hub) (r : Rid) (v : W32)
  /-- RPOS_LO_READ (R44): A read of RPOS_LO returns the live lower half and loads the ruling's latch. -/
  | rposLoRead (m : Master) (h : Hub) (r : Rid)
  /-- LOSS_WINDOW_CLOSE (R50): A loss monitor's window closes after SPAN reference units, storing LMLAST and setting LOST on a violation. -/
  | lossWindowClose (h : Hub) (n : Fin 64)
  /-- LOSS_TOKEN_EMIT (R50): A loss monitor's held token enters the token path once the path accepts it. -/
  | lossTokenEmit (h : Hub) (n : Fin 64)
  /-- CORE_WATCHDOG_EXPIRY (R52): A core watchdog reaching 0 raises WATCH the first time and drains the core the second time. -/
  | coreWatchdogExpiry (c : CoreId)
  /-- DEVICE_WATCHDOG_EXPIRY (R52): The device watchdog reaching 0 sets DEVWD, journals, and with ACT = 1 starts the final stroke and a warm reset. -/
  | deviceWatchdogExpiry (h : Hub)
  /-- WDKICK_WRITE (R52): Writing 0x0000_00A5 to WDKICK reloads WDCNT from WDLOAD. -/
  | wdkickWrite (m : Master) (h : Hub) (w : Fin 33) (v : W32)
  /-- WDLOAD_WRITE (R52): A WDLOAD write sets the reload value and reloads WDCNT. -/
  | wdloadWrite (m : Master) (h : Hub) (w : Fin 33) (v : W32)
  /-- SYNC_NOP (R88): A SYNC NOP word does nothing for 1 ACLK. -/
  | syncNop (g : Sheet)
  /-- GSYNC (R88): A GSYNC word completes when every member has executed every earlier word. -/
  | gsync (g : Sheet)
  /-- BIT_WORD (R56): A BIT word applies its truth tables in every active nib of the gang and may blot. -/
  | bitWord (g : Sheet)
  /-- FIELD_MOV (R92): FIELD MOV copies field a into the destination. -/
  | fieldMov (g : Sheet)
  /-- FIELD_NOT (R92): FIELD NOT writes the inverse of field a. -/
  | fieldNot (g : Sheet)
  /-- FIELD_AND (R92): FIELD AND writes a AND b. -/
  | fieldAnd (g : Sheet)
  /-- FIELD_OR (R92): FIELD OR writes a OR b. -/
  | fieldOr (g : Sheet)
  /-- FIELD_XOR (R92): FIELD XOR writes a XOR b. -/
  | fieldXor (g : Sheet)
  /-- FIELD_ADD (R93): FIELD ADD writes (a + b) mod 2^n and leaves the carry in C. -/
  | fieldAdd (g : Sheet)
  /-- FIELD_ADDC (R93): FIELD ADDC writes (a + b + C) mod 2^n. -/
  | fieldAddc (g : Sheet)
  /-- FIELD_SUB (R93): FIELD SUB writes (a - b) mod 2^n with C set when a >= b. -/
  | fieldSub (g : Sheet)
  /-- FIELD_CMPEQ (R93): FIELD CMPEQ writes the equality of a and b. -/
  | fieldCmpeq (g : Sheet)
  /-- FIELD_CMPLT (R93): FIELD CMPLT writes a < b, signed or unsigned. -/
  | fieldCmplt (g : Sheet)
  /-- FIELD_ABSDIFF (R93): FIELD ABSDIFF writes the absolute difference, using one mask-stack entry. -/
  | fieldAbsdiff (g : Sheet)
  /-- FIELD_MIN (R93): FIELD MIN writes the minimum of a and b. -/
  | fieldMin (g : Sheet)
  /-- FIELD_MAX (R93): FIELD MAX writes the maximum of a and b. -/
  | fieldMax (g : Sheet)
  /-- FIELD_MUL (R93): FIELD MUL writes the 2n-bit product of a and b. -/
  | fieldMul (g : Sheet)
  /-- FIELD_MULACC (R93): FIELD MULACC adds a × b into the 2n-bit destination. -/
  | fieldMulacc (g : Sheet)
  /-- FIELD_SHL (R94): FIELD SHL moves the neighbour's field a into the destination through T. -/
  | fieldShl (g : Sheet)
  /-- FIELD_POPCNT (R93): FIELD POPCNT writes the count of 1 bits in a. -/
  | fieldPopcnt (g : Sheet)
  /-- LINE_IN (R96): A LINE IN word queues an in-port run for its member sheet. -/
  | lineIn (g : Sheet)
  /-- LINE_OUT (R96): A LINE OUT word queues an out-port run for its member sheet. -/
  | lineOut (g : Sheet)
  /-- IN_RUN (R74): An in line port takes a run from its channel slot and writes its planes into one sheet row. -/
  | inRun (sh : Sheet)
  /-- OUT_RUN (R75): An out line port reads a row's planes and hands the run to the hub's channel slot when credit allows. -/
  | outRun (sh : Sheet)
  /-- BTOK (R99): A BTOK word requests a blot token for the latest blot, optionally only when it is 1. -/
  | btok (g : Sheet)
  /-- BPLANE (R99): A BPLANE word blots a plane over the active nibs without writing. -/
  | bplane (g : Sheet)
  /-- FINDER_RESULT (R72): The gang's blot and finder result become available and are stored in SHBLOT. -/
  | finderResult (g : Sheet)
  /-- BLOT_TOKEN (R100): A blot token with the finder result enters the token path of the claiming core's hub. -/
  | blotToken (g : Sheet)
  /-- MSET (R101): MSET sets M from a plane. -/
  | mset (g : Sheet)
  /-- MAND (R101): MAND ANDs a plane into M. -/
  | mand (g : Sheet)
  /-- MOR (R101): MOR ORs a plane into M. -/
  | mor (g : Sheet)
  /-- MPUSH (R102): MPUSH pushes M onto the mask stack. -/
  | mpush (g : Sheet)
  /-- MPOP (R102): MPOP restores M from the top of the mask stack. -/
  | mpop (g : Sheet)
  /-- MALL (R101): MALL sets M to NOT INV in every nib. -/
  | mall (g : Sheet)
  /-- MCLRF (R101): MCLRF waits for the finder and clears M in the found nib. -/
  | mclrf (g : Sheet)
  /-- MSAVE (R101): MSAVE writes M into a plane. -/
  | msave (g : Sheet)
  /-- LOOP (R104): A LOOP word records the next LEN words and replays them CNT times. -/
  | loop (g : Sheet)
  /-- SKIPB (R103): SKIPB skips N words when the latest blot equals POL. -/
  | skipb (g : Sheet)
  /-- BREAKB (R104): BREAKB ends the innermost loop when the latest blot equals POL. -/
  | breakb (g : Sheet)
  /-- WAITB (R103): WAITB waits for the latest blot and its finder result. -/
  | waitb (g : Sheet)
  /-- WAITLP (R103): WAITLP waits for every earlier run of the named ports. -/
  | waitlp (g : Sheet)
  /-- KEND (R105): KEND ends the kernel once earlier words, runs and finder are done, and ends the gang's claim. -/
  | kend (g : Sheet)
  /-- COMPLETION_TOKEN (R105): A completed KEND with TOK = 1 emits one completion token. -/
  | completionToken (g : Sheet)
  /-- GANG_CHANGE_EFFECT (R69): An accepted gang change takes effect once every involved sheet is IDLE or OFF and no blot is pending. -/
  | gangChangeEffect (g : Sheet)
  /-- SHEET_WAKE (R84): PWREN or an arriving word or run wakes an OFF sheet into CLEAR. -/
  | sheetWake (sh : Sheet)
  /-- CLEAR_COMPLETE (R84): Clearing of plane memory and latches ends and the sheet enters IDLE. -/
  | clearComplete (sh : Sheet)
  /-- SHEET_POWER_OFF (R81): An IDLE sheet with PWREN = 0 is switched off after drain and fence. -/
  | sheetPowerOff (sh : Sheet)
  /-- CLRFAULT (R85): SHCTL.CLRFAULT in FAULT clears the fault registers and enters IDLE. -/
  | clrfault (m : Master) (sh : Sheet) (v : W32)
  /-- CLRPLANES (R84): SHCTL.CLRPLANES in IDLE clears plane memory and latches through CLEAR. -/
  | clrplanes (m : Master) (sh : Sheet) (v : W32)
  /-- BIST_COMPLETE (R83): A sheet's self-test ends, sets SHBIST and moves the sheet to CLEAR or RETIRED. -/
  | bistComplete (sh : Sheet) (logicf : Bool) (bad : BitVec 132)
  /-- SCRUB_STEP (R274): A scrubber reads its next unit and rewrites it only when it corrected an error. -/
  | scrubStep (h : Hub) (u : Fin 9)
  /-- ARRAY_TRAP (R112): A core takes a pending ARRAY trap at a boundary with the fault's TRAPV. -/
  | arrayTrap (c : CoreId)
  /-- WATCH_TRAP (R219): A core takes a pending watchdog WATCH trap at a boundary. -/
  | watchTrap (c : CoreId)
  /-- STORE_MEMERR (R219): A core takes an asynchronous MEMERR raised for an earlier store at a boundary. -/
  | storeMemerr (c : CoreId)
  /-- DISPATCH_INTERRUPT (R150): A core that takes an instance loads its preload or its frame and starts it. -/
  | dispatchInterrupt (c : CoreId)
  /-- PREEMPTION_INTERRUPT (R151): A pre-emptible codelet is saved to a frame and the class-3 instance is taken. -/
  | preemptionInterrupt (c : CoreId)
  /-- TOKEN_ARRIVAL (R119): A token reaches the arrival stage, is checked, and bypasses or enters its bank queue. -/
  | tokenArrival (h : Hub) (src : TokSrc)
  /-- LOOKUP (R129): A bank looks up the token at its queue head, completing, updating or placing an entry. -/
  | lookup (h : Hub) (b : Fin 16)
  /-- BLOTTER_LOOKUP_DONE (R132): A main-memory blotter lookup returns and the token is matched against the spilled entry. -/
  | blotterLookupDone (h : Hub) (b : Fin 16)
  /-- SPILL_REFILL (R128): A bank queue at 512 tokens refills 64 tokens from its spill FIFO. -/
  | spillRefill (h : Hub) (b : Fin 16)
  /-- WAY_REFILL (R133): A freed way takes the oldest blotter entry of its set back into the store. -/
  | wayRefill (h : Hub) (b : Fin 16) (set : BitVec 11)
  /-- CONTEXT_RETURN_FREE (R125): A PURGE context returns to FREE once nothing naming it remains. -/
  | contextReturnFree (h : Hub) (x : BitVec 12)
  /-- DRAIN_MARKER_LAUNCH (R137): A quiet partition with waiting entries launches a drain marker. -/
  | drainMarkerLaunch (h : Hub) (p : Part)
  /-- STALL_DETECT (R138): The drain marker returns with the partition quiet, and the hub snapshots, journals and may emit a STALL token. -/
  | stallDetect (h : Hub) (p : Part)
  /-- CLTBASE_WRITE (R121): A write of CLTBASE sets the codelet table base and empties the descriptor cache. -/
  | cltbaseWrite (m : Master) (h : Hub) (hi : Bool) (v : W32)
  /-- CLTSIZE_WRITE (R121): A write of CLTSIZE sets the table size and empties the descriptor cache. -/
  | cltsizeWrite (m : Master) (h : Hub) (v : W32)
  /-- BLTCTL_ENABLE (R134): Setting BLTCTL.EN formats the partition's blotter region. -/
  | bltctlEnable (m : Master) (h : Hub) (p : Part) (v : W32)
  /-- DISPATCH_PLACE (R144): The dispatch unit places a ready instance on a core by affinity, class 3 or load, or in the backlog. -/
  | dispatchPlace (h : Hub)
  /-- READY_REFILL (R146): A ready list of 128 entries or fewer takes up to 16 entries from the highest-class spill FIFO. -/
  | readyRefill (c : CoreId)
  /-- CANCEL_POINT (R155): The destination engine applies a CANCEL, removing the instance's or context's state. -/
  | cancelPoint (h : Hub)
  /-- SWEEP_END (R156): A context sweep finishes reading the blotter and the context is usable again. -/
  | sweepEnd (h : Hub)
  /-- LIGATURE_RELEASE (R160): The filled head entry of a flow is released as a token or a skip and NEXTREL advances. -/
  | ligatureRelease (h : Hub)
  /-- LIGATURE_REFILL (R161): Spilled ligature entries near the head are brought back on chip. -/
  | ligatureRefill (h : Hub) (f : BitVec 12)
  /-- FLOW_ENABLE (R158): Setting FLOW.EN zeroes NEXTALLOC and NEXTREL. -/
  | flowEnable (m : Master) (h : Hub) (f : BitVec 12) (v : W32)
  /-- NOP (R192): NOP does nothing. -/
  | nop (c : CoreId)
  /-- SLEEP (R218): SLEEP stops fetching until the core has an event it could take. -/
  | sleep (c : CoreId)
  /-- DONE (R151): DONE ends the running instance or code and takes the next instance or goes idle. -/
  | done (c : CoreId)
  /-- YIELD (R151): YIELD saves the instance to a frame at the tail of its class, or completes without effect. -/
  | yield (c : CoreId) (rd : Reg)
  /-- FBAR (R206): FBAR waits for the floating-point unit and delivers a pending FPE. -/
  | fbar (c : CoreId)
  /-- SYNC (R171): SYNC waits until every earlier access of the core has been performed. -/
  | sync (c : CoreId)
  /-- TRAP (R192): TRAP raises the TRAP cause with its immediate. -/
  | trap (c : CoreId) (imm : BitVec 15)
  /-- ERET (R216): ERET returns from a trap, restoring PSTAT and the shadow registers. -/
  | eret (c : CoreId)
  /-- BRK (R192): BRK raises BRK, or halts the core under an attached debugger. -/
  | brk (c : CoreId)
  /-- REP (R188): REP repeats the next instruction CNT times. -/
  | rep (c : CoreId) (w : W32)
  /-- REPZ (R188): REPZ repeats the next instruction while Z is 1. -/
  | repz (c : CoreId) (w : W32)
  /-- REPNZ (R188): REPNZ repeats the next instruction while Z is 0. -/
  | repnz (c : CoreId) (w : W32)
  /-- ADD (R172): ADD adds two registers. -/
  | add (c : CoreId) (s : Bool) (rd : Reg) (ra : Reg) (rb : Reg)
  /-- SUB (R172): SUB subtracts two registers. -/
  | sub (c : CoreId) (s : Bool) (rd : Reg) (ra : Reg) (rb : Reg)
  /-- ADC (R172): ADC adds with carry. -/
  | adc (c : CoreId) (s : Bool) (rd : Reg) (ra : Reg) (rb : Reg)
  /-- SBC (R172): SBC subtracts with borrow. -/
  | sbc (c : CoreId) (s : Bool) (rd : Reg) (ra : Reg) (rb : Reg)
  /-- AND (R172): AND of two registers. -/
  | and (c : CoreId) (s : Bool) (rd : Reg) (ra : Reg) (rb : Reg)
  /-- OR (R172): OR of two registers. -/
  | or (c : CoreId) (s : Bool) (rd : Reg) (ra : Reg) (rb : Reg)
  /-- XOR (R172): XOR of two registers. -/
  | xor (c : CoreId) (s : Bool) (rd : Reg) (ra : Reg) (rb : Reg)
  /-- ANDN (R172): AND with the complement of rb. -/
  | andn (c : CoreId) (s : Bool) (rd : Reg) (ra : Reg) (rb : Reg)
  /-- CMP (R172): CMP sets the flags as SUB without a result. -/
  | cmp (c : CoreId) (s : Bool) (rd : Reg) (ra : Reg) (rb : Reg)
  /-- SLT (R172): SLT sets rd to the signed comparison. -/
  | slt (c : CoreId) (rd : Reg) (ra : Reg) (rb : Reg)
  /-- SLTU (R172): SLTU sets rd to the unsigned comparison. -/
  | sltu (c : CoreId) (rd : Reg) (ra : Reg) (rb : Reg)
  /-- MIN (R172): MIN writes the signed minimum. -/
  | min (c : CoreId) (rd : Reg) (ra : Reg) (rb : Reg)
  /-- MAX (R172): MAX writes the signed maximum. -/
  | max (c : CoreId) (rd : Reg) (ra : Reg) (rb : Reg)
  /-- MINU (R172): MINU writes the unsigned minimum. -/
  | minu (c : CoreId) (rd : Reg) (ra : Reg) (rb : Reg)
  /-- MAXU (R172): MAXU writes the unsigned maximum. -/
  | maxu (c : CoreId) (rd : Reg) (ra : Reg) (rb : Reg)
  /-- ADDI (R173): ADDI adds a sign-extended immediate. -/
  | addi (c : CoreId) (rd : Reg) (ra : Reg) (imm : BitVec 12)
  /-- ADDIS (R173): ADDIS adds an immediate and sets the flags. -/
  | addis (c : CoreId) (rd : Reg) (ra : Reg) (imm : BitVec 12)
  /-- ANDI (R173): ANDI ANDs a zero-extended immediate. -/
  | andi (c : CoreId) (rd : Reg) (ra : Reg) (imm : BitVec 12)
  /-- ORI (R173): ORI ORs a zero-extended immediate. -/
  | ori (c : CoreId) (rd : Reg) (ra : Reg) (imm : BitVec 12)
  /-- XORI (R173): XORI XORs a zero-extended immediate. -/
  | xori (c : CoreId) (rd : Reg) (ra : Reg) (imm : BitVec 12)
  /-- CMPI (R173): CMPI compares with an immediate. -/
  | cmpi (c : CoreId) (rd : Reg) (ra : Reg) (imm : BitVec 12)
  /-- SLTI (R173): SLTI compares signed with an immediate. -/
  | slti (c : CoreId) (rd : Reg) (ra : Reg) (imm : BitVec 12)
  /-- SLTIU (R173): SLTIU compares unsigned with an immediate. -/
  | sltiu (c : CoreId) (rd : Reg) (ra : Reg) (imm : BitVec 12)
  /-- SHORI (R173): SHORI shifts left 12 and ORs an immediate. -/
  | shori (c : CoreId) (rd : Reg) (ra : Reg) (imm : BitVec 12)
  /-- SLL (R174): SLL shifts left by a register. -/
  | sll (c : CoreId) (rd : Reg) (ra : Reg) (rb : Reg)
  /-- SRL (R174): SRL shifts right logically by a register. -/
  | srl (c : CoreId) (rd : Reg) (ra : Reg) (rb : Reg)
  /-- SRA (R174): SRA shifts right arithmetically by a register. -/
  | sra (c : CoreId) (rd : Reg) (ra : Reg) (rb : Reg)
  /-- ROR (R174): ROR rotates right by a register. -/
  | ror (c : CoreId) (rd : Reg) (ra : Reg) (rb : Reg)
  /-- SLLI (R174): SLLI shifts left by SH. -/
  | slli (c : CoreId) (rd : Reg) (ra : Reg) (sh : BitVec 6)
  /-- SRLI (R174): SRLI shifts right logically by SH. -/
  | srli (c : CoreId) (rd : Reg) (ra : Reg) (sh : BitVec 6)
  /-- SRAI (R174): SRAI shifts right arithmetically by SH. -/
  | srai (c : CoreId) (rd : Reg) (ra : Reg) (sh : BitVec 6)
  /-- RORI (R174): RORI rotates right by SH. -/
  | rori (c : CoreId) (rd : Reg) (ra : Reg) (sh : BitVec 6)
  /-- CLZ (R174): CLZ counts leading zeros. -/
  | clz (c : CoreId) (rd : Reg) (ra : Reg)
  /-- CTZ (R174): CTZ counts trailing zeros. -/
  | ctz (c : CoreId) (rd : Reg) (ra : Reg)
  /-- POPC (R174): POPC counts 1 bits. -/
  | popc (c : CoreId) (rd : Reg) (ra : Reg)
  /-- BSWAP (R174): BSWAP reverses the eight bytes. -/
  | bswap (c : CoreId) (rd : Reg) (ra : Reg)
  /-- BEXT (R174): BEXT extracts a bit field. -/
  | bext (c : CoreId) (rd : Reg) (ra : Reg) (rb : Reg) (sh : BitVec 6)
  /-- MUL (R175): MUL writes the low 64 bits of the product. -/
  | mul (c : CoreId) (rd : Reg) (ra : Reg) (rb : Reg)
  /-- MULH (R175): MULH writes the high half of the signed product. -/
  | mulh (c : CoreId) (rd : Reg) (ra : Reg) (rb : Reg)
  /-- MULHU (R175): MULHU writes the high half of the unsigned product. -/
  | mulhu (c : CoreId) (rd : Reg) (ra : Reg) (rb : Reg)
  /-- MUL32 (R175): MUL32 writes the exact product of two signed 32-bit values in 1 CCLK. -/
  | mul32 (c : CoreId) (rd : Reg) (ra : Reg) (rb : Reg)
  /-- DIV (R176): DIV writes the signed quotient. -/
  | div (c : CoreId) (rd : Reg) (ra : Reg) (rb : Reg)
  /-- DIVU (R176): DIVU writes the unsigned quotient. -/
  | divu (c : CoreId) (rd : Reg) (ra : Reg) (rb : Reg)
  /-- REM (R176): REM writes the signed remainder. -/
  | rem (c : CoreId) (rd : Reg) (ra : Reg) (rb : Reg)
  /-- REMU (R176): REMU writes the unsigned remainder. -/
  | remu (c : CoreId) (rd : Reg) (ra : Reg) (rb : Reg)
  /-- DADD (R178): DADD adds packed BCD. -/
  | dadd (c : CoreId) (rd : Reg) (ra : Reg) (rb : Reg)
  /-- DSUB (R178): DSUB subtracts packed BCD. -/
  | dsub (c : CoreId) (rd : Reg) (ra : Reg) (rb : Reg)
  /-- DADJ (R178): DADJ repairs packed BCD. -/
  | dadj (c : CoreId) (rd : Reg) (ra : Reg)
  /-- DCMP (R178): DCMP compares packed BCD. -/
  | dcmp (c : CoreId) (ra : Reg) (rb : Reg)
  /-- DSHL (R178): DSHL shifts digits left. -/
  | dshl (c : CoreId) (rd : Reg) (ra : Reg) (rb : Reg)
  /-- DSHR (R178): DSHR shifts digits right. -/
  | dshr (c : CoreId) (rd : Reg) (ra : Reg) (rb : Reg)
  /-- BTOD (R179): BTOD converts binary to BCD, CNT digits. -/
  | btod (c : CoreId) (rd : Reg) (ra : Reg)
  /-- DTOB (R179): DTOB converts BCD to binary, CNT digits. -/
  | dtob (c : CoreId) (rd : Reg) (ra : Reg)
  /-- BR (R181): BR branches unconditionally. -/
  | br (c : CoreId) (disp : BitVec 26)
  /-- BL (R181): BL branches and links in G31. -/
  | bl (c : CoreId) (disp : BitVec 26)
  /-- BCC (R181): BCC branches when its condition holds. -/
  | bcc (c : CoreId) (cond : BitVec 4) (disp : BitVec 22)
  /-- JR (R181): JR jumps to a register. -/
  | jr (c : CoreId) (ra : Reg)
  /-- JLR (R181): JLR jumps to a register and links. -/
  | jlr (c : CoreId) (rd : Reg) (ra : Reg)
  /-- LOAD (R182): A major-0x08 load reads 1-8 bytes at base plus offset. -/
  | load (c : CoreId) (sz : BitVec 2) (sx : Bool) (u : Bool) (off : BitVec 12) (rd : Reg) (ra : Reg)
  /-- STORE (R182): A major-0x09 store writes 1-8 bytes at base plus offset. -/
  | store (c : CoreId) (sz : BitVec 2) (u : Bool) (off : BitVec 12) (rd : Reg) (ra : Reg)
  /-- LOAD_INDEXED (R182): A major-0x0A load with ST = 0 reads at base plus scaled index. -/
  | loadIndexed (c : CoreId) (sz : BitVec 2) (sx : Bool) (rd : Reg) (ra : Reg) (rb : Reg)
  /-- STORE_INDEXED (R182): A major-0x0A store with ST = 1 writes at base plus scaled index. -/
  | storeIndexed (c : CoreId) (sz : BitVec 2) (rd : Reg) (ra : Reg) (rb : Reg)
  /-- LDL (R185): LDL loads and reserves a 64-byte granule. -/
  | ldl (c : CoreId) (rd : Reg) (ra : Reg)
  /-- STC (R185): STC stores only if the reservation is held and clears it. -/
  | stc (c : CoreId) (rd : Reg) (ra : Reg) (rb : Reg)
  /-- AADD (R185): AADD adds atomically in common memory. -/
  | aadd (c : CoreId) (rd : Reg) (ra : Reg) (rb : Reg)
  /-- ASWAP (R185): ASWAP swaps atomically in common memory. -/
  | aswap (c : CoreId) (rd : Reg) (ra : Reg) (rb : Reg)
  /-- ACAS (R185): ACAS compares and swaps atomically and sets Z. -/
  | acas (c : CoreId) (rd : Reg) (ra : Reg) (rb : Reg)
  /-- BMOVE (R190): BMOVE copies CNT elements. -/
  | bmove (c : CoreId) (sz : BitVec 2) (rd : Reg) (ra : Reg)
  /-- BFILL (R190): BFILL fills CNT elements. -/
  | bfill (c : CoreId) (sz : BitVec 2) (rd : Reg) (ra : Reg)
  /-- BCMP (R190): BCMP compares CNT elements and stops at a difference. -/
  | bcmp (c : CoreId) (sz : BitVec 2) (rd : Reg) (ra : Reg)
  /-- SEND (R118): SEND checks and sends one token. -/
  | send (c : CoreId) (hsel : BitVec 2) (rd : Reg) (ra : Reg) (rb : Reg)
  /-- SENDV (R194): SENDV checks and sends n tokens to consecutive ports as one unit. -/
  | sendv (c : CoreId) (hsel : BitVec 2) (n : BitVec 2) (rd : Reg) (ra : Reg) (rb : Reg)
  /-- CTXNEW (R124): CTXNEW allocates a context or returns the failure or throttle code. -/
  | ctxnew (c : CoreId) (rd : Reg)
  /-- CTXFREE (R125): CTXFREE puts a LIVE context into PURGE and starts its sweep. -/
  | ctxfree (c : CoreId) (ra : Reg)
  /-- CANCEL_KEY (R155): CANCEL with MODE 0 requests removal of one instance. -/
  | cancelKey (c : CoreId) (hsel : BitVec 2) (rd : Reg) (ra : Reg)
  /-- CANCEL_CONTEXT (R156): CANCEL with MODE 1 requests a sweep of a context. -/
  | cancelContext (c : CoreId) (ra : Reg)
  /-- FLOWSEQ_NEXT (R159): FLOWSEQ NEXT allocates a sequence number in a flow. -/
  | flowseqNext (c : CoreId) (rd : Reg) (ra : Reg)
  /-- FLOWSEQ_PUT (R159): FLOWSEQ PUT fills a pending entry with a token. -/
  | flowseqPut (c : CoreId) (rd : Reg) (ra : Reg) (rb : Reg)
  /-- FLOWSEQ_SKIP (R159): FLOWSEQ SKIP fills a pending entry with no token. -/
  | flowseqSkip (c : CoreId) (ra : Reg)
  /-- AISSUE (R109): AISSUE in register form issues one array word to a gang. -/
  | aissue (c : CoreId) (rd : Reg) (ra : Reg) (rb : Reg)
  /-- AISSUE_BLOCK (R109): AISSUE in block form issues CNT words from memory. -/
  | aissueBlock (c : CoreId) (rd : Reg) (ra : Reg)
  /-- AGANG (R110): AGANG requests the formation or dissolution of a gang and writes a status. -/
  | agang (c : CoreId) (rd : Reg) (ra : Reg) (rb : Reg)
  /-- AWAIT (R111): AWAIT waits until the core's words to the gang have executed and writes the blot value. -/
  | await (c : CoreId) (rd : Reg) (ra : Reg)
  /-- ABLOT (R111): ABLOT waits for pending blots and writes the blot value. -/
  | ablot (c : CoreId) (rd : Reg) (ra : Reg)
  /-- RMARK (R45): RMARK creates a rule mark and returns its handle. -/
  | rmark (c : CoreId) (rd : Reg) (ra : Reg) (rb : Reg)
  /-- RXMARK (R47): RXMARK creates a cross mark and returns the primary's handle. -/
  | rxmark (c : CoreId) (rd : Reg) (ra : Reg) (rb : Reg)
  /-- RREAD (R196): RREAD returns a ruling's whole position word. -/
  | rread (c : CoreId) (rd : Reg) (ra : Reg)
  /-- RADV (R39): RADV moves a derived stream ruling forward to a supplied position. -/
  | radv (c : CoreId) (ra : Reg) (rb : Reg)
  /-- CHOP_OPEN (R287): A CHOP OPEN request opens a chain after admission and queues its OPEN record. -/
  | chopOpen (c : CoreId) (rd : Reg) (ra : Reg)
  /-- CHOP_BAND (R284): A CHOP BAND request queues a band record from memory or OUT slots. -/
  | chopBand (c : CoreId) (rd : Reg) (ra : Reg)
  /-- CHOP_SEAL (R283): A CHOP SEAL request queues a seal of the chain. -/
  | chopSeal (c : CoreId) (rd : Reg) (ra : Reg)
  /-- CHOP_CLOSE (R287): A CHOP CLOSE request writes EOR, queues the final seal and sets the chain CLOSING. -/
  | chopClose (c : CoreId) (rd : Reg) (ra : Reg)
  /-- SEALQ (R287): SEALQ returns a chain's state, ring, SRC and last index. -/
  | sealq (c : CoreId) (rd : Reg) (ra : Reg)
  /-- MFS (R222): MFS copies a special register to a G register. -/
  | mfs (c : CoreId) (rd : Reg) (spr : BitVec 8)
  /-- MTS (R222): MTS copies a G register to a writable special register. -/
  | mts (c : CoreId) (spr : BitVec 8) (ra : Reg)
  /-- FADD (R207): FADD issues a floating addition. -/
  | fadd (c : CoreId) (fmt : Bool) (fd : Reg) (fa : Reg) (fb : Reg)
  /-- FSUB (R207): FSUB issues a floating subtraction. -/
  | fsub (c : CoreId) (fmt : Bool) (fd : Reg) (fa : Reg) (fb : Reg)
  /-- FMUL (R207): FMUL issues a floating multiplication. -/
  | fmul (c : CoreId) (fmt : Bool) (fd : Reg) (fa : Reg) (fb : Reg)
  /-- FDIV (R207): FDIV issues a floating division. -/
  | fdiv (c : CoreId) (fmt : Bool) (fd : Reg) (fa : Reg) (fb : Reg)
  /-- FSQRT (R207): FSQRT issues a floating square root. -/
  | fsqrt (c : CoreId) (fmt : Bool) (fd : Reg) (fa : Reg)
  /-- FMIN (R207): FMIN writes minimumNumber. -/
  | fmin (c : CoreId) (fmt : Bool) (fd : Reg) (fa : Reg) (fb : Reg)
  /-- FMAX (R207): FMAX writes maximumNumber. -/
  | fmax (c : CoreId) (fmt : Bool) (fd : Reg) (fa : Reg) (fb : Reg)
  /-- FABS (R207): FABS clears the sign. -/
  | fabs (c : CoreId) (fmt : Bool) (fd : Reg) (fa : Reg)
  /-- FNEG (R207): FNEG inverts the sign. -/
  | fneg (c : CoreId) (fmt : Bool) (fd : Reg) (fa : Reg)
  /-- FMOV (R207): FMOV copies an F register. -/
  | fmov (c : CoreId) (fmt : Bool) (fd : Reg) (fa : Reg)
  /-- FCMP (R209): FCMP sets N, Z, C, V from a quiet comparison. -/
  | fcmp (c : CoreId) (fmt : Bool) (fa : Reg) (fb : Reg)
  /-- FCMPE (R209): FCMPE compares, signalling on any NaN. -/
  | fcmpe (c : CoreId) (fmt : Bool) (fa : Reg) (fb : Reg)
  /-- FMADD (R208): FMADD computes fa × fb + fc with one rounding. -/
  | fmadd (c : CoreId) (fmt : Bool) (fd : Reg) (fa : Reg) (fb : Reg) (fc : Reg)
  /-- FMSUB (R208): FMSUB computes fa × fb - fc. -/
  | fmsub (c : CoreId) (fmt : Bool) (fd : Reg) (fa : Reg) (fb : Reg) (fc : Reg)
  /-- FNMADD (R208): FNMADD computes -(fa × fb + fc). -/
  | fnmadd (c : CoreId) (fmt : Bool) (fd : Reg) (fa : Reg) (fb : Reg) (fc : Reg)
  /-- FNMSUB (R208): FNMSUB computes -(fa × fb - fc). -/
  | fnmsub (c : CoreId) (fmt : Bool) (fd : Reg) (fa : Reg) (fb : Reg) (fc : Reg)
  /-- FCVT_S2D (R210): FCVT.S2D converts binary32 to binary64. -/
  | fcvtS2d (c : CoreId) (rd : Reg) (ra : Reg)
  /-- FCVT_D2S (R210): FCVT.D2S converts binary64 to binary32. -/
  | fcvtD2s (c : CoreId) (rd : Reg) (ra : Reg)
  /-- FCVT_H2S (R210): FCVT.H2S converts binary16 to binary32. -/
  | fcvtH2s (c : CoreId) (rd : Reg) (ra : Reg)
  /-- FCVT_S2H (R210): FCVT.S2H converts binary32 to binary16. -/
  | fcvtS2h (c : CoreId) (rd : Reg) (ra : Reg)
  /-- FCVT_H2D (R210): FCVT.H2D converts binary16 to binary64. -/
  | fcvtH2d (c : CoreId) (rd : Reg) (ra : Reg)
  /-- FCVT_D2H (R210): FCVT.D2H converts binary64 to binary16. -/
  | fcvtD2h (c : CoreId) (rd : Reg) (ra : Reg)
  /-- FCVTI (R210): FCVTI converts to a signed 64-bit integer. -/
  | fcvti (c : CoreId) (fmt : Bool) (rz : Bool) (rd : Reg) (fa : Reg)
  /-- FCVTIU (R210): FCVTIU converts to an unsigned 64-bit integer. -/
  | fcvtiu (c : CoreId) (fmt : Bool) (rz : Bool) (rd : Reg) (fa : Reg)
  /-- ICVTF (R210): ICVTF converts a signed integer to floating point. -/
  | icvtf (c : CoreId) (fmt : Bool) (fd : Reg) (ra : Reg)
  /-- ICVTFU (R210): ICVTFU converts an unsigned integer to floating point. -/
  | icvtfu (c : CoreId) (fmt : Bool) (fd : Reg) (ra : Reg)
  /-- FMVGF (R210): FMVGF moves an F register to a G register. -/
  | fmvgf (c : CoreId) (rd : Reg) (ra : Reg)
  /-- FMVFG (R210): FMVFG moves a G register to an F register. -/
  | fmvfg (c : CoreId) (rd : Reg) (ra : Reg)
  /-- FCLASS (R210): FCLASS writes the class of an F register. -/
  | fclass (c : CoreId) (fmt : Bool) (rd : Reg) (fa : Reg)
  /-- FP_LOAD (R211): A major-0x13 load fills an F register. -/
  | fpLoad (c : CoreId) (sz : BitVec 2) (off : BitVec 12) (fd : Reg) (ra : Reg)
  /-- FP_STORE (R211): A major-0x13 store writes the low bytes of an F register. -/
  | fpStore (c : CoreId) (sz : BitVec 2) (off : BitVec 12) (fd : Reg) (ra : Reg)
  /-- FP_COMPLETE (R205): A floating-point instruction completes, writing its result and flags or making its FPE pending. -/
  | fpComplete (c : CoreId)
  /-- TABLE_RANGE_WORD (R234): A word of majors 0x38-0x3F raises EMU in TRAP mode or runs its decode-table routine in TABLE mode. -/
  | tableRangeWord (c : CoreId) (w : W32)
  /-- EMULATED_WORD (R224): A word of majors 0x07 or 0x1A-0x37 raises EMU. -/
  | emulatedWord (c : CoreId) (w : W32)
  /-- DEFERRAL_LIMIT (R232): A WCS routine reaching 256 CCLK of deferral raises CTRLCHK kind 0xB. -/
  | deferralLimit (c : CoreId)
  /-- MICROCODE_LOAD_START (R237): Loader START begins a signed microcode load into the selected cores. -/
  | microcodeLoadStart (m : Master) (h : Hub) (v : W32)
  /-- MICROCODE_LOAD_DONE (R237): A microcode load ends, writing the cores on success and a status either way. -/
  | microcodeLoadDone (h : Hub)
  /-- DECODE_MODE_SET (R235): A write of MCCTL.DECODE_MODE takes effect at the core's next boundary. -/
  | decodeModeSet (c : CoreId)
  /-- MESH_HEADER_CHECK_FAIL (R244): A router input finds a bad header and asks for a replay. -/
  | meshHeaderCheckFail (h : Hub) (r : Tile) (mesh : Fin 8) (d : Fin 5) (again : Bool) (port : Fin 4) (addr : BitVec 48)
  /-- ABSORB_PACKET (R249): An absorber facing an isolated target answers ISOLATED or discards the packet. -/
  | absorbPacket (h : Hub) (t : Tile) (k : PktKind)
  /-- NO_ROUTE_ABSORB (R250): A packet with no route left is absorbed, and a lost response asserts ALARM_N. -/
  | noRouteAbsorb (h : Hub) (t : Tile) (mesh : Fin 8) (dst : Tile) (ep : Fin 2) (esc : Bool) (k : PktKind)
  /-- NEPOCH_SWITCH (R247): A SWITCH write inverts the routing epoch and starts counting old packets. -/
  | nepochSwitch (m : Master) (h : Hub) (v : W32)
  /-- OLD_TABLE_RETIRE (R247): OLDCNT reaches 0, the old table retires and BUSY clears. -/
  | oldTableRetire (h : Hub)
  /-- NRTAB_WRITE (R248): A routing-table entry write, discarded and counted when it breaks the rules. -/
  | nrtabWrite (m : Master) (h : Hub) (r : Tile) (e : Fin 2) (w : Fin 9) (v : W32)
  /-- DEPOL_CRC_FAIL (R252): A Depol receiver finds a bad header flit, sends NAK and discards from it. -/
  | depolCrcFail (h : Hub) (k : Fin 7) (seq : BitVec 6) (again : Bool)
  /-- DEPOL_NAK (R252): A received NAK makes the sender replay go-back-N from the failed header flit. -/
  | depolNak (h : Hub) (k : Fin 7) (ack : BitVec 6)
  /-- PILOT_FLIT (R255): A received pilot flit updates per-wire error counts and may request a wire repair. -/
  | pilotFlit (h : Hub) (k : Fin 7) (errs : BitVec 264)
  /-- WIRE_REPAIR (R255): At the named SEQ both ends move a wire to a spare and the link pauses 64 NCLK. -/
  | wireRepair (h : Hub) (k : Fin 7) (seq : BitVec 6)
  /-- LINK_TRAINED (R261): A Depol link finishes training and reaches UP or STANDBY. -/
  | linkTrained (h : Hub) (k : Fin 7) (ok : Bool)
  /-- DPLCTL_WRITE (R256): A DPLCTL write enables, puts OFF or fences a Depol link. -/
  | dplctlWrite (m : Master) (h : Hub) (k : Fin 7) (v : W32)
  /-- REGION_SLEEP (R258): A sleep request for a core cluster starts the drain-and-fence handshake once its cores are idle. -/
  | regionSleep (h : Hub) (d : Domain)
  /-- FENCE_ACK (R258): A block answers FENCE_ACK after completing its work and emptying its queues. -/
  | fenceAck (h : Hub) (d : Domain)
  /-- POWER_REMOVE (R258): Power is removed 200 NCLK after the last FENCE_ACK. -/
  | powerRemove (h : Hub) (d : Domain)
  /-- PACKET_HELD (R259): A packet for a sleeping region is held at the boundary router and starts a wake. -/
  | packetHeld (h : Hub) (d : Domain) (pkt : BitVec 96)
  /-- WAKE_COMPLETE (R259): A woken region is on, cleared, and delivers its held packets in order. -/
  | wakeComplete (h : Hub) (d : Domain)
  /-- NTILE_ISO (R249): A write of NTILE.ISO fences a tile's block so that its router port absorbs. -/
  | ntileIso (m : Master) (h : Hub) (t : Tile) (v : W32)
  /-- NTILE_OFF (R260): A write of NTILE.OFF switches a fenced tile off, or is refused. -/
  | ntileOff (m : Master) (h : Hub) (t : Tile) (v : W32)
  /-- NREG_ISO (R260): A write of NREG ISO and PWREN fences or switches off a region. -/
  | nregIso (m : Master) (h : Hub) (g : Fin 5) (v : W32)
  /-- NDIE_PWREN (R257): A write of NDIE.PWREN switches an array die off or on. -/
  | ndiePwren (m : Master) (h : Hub) (a : Fin 6) (v : W32)
  /-- CHANNEL_TRAINED (R265): A channel's training ends with STATE 2 or 5. -/
  | channelTrained (h : Hub) (k : Fin 4) (ok : Bool)
  /-- MCINIT_START (R266): MCINIT.START begins writing zero codewords over a ready channel. -/
  | mcinitStart (m : Master) (h : Hub) (k : Fin 4) (v : W32)
  /-- MCINIT_DONE (R266): Channel initialisation ends and BUSY clears. -/
  | mcinitDone (h : Hub) (k : Fin 4)
  /-- MEMCLR (R276): A MEMCLR write starts clearing the selected on-chip memories. -/
  | memclr (m : Master) (h : Hub) (v : W32)
  /-- MEMCLR_DONE (R276): A MEMCLR clear ends and BUSY clears. -/
  | memclrDone (h : Hub)
  /-- RING_RESERVE (R296): The request at a ring queue's head reserves space once wet ink allows and runs are present. -/
  | ringReserve (h : Hub) (r : Fin 4)
  /-- RECORD_COMMIT (R282): A hashed record is written with COMMIT last, extending its chain and the CSA. -/
  | recordCommit (h : Hub) (r : Fin 4)
  /-- SIGN_COMPLETE (R283): The signer signs a queued chain value and the SEAL record is committed. -/
  | signComplete (h : Hub)
  /-- SEAL_KEY_GEN (R289): SKCTL.GEN generates, wraps, stores and loads a new seal key. -/
  | sealKeyGen (m : Master) (h : Hub) (v : W32)
  /-- SEAL_KEY_LOAD (R289): SKCTL.LOAD unwraps the blob at SKADDR into both signers. -/
  | sealKeyLoad (m : Master) (h : Hub) (v : W32)
  /-- ER_ENABLE (R290): Setting ER.EN enables a ring and zeroes WSEQ, DSEQ and MSEQ. -/
  | erEnable (m : Master) (h : Hub) (r : Fin 4) (v : W32)
  /-- SEGMENT_ISSUE (R292): The drying engine issues a ring segment to a target at its HEAD. -/
  | segmentIssue (h : Hub) (r : Fin 4) (t : Fin 8)
  /-- SEGMENT_COMPLETE (R292): A segment's FUA write completes, DSEQ advances, or an error is retried. -/
  | segmentComplete (h : Hub) (r : Fin 4) (t : Fin 8) (ok : Bool)
  /-- PFAIL_N (R303): PFAIL_N low for 100 ns starts the final stroke on every hub. -/
  | pfailN
  /-- ECTL_STROKE (R303): A P0 write of ECTL.STROKE starts the final stroke. -/
  | ectlStroke (m : Master) (h : Hub) (v : W32)
  /-- STROKE_FLUSH_COMPLETE (R304): The last Flush completes, ANCSTATE becomes CLEAN and DRY_OK rises or a warm reset follows. -/
  | strokeFlushComplete (h : Hub)
  /-- MIRROR_FRAME (R311): A mirror-link frame is received, checked, stored, acknowledged or NAKed. -/
  | mirrorFrame (h : Hub) (hdr : BitVec 256) (payload : Bytes)
  /-- ADOPT (R312): MIRCTL.ADOPT in MODE 1 adopts the peer's mirrored wet ink. -/
  | adopt (m : Master) (h : Hub) (v : W32)
  /-- FRAME_RECEIVE (R322): A received Ethernet frame is checked, stamped, classified and sealed, unpacked, copied or ringed. -/
  | frameReceive (h : Hub) (lane : Fin 16) (fcsOk : Bool) (frame : Bytes)
  /-- PFC_XOFF_REPEAT (R318): While XOFF stands, the MAC resends the PFC frame every 32,768 quanta. -/
  | pfcXoffRepeat (h : Hub) (lane : Fin 16)
  /-- FRAME_TRANSMIT (R317): The MAC takes a transmit descriptor with OWN = 1, sends the frame and returns the descriptor. -/
  | frameTransmit (h : Hub) (lane : Fin 16)
  /-- LANE_ENABLE (R314): A write of LCTL with EN = 1 configures and trains a lane or lane group. -/
  | laneEnable (m : Master) (h : Hub) (lane : Fin 16) (v : W32)
  /-- STREAM_LOAD (R320): STCTL OP 1 checks and installs a stream table entry. -/
  | streamLoad (m : Master) (h : Hub) (half : Fin 2) (v : W32)
  /-- STREAM_REMOVE (R320): STCTL OP 2 unloads a stream table entry. -/
  | streamRemove (m : Master) (h : Hub) (half : Fin 2) (v : W32)
  /-- HOST_ACCESS (R326): A host BAR0 access acts as an access by HOSTPART, or completes with Unsupported Request. -/
  | hostAccess (h : Hub) (write : Bool) (size : BitVec 4) (off : BitVec 26) (data : W64)
  /-- INBOUND_REQUEST (R326): A request from a downstream device reaches main memory or completes with Unsupported Request. -/
  | inboundRequest (h : Hub) (port : Fin 2) (write : Bool) (addr : BitVec 48) (len : BitVec 8) (data : Bytes)
  /-- RPCMD_ISSUE (R326): RPCMD.GO issues one configuration or memory request on a root port. -/
  | rpcmdIssue (m : Master) (h : Hub) (v : W32)
  /-- RPCMD_COMPLETE (R326): A root-port request completes and STAT reports the outcome. -/
  | rpcmdComplete (h : Hub) (stat : BitVec 4) (data : W32)
  /-- RPCMD_TIMEOUT (R326): A root-port completion that does not arrive within 50 ms reports a time-out. -/
  | rpcmdTimeout (h : Hub)
  /-- PCIE_LINK_DOWN (R326): A PCIe link goes down and the NVMe targets on that port become FAILED. -/
  | pcieLinkDown (h : Hub) (port : Fin 2)
  /-- IDENT (R331): Mailbox IDENT returns IDENT, CONFIG and the serial. -/
  | ident (h : Hub) (slot : Fin 8)
  /-- CSRRD (R330): Mailbox CSRRD reads 4 or 8 bytes of either hub's CSR space. -/
  | csrrd (h : Hub) (slot : Fin 8)
  /-- CSRWR (R330): Mailbox CSRWR writes 4 or 8 bytes of either hub's CSR space. -/
  | csrwr (h : Hub) (slot : Fin 8)
  /-- PART_CREATE (R354): PART CREATE enables a partition with its plane on both hubs. -/
  | partCreate (h : Hub) (slot : Fin 8)
  /-- PART_DELETE (R354): PART DELETE disables a partition that owns nothing. -/
  | partDelete (h : Hub) (slot : Fin 8)
  /-- PART_ASSIGNCORES (R354): PART ASSIGNCORES moves out-of-service cores to a partition. -/
  | partAssigncores (h : Hub) (slot : Fin 8)
  /-- PART_ASSIGNCH (R354): PART ASSIGNCH moves channels to a partition under the window rule. -/
  | partAssignch (h : Hub) (slot : Fin 8)
  /-- EVAC (R357): SVC EVAC requests evacuation of a sheet with or without a replacement. -/
  | evac (h : Hub) (slot : Fin 8)
  /-- EVAC_EFFECT (R357): Once the gang is idle, the replacement or dissolution takes effect and the sheet enters EVAC. -/
  | evacEffect (sh : Sheet)
  /-- TEST (R358): SVC TEST starts a sheet's self-test. -/
  | test (h : Hub) (slot : Fin 8)
  /-- RETURN_SHEET (R358): SVC RETURN passes a sheet through CLEAR to IDLE. -/
  | returnSheet (h : Hub) (slot : Fin 8)
  /-- RETIRE (R358): SVC RETIRE leaves a sheet RETIRED. -/
  | retire (h : Hub) (slot : Fin 8)
  /-- DRAIN (R360): SVC DRAIN removes a core from dispatch and takes it out of service. -/
  | drain (h : Hub) (slot : Fin 8)
  /-- RETURN_CORE (R360): SVC RETURN core makes an out-of-service core idle and in service. -/
  | returnCore (h : Hub) (slot : Fin 8)
  /-- DIEOFF (R359): SVC DIEOFF fences an array die's home link and switches the die off. -/
  | dieoff (h : Hub) (slot : Fin 8)
  /-- DIEON (R359): SVC DIEON powers an array die and trains its home link. -/
  | dieon (h : Hub) (slot : Fin 8)
  /-- CHRETIRE (R361): SVC CHRETIRE retires a channel whose window holds nothing enabled. -/
  | chretire (h : Hub) (slot : Fin 8)
  /-- CHRETURN (R361): SVC CHRETURN trains a retired channel back to ready. -/
  | chreturn (h : Hub) (slot : Fin 8)
  /-- TAKEOVER (R363): SVC TAKEOVER or a DOWN hub-to-hub link with AUTO asks the peer's dies for their home-link state. -/
  | takeover (h : Hub) (slot : Fin 8)
  /-- TAKEOVER_ADOPT (R364): When every die reports its home link down, the hub isolates the peer and adopts its dies and ink. -/
  | takeoverAdopt (h : Hub)
  /-- JOURNAL (R369): Mailbox JOURNAL returns the journal base, size and write index. -/
  | journal (h : Hub) (slot : Fin 8)
  /-- BOOT (R400): Mailbox BOOT supplies the firmware image from the host and returns the verdict. -/
  | boot (h : Hub) (slot : Fin 8) (image : Bytes)
  /-- MCLOAD (R331): Mailbox MCLOAD starts a microcode load and answers when it ends. -/
  | mcload (h : Hub) (slot : Fin 8)
  /-- FABLOAD (R331): Mailbox FABLOAD starts a fabric load and answers when it ends. -/
  | fabload (h : Hub) (slot : Fin 8)
  /-- CHOPREQ (R331): Mailbox CHOPREQ hands a CHOP request from memory to the chop unit. -/
  | chopreq (h : Hub) (slot : Fin 8)
  /-- SEALST (R331): Mailbox SEALST returns a chain's state as SEALQ does. -/
  | sealst (h : Hub) (slot : Fin 8)
  /-- STROKE (R331): Mailbox STROKE with confirmation 0x5A starts the final stroke. -/
  | stroke (h : Hub) (slot : Fin 8)
  /-- TOKEN (R331): Mailbox TOKEN sends a token that the arrival stage checks. -/
  | token (h : Hub) (slot : Fin 8)
  /-- DBGAUTH_CHALLENGE (R379): DBGAUTH sub-op 1 draws a new challenge for the host path. -/
  | dbgauthChallenge (h : Hub) (slot : Fin 8)
  /-- DBGAUTH_LOAD (R379): DBGAUTH sub-op 2 loads a quarter of the key and signature buffer. -/
  | dbgauthLoad (h : Hub) (slot : Fin 8)
  /-- DBGAUTH_GO (R379): DBGAUTH sub-op 3 verifies the signed challenge and sets the host path's level. -/
  | dbgauthGo (h : Hub) (slot : Fin 8)
  /-- DBGAUTH_REVOKE (R378): DBGAUTH sub-op 4 sets the host path's level to NONE. -/
  | dbgauthRevoke (h : Hub) (slot : Fin 8)
  /-- DBGAUTH_READ (R380): DBGAUTH sub-op 5 peeks through the debug master. -/
  | dbgauthRead (h : Hub) (slot : Fin 8)
  /-- DBGAUTH_WRITE (R380): DBGAUTH sub-op 6 writes through the debug master. -/
  | dbgauthWrite (h : Hub) (slot : Fin 8)
  /-- PROBE_READ (R381): A probe read of 4 or 8 bytes peeks through the debug master. -/
  | probeRead (h : Hub) (frame : BitVec 128)
  /-- PROBE_WRITE (R380): A probe write of 4 or 8 bytes writes through the debug master. -/
  | probeWrite (h : Hub) (frame : BitVec 128)
  /-- PROBE_STATUS (R377): A probe STATUS returns DBGCTL. -/
  | probeStatus (h : Hub) (frame : BitVec 128)
  /-- PROBE_CHALLENGE (R379): A probe CHALLENGE returns a word of the current challenge. -/
  | probeChallenge (h : Hub) (frame : BitVec 128)
  /-- AUTHLOAD (R379): A probe AUTHLOAD writes a word of the key and signature buffer. -/
  | authload (h : Hub) (frame : BitVec 128)
  /-- AUTHGO (R379): A probe AUTHGO verifies the signature and sets the probe path's level. -/
  | authgo (h : Hub) (frame : BitVec 128)
  /-- PROBE_REVOKE (R378): A probe REVOKE sets the probe path's level to NONE. -/
  | probeRevoke (h : Hub) (frame : BitVec 128)
  /-- SP_SEL_DEASSERT (R377): SP_SEL_N high between frames abandons an unanswered request. -/
  | spSelDeassert (h : Hub)
  /-- EXTEST (R376): JTAG EXTEST drives boundary scan at FULL, otherwise acts as BYPASS. -/
  | extest (h : Hub)
  /-- IDCODE (R9): JTAG IDCODE returns the part's 32-bit identity. -/
  | idcode (h : Hub)
  /-- SAMPLE_PRELOAD (R376): JTAG SAMPLE/PRELOAD samples the boundary scan. -/
  | samplePreload (h : Hub)
  /-- CLAMP (R376): JTAG CLAMP acts at FULL, otherwise as BYPASS. -/
  | clamp (h : Hub)
  /-- HIGHZ (R376): JTAG HIGHZ acts at FULL, otherwise as BYPASS. -/
  | highz (h : Hub)
  /-- BYPASS (R376): JTAG BYPASS selects the 1-bit register. -/
  | bypass (h : Hub)
  /-- DBGACC (R376): JTAG DBGACC Update-DR issues a request frame to the debug access unit. -/
  | dbgacc (h : Hub) (frame : BitVec 128)
  /-- HALT_REQUEST (R382): DCTL.HALT requests a halt of a core. -/
  | haltRequest (m : Master) (c : CoreId) (v : W32)
  /-- CORE_HALT (R382): A core halts at its next boundary or INTOK point. -/
  | coreHalt (c : CoreId)
  /-- HALT_FORCE (R383): A halt deferred by a locked sequence is forced after 512 CCLK. -/
  | haltForce (c : CoreId)
  /-- CORE_RESUME (R384): DCTL.RESUME continues a halted core. -/
  | coreResume (m : Master) (c : CoreId) (v : W32)
  /-- CORE_STEP (R384): DCTL.STEP executes one instruction or element and halts again. -/
  | coreStep (m : Master) (c : CoreId) (v : W32)
  /-- DRDATA_WRITE (R384): A DRDATA write sets a halted core's selected register. -/
  | drdataWrite (m : Master) (c : CoreId) (hi : Bool) (v : W32)
  /-- GANG_HALT (R386): DGCTL.HALT stops delivery to a gang and its members enter HALT. -/
  | gangHalt (m : Master) (h : Hub) (g : Sheet) (v : W32)
  /-- GANG_RESUME (R386): DGCTL.RESUME returns every member to its state before HALT. -/
  | gangResume (m : Master) (h : Hub) (g : Sheet) (v : W32)
  /-- STEPW (R386): DGCTL.STEPW delivers one word and returns the gang to HALT. -/
  | stepw (m : Master) (h : Hub) (g : Sheet) (v : W32)
  /-- DGINJ (R386): A write of DGINJ[95:64] in HALT executes the injected word. -/
  | dginj (m : Master) (h : Hub) (g : Sheet) (v : W32)
  /-- DBGCTL_ATTACH (R388): A write of ATTACH starts sleep emulation or switches emulated domains off in fact. -/
  | dbgctlAttach (m : Master) (h : Hub) (v : W32)
  /-- MARGIN_PORT_STORE (R391): A store to a margin port emits a stamped packet to the ring or the pins. -/
  | marginPortStore (c : CoreId) (h : Hub) (i : BitVec 8) (size64 : Bool) (data : W64)
  /-- TRACE_PIN_PACKET (R393): A packet from a pin FIFO is driven on TRACE_D over five TRACE_CLK cycles. -/
  | tracePinPacket (h : Hub)
  /-- FABRIC_LOAD_START (R346): FLOAD.START begins the checking pass of a fabric image. -/
  | fabricLoadStart (m : Master) (h : Hub) (v : W32)
  /-- FABRIC_LOAD_DONE (R347): The last frame is written and the named regions enter HELD. -/
  | fabricLoadDone (h : Hub)
  /-- REGION_RELEASE (R349): FREG.RELEASE in HELD requests a release at the next RELCLK edge. -/
  | regionRelease (m : Master) (h : Hub) (r : Fin 16) (v : W32)
  /-- RELEASE_EDGE (R349): At the RELCLK edge every element of the region leaves hold and the region runs. -/
  | releaseEdge (h : Hub) (r : Fin 16)
  /-- FREG_ISO (R348): A write of FREG.ISO fences or unfences a region. -/
  | fregIso (m : Master) (h : Hub) (r : Fin 16) (v : W32)
  /-- CONTENTION (R351): A long line's monitor disables its disagreeing drivers and records the contention. -/
  | contention (h : Hub) (r : Fin 16) (line : Fin 64)
  /-- FCONT_CLEAR (R351): Clearing FCONT.VALID re-enables the recorded line's drivers. -/
  | fcontClear (m : Master) (h : Hub) (v : W32)
  /-- FRAWGO (R350): FRAWGO writes FRAWBUF as a raw frame at once, unchecked. -/
  | frawgo (m : Master) (h : Hub) (v : W32)
  /-- FABRIC_TARGET_ACCESS (R342): A core access to a fabric-port window reaches user logic or is answered ISOLATED. -/
  | fabricTargetAccess (c : CoreId) (h : Hub) (fp : Fin 8) (write : Bool) (size8 : Bool) (off : BitVec 28) (data : W64) (rd : Reg)
  /-- FPORT_TIMEOUT (R342): A target access unanswered after TO PCLK cycles is answered ISOLATED. -/
  | fportTimeout (h : Hub) (fp : Fin 8)
  /-- FABRIC_MASTER_REQUEST (R343): A fabric-port master request is performed or refused with MERR. -/
  | fabricMasterRequest (h : Hub) (fp : Fin 8) (write : Bool) (addr : BitVec 48) (len : BitVec 8) (data : Bytes)
  /-- BLOCK_MEMORY_ACCESS (R339): A block-memory port operation, with collision outcomes and BUSY. -/
  | blockMemoryAccess (h : Hub) (n : BitVec 8) (a : BmOp) (b : BmOp) (win : BmWindow)
  /-- LCH_ENABLE (R98): Setting LCH.EN enables a line channel and zeroes LCHWR and LCHRD. -/
  | lchEnable (m : Master) (h : Hub) (ch : Fin 64) (v : W32)
  /-- LCHWR_WRITE (R98): A producer's LCHWR write makes runs available in an IN channel. -/
  | lchwrWrite (m : Master) (h : Hub) (ch : Fin 64) (v : W32)
  /-- LCHRD_WRITE (R98): A consumer's LCHRD write frees slots in an OUT channel. -/
  | lchrdWrite (m : Master) (h : Hub) (ch : Fin 64) (v : W32)
  /-- TESTER_STEP (R366): The background tester borrows, march-tests and restores one region. -/
  | testerStep (h : Hub) (addr : BitVec 48) (failed : Bool)
  /-- BORROW_RESTORE (R367): An access touching a borrowed region stalls while the tester restores it and abandons the step. -/
  | borrowRestore (h : Hub) (who : BitVec 8)
  /-- JOURNAL_ENABLE (R369): Setting JCTL.EN writes the records waiting on chip to the ring in order. -/
  | journalEnable (m : Master) (h : Hub) (v : W32)
  /-- PTP_REFERENCE_CYCLE (R41): On each cycle of the 156.25 MHz lane reference clock the PTP ruling adds PTPINC × 2^-24 ns and its rule marks are compared. -/
  | ptpReferenceCycle (h : Hub)
  /-- LANE_TRAINING_DONE (R325): An Ethernet lane or lane group, a PCIe link or the mirror link finishes training and reports up with its rate and width. -/
  | laneTrainingDone (h : Hub) (lane : Fin 16) (ok : Bool) (rate : BitVec 4) (width : BitVec 4)
  /-- LANE_LINK_DOWN (R314): An Ethernet lane loses its link, reports STATE 3 and writes EV_LANE_DOWN of kind 1. -/
  | laneLinkDown (h : Hub) (lane : Fin 16)
  /-- FABRIC_FIRST_PASS_DONE (R346): The checking pass of a fabric load ends, either refusing the image with a status and EV_CTRL_CHECK or starting the second pass that puts the named regions in LOADING. -/
  | fabricFirstPassDone (h : Hub)
  /-- FABRIC_TARGET_RESPONSE (R342): User logic answers an outstanding target access on a fabric port, completing the core's access or being discarded after a time-out. -/
  | fabricTargetResponse (h : Hub) (fp : Fin 8) (data : W64)
  /-- ILLEGAL_WORD (R223): A word of a defined major with an unassigned selector, a nonzero must-be-zero field or a reserved value raises ILLEGAL. -/
  | illegalWord (c : CoreId) (w : W32)
  /-- RESERVED_ARRAY_WORD (R86): An array word with a reserved class or a reserved operation code in its class reaches the sequencer and raises the array fault. -/
  | reservedArrayWord (g : Sheet)
  /-- MAILBOX_UNASSIGNED_OPCODE (R330): A mailbox command with an unassigned opcode returns ST_UNSUPPORTED. -/
  | mailboxUnassignedOpcode (h : Hub) (slot : Fin 8)
  /-- PROBE_RESERVED_OP (R377): A probe request frame with a reserved OP returns STATUS 0x5. -/
  | probeReservedOp (h : Hub) (frame : BitVec 128)
  /-- PFC_PAUSE_EXPIRY (R318): The pause time of a received PFC frame runs out and transmission of the paused priority resumes. -/
  | pfcPauseExpiry (h : Hub) (lane : Fin 16) (prio : Fin 8)
  /-- VCCIO_CHANGE (R340): A bank's VCCIO is applied or removed, making its outputs high-impedance and its inputs read 0 while it is absent. -/
  | vccioChange (h : Hub) (bank : Fin 4) (present : Bool)
  deriving DecidableEq, Repr

end Sys2Proof
end

