-- ==== Sys2Proof/Decode.lean ====
section
/-! DEFINITION. The command that a word of the opcode table spells. -/
namespace Sys2Proof

/-- The opcode table gives no row any bits: its rows are steps of the device, told by name and operands, and no word
spells one. -/
def decodeTableWord (_nbits _w : Nat) : Option Instr := none

end Sys2Proof
end

