-- ==== Sys2Proof/Machine/Crc.lean ====
section
/-! DEFINITION. The cyclic checks of the device: CRC-8 of R116, CRC-32C of R127, CRC-32 of the calibration page
and the CRC-16 of the Depol header flit (R251). -/
namespace Sys2Proof.Machine

/-- One bit through a left-shifting register of width `w`. -/
def crcBit (w poly c b : Nat) : Nat :=
  let t := (c / 2 ^ (w - 1)) ^^^ b
  let c' := 2 * c % 2 ^ w
  if t % 2 = 1 then c' ^^^ poly else c'

/-- One byte, highest bit first. -/
def crcByte (w poly c : Nat) (b : Byte) : Nat :=
  [7, 6, 5, 4, 3, 2, 1, 0].foldl (fun c i => crcBit w poly c (b.toNat / 2 ^ i % 2)) c

/-- One byte through a reflected register. -/
def crcReflByte (poly c : Nat) (b : Byte) : Nat :=
  [0, 1, 2, 3, 4, 5, 6, 7].foldl (fun c _ => if c % 2 = 1 then (c / 2) ^^^ poly else c / 2) (c ^^^ b.toNat)

/-- CRC-8 with x^8 + x^2 + x + 1 from 0 over bytes in the order given, highest bit first (R116). -/
def crc8 (bs : Bytes) : Byte := BitVec.ofNat 8 (bs.foldl (crcByte 8 0x07) 0)

/-- CRC-16 with x^16 + x^12 + x^5 + 1 from 0xFFFF (R251). -/
def crc16 (bs : Bytes) : BitVec 16 := BitVec.ofNat 16 (bs.foldl (crcByte 16 0x1021) 0xFFFF)

/-- CRC-32C, reflected, initial value and final XOR 0xFFFF_FFFF (R127). -/
def crc32c (bs : Bytes) : W32 :=
  BitVec.ofNat 32 (bs.foldl (crcReflByte 0x82F63B78) 0xFFFFFFFF ^^^ 0xFFFFFFFF)

/-- CRC-32 of the calibration page (R404), polynomial 0x04C1_1DB7 reflected. -/
def crc32 (bs : Bytes) : W32 :=
  BitVec.ofNat 32 (bs.foldl (crcReflByte 0xEDB88320) 0xFFFFFFFF ^^^ 0xFFFFFFFF)

/-- `n` bytes of a number, lowest first (R14). -/
def natLe : Nat → Nat → Bytes
  | 0, _ => []
  | n + 1, v => BitVec.ofNat 8 v :: natLe n (v / 256)

/-- The number of bytes taken lowest first. -/
def leNat : Bytes → Nat
  | [] => 0
  | b :: bs => b.toNat + 256 * leNat bs

/-- The number of bytes taken highest first (R426). -/
def beNat (bs : Bytes) : Nat := bs.foldl (fun a b => 256 * a + b.toNat) 0
/-- `n` bytes of a number, highest first. -/
def natBe (n v : Nat) : Bytes := (natLe n v).reverse

/-- The tag check of R116: CRC-8 over the tag from bit 63 down. -/
def tagCheck (tag : W64) : Byte := crc8 (natBe 8 tag.toNat)

/-- Byte `i` of a byte string, 0 beyond its end. -/
def byteAt (bs : Bytes) (i : Nat) : Byte := bs.getD i 0
/-- `n` bytes from `i` as a little-endian number. -/
def leAt (bs : Bytes) (i n : Nat) : Nat := leNat ((bs.drop i).take n)
/-- Bytes `i` to `i + n - 1`, zeros beyond the end. -/
def sub (bs : Bytes) (i n : Nat) : Bytes := (List.range n).map (fun j => byteAt bs (i + j))
/-- Replace bytes from `i` on. -/
def putAt (bs : Bytes) (i : Nat) (v : Bytes) : Bytes := bs.take i ++ v ++ bs.drop (i + v.length)
/-- Zeros. -/
def zeros (n : Nat) : Bytes := List.replicate n 0

end Sys2Proof.Machine
end

