-- ==== Sys2Proof/Config.lean ====
section
/-! DEFINITION. What the spec leaves open. Every constant here is opaque: nothing can be proved of its value, so
a statement about it holds for every value. The argument of each `free` function counts the values drawn so far
(State.fresh), so that each drawing is a value of its own. -/
namespace Sys2Proof.Config

/-- A value that the spec leaves undefined, of any width. -/
opaque freeBits : (w : Nat) → Nat → BitVec w
/-- A decision the spec leaves open. -/
opaque freeBool : Nat → Bool
/-- A number the spec leaves open, to be bounded by the one who draws it. -/
opaque freeNat : Nat → Nat
/-- What the random generator of R289, R379 gives: keys, nonces and challenges. -/
opaque random : Nat → BitVec 256
/-- A byte of the boot ROM (R399): the spec gives no listing of it. -/
opaque bootRomByte : Nat → Byte
/-- A control-store ROM microword (R226): the spec gives no listing of the ROM. -/
opaque romWord : BitVec 14 → BitVec 128

end Sys2Proof.Config
end

