-- ==== Sys2Proof/Machine/State.lean ====
section
/-! DEFINITION. The state of the block as plain data. Every collection indexed by number is a list of
(index, value) pairs in the canonical form that Machine/Table.lean defines: indices strictly rising and no
entry equal to what an unlisted index reads as, so that equal contents are equal data. An index joins the
hub to the number inside it: core 32h + c, ruling 2048h + r, mark 16384h + handle, context 4096h + c,
bank 16h + b, partition 8h + p, channel 4h + k, register 2^26 h + offset. -/
namespace Sys2Proof.Machine

/-- A sparse table: index and value. -/
abbrev Tab (α : Type) := List (Nat × α)

/-- A token in motion or queued (R115), with what the arrival stage needs of its origin (R119). -/
structure Tok where
  tag   : W64
  value : W64
  chk   : Byte
  /-- destination hub -/
  dst   : Hub
  src   : TokSrc
  /-- partition for which the origin acts (R119) -/
  part  : Nat
  deriving DecidableEq, Repr

/-- A ready or running codelet instance (R129, R142, R150). `frame` names its saved frame (R152). -/
structure Inst where
  /-- hub of its context -/
  hub    : Hub
  /-- tag[63:8] -/
  key    : BitVec 56
  cls    : Nat
  arity  : Nat
  vals   : List W64
  entry  : BitVec 48
  part   : Nat
  noaff  : Bool
  nopre  : Bool
  frame  : Option Nat
  /-- hub whose common memory holds that frame -/
  fhub   : Nat := 0
  bank   : Nat
  /-- the write of its frame failed, so that the restore fails (R429) -/
  lost   : Bool := false
  deriving DecidableEq, Repr

/-! ## Scribe cores -/

/-- A floating-point instruction in flight (R200): its word's operation with the operands read at issue. -/
structure FpOp where
  /-- major opcode 0x10 to 0x12 -/
  major : Nat
  func  : BitVec 11
  rd    : Reg
  ra    : Reg
  a     : W64
  b     : W64
  c     : W64
  /-- address of the instruction, for TRAPV of an FPE (R206) -/
  pc    : BitVec 48
  deriving DecidableEq, Repr

/-- How a load from a fabric port finishes (R182, R211, R342): a 4-byte load that sign-extends, a floating
destination, the register, the base register's new value. -/
structure PortFin where
  sx    : Bool
  fdst  : Bool
  rd    : Reg
  upd   : Option (Reg × W64)
  deriving DecidableEq, Repr

/-- A micro-routine in progress (R228, R229): working state that no program sees. -/
structure Micro where
  /-- the instruction word, IR -/
  word  : W32
  /-- microaddress of the next microword -/
  upc   : Nat
  /-- latches: 0 to 7 T0 to T7, 8 MAR, 9 MDR, 10 product low or quotient, 11 product high or remainder, 12 decimal
  unit, 13 FPU transfer, 14 token answer, 15 array answer -/
  lat   : Tab W64
  /-- V of the multiply-divide unit; DC, bad digit and zero of the decimal unit -/
  mv    : Bool
  dc    : Bool
  bd    : Bool
  dz    : Bool
  /-- return addresses, newest first -/
  stack : List Nat
  newPc : Option (BitVec 48)
  deriving DecidableEq, Repr

/-- Service and run state of a core, DCORE.RSTATE (06) and DSTAT (16). -/
inductive RState where
  | idle | running | resuming | saving | out
  deriving DecidableEq, Repr

/-- One scribe core (R166, R215, R218, R226, R234, R382). -/
structure Core where
  g       : Tab W64
  f       : Tab W64
  pc      : BitVec 48
  pstat   : W32
  cnt     : W64
  fpcr    : W32
  fpsr    : W32
  ctx     : W64
  tag     : W64
  epc     : W64
  trapc   : W64
  trapv   : W64
  lladdr  : W64
  /-- (EPC, TRAPC, TRAPV) of the level-0 trap while a nested trap runs (R215) -/
  shadow  : Option (W64 × W64 × W64)
  fpu     : Option FpOp
  /-- address of the instruction whose FPE is pending (R206) -/
  fpePc   : BitVec 48
  watch   : Bool
  array   : Option W64
  memerr  : Option W64
  preempt : Bool
  sleep   : Bool
  rstate  : RState
  running : Option Inst
  /-- tokens sent by the running instance (R163 COMPLETE) -/
  sent    : Nat
  /-- code runs without an instance: firmware after hand-off, or a handler taken while idle (R151) -/
  bare    : Bool
  halted  : Bool
  haltCause : Nat
  forced  : Bool
  /-- a debugger has asked for a step that has not run (R384) -/
  stepReq : Bool
  drain   : Bool
  /-- a read of a fabric port is outstanding; the answers that the instruction at hand has had (R342) -/
  portWait : Bool
  ports   : List (Nat × Option W64)
  /-- the micro-routine that has not reached its end -/
  micro : Option Micro
  /-- DECODE_MODE in force (R235), and the mode and PMATCH entries held for hand-off (R238) -/
  mode    : Bool
  held    : Option (Tab W32)
  wcs     : Tab (BitVec 136)
  dtab    : Tab W64
  pmatch  : Tab W32
  plen    : Nat
  clen    : Nat
  corg    : Nat
  patchVer : BitVec 16
  tabVer   : BitVec 16
  pkey     : BitVec 4
  tkey     : BitVec 4
  deriving DecidableEq, Repr

/-- A core after either reset: idle, every register at its reset value; the G and F registers, which the spec
leaves X (R167), read 0 and PC, likewise X, is the boot ROM's first address (assumption 3). -/
def Core.reset : Core :=
  { g := [], f := [], pc := 0x048000000000, pstat := 0, cnt := 0, fpcr := 0, fpsr := 0, ctx := 0, tag := 0,
    epc := 0, trapc := 0, trapv := 0, lladdr := 0, shadow := none, fpu := none, fpePc := 0, watch := false,
    array := none, memerr := none, preempt := false, sleep := false, rstate := .idle,
    running := none, sent := 0, bare := false, halted := false, haltCause := 0, forced := false, stepReq := false,
    drain := false, portWait := false, ports := [], micro := none,
    mode := false, held := none, wcs := [], dtab := [], pmatch := [], plen := 0, clen := 0,
    corg := 0, patchVer := 0, tabVer := 0, pkey := 0xF, tkey := 0xF }

/-- A microcode load in progress (R237). -/
structure McLoad where
  image : BitVec 48
  cores : W32
  /-- the mailbox slot that waits for the answer, when MCLOAD started it (R331) -/
  slot  : Option Nat
  deriving DecidableEq, Repr

structure CoreSys where
  cores  : Tab Core
  mcLoad : Tab (Option McLoad)
  deriving DecidableEq, Repr

/-! ## Rulings -/

/-- A rule mark (R45). -/
structure Mark where
  rid  : Nat
  pos  : W64
  tag  : W64
  part : Nat
  /-- handle of the other half of a cross mark -/
  mate : Option Nat
  primary : Bool
  deriving DecidableEq, Repr

/-- An advance presented to the ruling unit (R40): by the classifier with the packet's timestamp, line and
marker, by the fabric, or by RADV. -/
inductive Advance where
  | packet (rid : Nat) (ts : W32) (line : Option Nat) (marker : Bool)
  | lineEvent (rid : Nat)
  | frameEvent (rid : Nat)
  | derived (rid : Nat) (pos : W64)
  deriving DecidableEq, Repr

structure RulingSys where
  /-- position word of each ruling (R33) -/
  pos    : Tab W64
  /-- RPOS latch of each ruling (R44) -/
  latch  : Tab W64
  /-- current-frame RTP timestamp of a stream ruling (R36) -/
  rtp    : Tab (Option W32)
  /-- PTP position below one nanosecond, units of 2^-24 ns, per hub (R41) -/
  frac   : Tab Nat
  /-- PTP count still to overtake in a backward step, units of 2^-24 ns, per hub (R41) -/
  hold   : Tab Nat
  /-- levels of PPS, PULSE[0..7] and TICK: index 16h + k (R42) -/
  level  : Tab Bool
  /-- debounce in progress: TICK edges still to come (R42) -/
  deb    : Tab (Option Nat)
  marks  : Tab (Option Mark)
  /-- fired marks' tokens that have not left the ruling unit, in firing order (R48) -/
  fired  : List Tok
  /-- advances presented and not yet accepted, per hub (R40) -/
  advq   : Tab (List Advance)
  /-- loss-monitor window start: positions of RRID and WRID; index 64h + m (R50) -/
  lmStart : Tab (W64 × W64)
  /-- advances of windows that have run their span and wait for their close, oldest first (R50) -/
  lmDue  : Tab (List Nat)
  /-- token held by a monitor (R50) -/
  lmTok  : Tab (Option W64)
  /-- advance of a watchdog's ruling not yet making a whole unit, in ns; index 33h + w (R52) -/
  wdFrac : Tab Nat
  /-- watchdog expired once without a kick since (R52) -/
  wdOnce : Tab Bool
  /-- an expiry is due, with the units that arrived beyond it (R52) -/
  wdDue  : Tab (Option Nat)
  deriving DecidableEq, Repr

/-! ## The array -/

/-- The states of a sheet (R80). -/
inductive ShState where
  | off | clear | idle | run | halt | fault | evac | test | retired
  deriving DecidableEq, Repr

/-- A run queued at a line port (R96, R97). -/
structure Run where
  row  : Nat
  base : Nat
  w    : Nat
  len  : Nat
  chan : Nat
  /-- core whose LINE word commanded it, as 32h + c -/
  core : Nat
  deriving DecidableEq, Repr

/-- A word in an issue queue, with the core and partition that issued it (R107, R108). -/
structure QWord where
  w    : AWord
  core : Nat
  part : Nat
  deriving DecidableEq, Repr

/-- A gang change accepted by AGANG, or an evacuation, that waits (R69, R110, R357). -/
inductive GChange where
  | form (gw gh : Nat) (members : List Nat)
  | dissolve (gid : Nat)
  | evac (sheet : Nat) (replacement : Option Nat)
  deriving DecidableEq, Repr

/-- An entry of an issue queue: a word, or the mark of a gang change in order (R110). -/
inductive QItem where
  | word (q : QWord)
  | change (id : Nat)
  deriving DecidableEq, Repr

structure SheetSt where
  state  : ShState
  /-- state before HALT (R81) -/
  before : ShState
  x      : Plane
  y      : Plane
  c      : Plane
  m      : Plane
  t      : Plane
  stack  : List Plane
  inQ    : List Run
  outQ   : List Run
  gid    : Nat
  gw     : Nat
  gh     : Nat
  gx     : Nat
  gy     : Nat
  /-- runs completed, in and out (SHLPIN, SHLPOUT) -/
  inRuns  : BitVec 16
  outRuns : BitVec 16
  deriving DecidableEq, Repr

/-- A loop being executed: first position in the body buffer, length, passes left (R104). -/
structure LoopSt where
  start : Nat
  len   : Nat
  left  : Nat
  deriving DecidableEq, Repr

/-- A blot in flight, and the tokens that wait for its finder result (R70, R99). -/
structure BlotSt where
  val    : Bool
  finder : W32
  core   : Nat
  toks   : List Tok
  deriving DecidableEq, Repr

structure GangSt where
  queue  : List QItem
  claim  : Option Nat
  /-- words of the outermost loop body recorded so far, and the position of the next one (R104) -/
  body   : List QWord
  lpos   : Nat
  loops  : List LoopSt
  /-- words to pass over without execution (SKIPB, BREAKB), as they arrive -/
  skip   : Nat
  blots  : List BlotSt
  blot   : Bool
  finder : W32
  /-- blot and completion tokens ready to leave (R100) -/
  btoks  : List Tok
  ctoks  : List Tok
  flt0   : W32
  flt1   : W32
  halted : Bool
  /-- halt requested and not all members halted -/
  haltReq : Bool
  /-- STEPW: one word to deliver before the gang halts again (R386) -/
  step   : Bool
  deriving DecidableEq, Repr

structure ArraySys where
  planes  : Tab Plane
  /-- wrong symbols of a row slice's codeword: index (4096 * sheet + plane) * 128 + row (R60) -/
  bad     : Tab (BitVec 20)
  sheets  : Tab SheetSt
  gangs   : Tab GangSt
  changes : Tab (Option GChange)
  nextChange : Nat
  /-- hub that homes each array die now (R364) -/
  home    : Tab Nat
  deriving DecidableEq, Repr

/-! ## Tokens, matching and dispatch -/

/-- States of a context (R123). -/
inductive CtxState where
  | free | live | purge
  deriving DecidableEq, Repr

structure Ctx where
  state : CtxState
  part  : Nat
  late  : W32
  /-- order of becoming FREE (R124); 0 for a context never freed since reset -/
  freed : Nat
  deriving DecidableEq, Repr

/-- Where a waiting entry stands (R131). -/
inductive Place where
  | way | reserve | page
  deriving DecidableEq, Repr

/-- A waiting entry of a matching store, listed oldest first (R126). -/
structure Entry where
  hub   : Hub
  bank  : Nat
  set   : Nat
  key   : BitVec 56
  arity : Nat
  /-- presence and values of ports 0 to 3 -/
  vals  : List (Option W64)
  cls   : Nat
  part  : Nat
  place : Place
  /-- CRC-8 kept with a spilled record (R134) -/
  chk   : Byte
  deriving DecidableEq, Repr

/-- A CANCEL on its way to its destination engine (R154). -/
structure Cancel where
  dst  : Hub
  src  : Nat
  /-- context, or whole key -/
  ctx  : BitVec 12
  key  : Option (BitVec 56)
  /-- the sweep of CTXFREE, which ends in FREE -/
  purge : Bool
  deriving DecidableEq, Repr

structure TokenSys where
  /-- tokens on the token path, oldest first -/
  transit : List Tok
  aq      : Tab (List Tok)
  spill   : Tab (List Tok)
  entries : List Entry
  /-- lookups that wait for main memory, oldest first; index 16h + b (R132) -/
  blook   : Tab (List Tok)
  ctxs    : Tab Ctx
  freeSeq : Nat
  /-- descriptor cache: affinity record, core as 32h + c; oldest first; index 2^20 h + codelet (R121, R145) -/
  affin   : List (Nat × Nat)
  /-- drain marker under way, and whether p has stayed quiet; index 8h + p (R137) -/
  marker  : Tab (Option Bool)
  cancels : List Cancel
  /-- sweeps held, in order: hub, context, and whether it purges (R156) -/
  sweeps  : List (Hub × BitVec 12 × Bool)
  throttled : Tab Bool
  deriving DecidableEq, Repr

/-- A ready list: on-chip entries in joining order and the four spill FIFOs (R146). -/
structure Ready where
  on : List Inst
  s0 : List Inst
  s1 : List Inst
  s2 : List Inst
  s3 : List Inst
  deriving DecidableEq, Repr

/-- A ligature entry (R159): pending, filled with a token or filled with nothing. -/
structure Lig where
  hub   : Hub
  flow  : Nat
  seq   : W32
  /-- handle [12:0] of the context that owns the entry -/
  owner : BitVec 13
  part  : Nat
  fill  : Option (Option Tok)
  onchip : Bool
  deriving DecidableEq, Repr

structure FlowSt where
  alloc : W32
  rel   : W32
  deriving DecidableEq, Repr

structure DispatchSys where
  /-- instances at the dispatch unit, oldest first, per hub (R149) -/
  inbox   : Tab (List Inst)
  ready   : Tab Ready
  backlog : Tab (List Inst)
  /-- frame in use: index (8h + p) * 1024 + i (R152) -/
  frames  : Tab Bool
  flows   : Tab FlowSt
  ligs    : List Lig
  /-- flow served last, per hub (R160) -/
  rr      : Tab Nat
  /-- records dropped since the last trace record, per hub (R163) -/
  trLost  : Tab Bool
  deriving DecidableEq, Repr

/-! ## Networks and power domains -/

/-- How far a domain is through power-off or wake (R258, R259; NTILE.STATE codes). -/
inductive DomState where
  | on | fencing | acked | off | waking | isolated | tileOff
  deriving DecidableEq, Repr

/-- Per-link state of a Depol link (R252, R255). -/
structure Depol where
  /-- SEQ of the last header flit that failed, and its consecutive failures -/
  lastSeq : BitVec 6
  fails   : Nat
  /-- SEQ from which the sender replays -/
  replay  : Option (BitVec 6)
  /-- errors of each wire in its last 64 pilots, newest in bit 0 -/
  errs    : Tab W64
  /-- wire to move and the SEQ at which it moves -/
  repair  : Option (Nat × BitVec 6)
  /-- wires that have failed, in order -/
  failed  : List Nat
  deriving DecidableEq, Repr

structure NetSys where
  /-- consecutive header failures of a mesh link: index ((h * 36 + r) * 8 + mesh) * 5 + d (R244) -/
  fails   : Tab Nat
  /-- packets held at the boundary of a domain, oldest first; index as `Ops.domIx` (R259) -/
  held    : Tab (List (BitVec 96))
  dom     : Tab DomState
  /-- domain reported off while its power stays on under a debugger (R388) -/
  emul    : Tab Bool
  depol   : Tab Depol
  deriving DecidableEq, Repr

/-! ## Memories -/

structure MemSys where
  cells   : List Host.Cell
  /-- wrong symbols of a 16-byte codeword, by codeword address (R267) -/
  bad     : Tab (BitVec 20)
  /-- bytes of main memory under a dirty L1 line: owner core and the byte main memory still holds (R273) -/
  dirty   : Tab (Option (Nat × Byte))
  /-- L1 data line with a parity error: index core * 2^48 + line address (R273) -/
  parity  : Tab Bool
  deriving DecidableEq, Repr

/-! ## Evidence -/

/-- States of a chain (R287). -/
inductive ChState where
  | free | opened | closing
  deriving DecidableEq, Repr

/-- A seal chain (R278, R283, R287). -/
structure Chain where
  state  : ChState
  h      : BitVec 256
  /-- records committed: n of the last is `cnt - 1` -/
  cnt    : Nat
  /-- records given an index, committed or reserved -/
  next   : Nat
  ring   : Nat
  src1   : Bool
  rid    : Nat
  part   : Nat
  rate   : Nat
  sealb  : Nat
  sealr  : Nat
  sealrid : Nat
  ns     : Nat
  sealPos : W64
  bandmax : Nat
  /-- admitted bytes discarded unsealed, for the EOR (R280) -/
  lost   : Nat
  seq    : W64
  /-- open SRC 1 band (R288) -/
  band   : Bytes
  /-- packets discarded at a full reservoir since GBROKEN END = 0, and where the break began (R302) -/
  broken : Option (Nat × W64)
  /-- half of the classifier that feeds its bands (R324) -/
  half   : Nat
  deriving DecidableEq, Repr

/-- What a ring request asks the chop unit to write. -/
inductive ReqKind where
  | opened | band | eor | gap | gbroken | manifest | seal
  deriving DecidableEq, Repr

/-- A request in a ring's queue (R296), or a record that holds a reservation (R282). -/
structure Req where
  kind  : ReqKind
  chain : Nat
  body  : Bytes
  pos   : W64
  aux   : W64
  foreign : Bool
  /-- ADV: line channel, slots and bytes used from each (R284) -/
  adv   : Option (Nat × Nat × Nat)
  /-- source address when ADV = 0 -/
  srcAddr : BitVec 48
  len   : Nat
  tok   : Option Tok
  /-- index in the chain and ring SEQ, once reserved -/
  n     : Nat
  seq   : W64
  badsrc : Bool
  deriving DecidableEq, Repr

/-- A seal that waits for the signer (R283). -/
structure SealReq where
  hub   : Hub
  chain : Nat
  n     : Nat
  h     : BitVec 256
  tok   : List Tok
  final : Bool
  deriving DecidableEq, Repr

/-- A segment in flight (R292, R294). -/
structure Segment where
  ring   : Nat
  target : Nat
  start  : W64
  stop   : W64
  retried : Bool
  done   : Bool
  deriving DecidableEq, Repr

/-- The seal key in the signers (R289). -/
structure SealKey where
  keyid : BitVec 16
  d     : BitVec 256
  x     : BitVec 256
  y     : BitVec 256
  deriving DecidableEq, Repr

/-- Progress of a hub's final stroke (R304). -/
inductive Stroke where
  | none | running | finished
  deriving DecidableEq, Repr

/-- A committed record of a ring: its SEQ, stored bytes and chain, 0xFFFF for none. -/
structure RingRec where
  seq   : Nat
  size  : Nat
  chain : Nat
  deriving DecidableEq, Repr

/-- A mirror frame sent and not acknowledged: its number, its bytes, and the ring bytes it brings to the peer. -/
structure MirFrame where
  num  : W32
  data : Bytes
  ring : Nat
  stop : W64
  deriving DecidableEq, Repr

/-- The mirror of hub h and what it holds of its peer (R310 to R312). -/
structure MirrorSt where
  /-- mirrored DSEQ values of the peer, index 4h + r; next frame number expected; failures (R311) -/
  peerDseq : Tab W64
  /-- end of the peer's mirrored ring bytes, index 4h + r (R312) -/
  peerEnd  : Tab W64
  mirSeq  : Tab W32
  mirFail : Tab Nat
  /-- adopted ink in bytes still to dry (R312) -/
  adopted : Tab Nat
  /-- next frame number on the mirror link, and the frames not acknowledged (R311) -/
  mirTx   : Tab W32
  mirOut  : Tab (List MirFrame)
  deriving DecidableEq, Repr

structure EvidSys where
  chains  : Tab Chain
  queue   : Tab (List Req)
  reserved : Tab (List Req)
  signer  : List SealReq
  segs    : Tab (List Segment)
  key     : Option SealKey
  stroke  : Tab Stroke
  /-- 1 PFAIL_N, 2 device watchdog, 3 command -/
  cause   : Nat
  /-- namespaces written since the stroke began, per hub: target numbers -/
  flush   : Tab (List Nat)
  /-- position of DRYRID at a ring's last issue; index 4h + r (R292) -/
  lastIssue : Tab W64
  /-- bytes diverted by borrowing and where it began; `some` while borrowing (R302) -/
  borrow  : Tab (Option (Nat × W64))
  /-- first record after a RECOVER hand-off is due in the ring (R309): anchored lost range -/
  recover : Tab (Option (W64 × W64))
  /-- bytes that a recovery drying lost, per hub; `none` where none ran (R403) -/
  lostBytes : Tab (Option Nat)
  mir     : MirrorSt
  /-- VAUX anchor registers: ANCSTATE, ANCDIR, ANCWSEQ and ANCDSEQ of each ring (R308) -/
  ancState : Tab Nat
  ancDir  : Tab W64
  ancW    : Tab W64
  ancD    : Tab W64
  /-- committed records not yet dried, oldest first; index 4h + r -/
  recs    : Tab (List RingRec)
  /-- submission-queue tail of each target, index 8h + t (R293) -/
  sqTail  : Tab Nat
  deriving DecidableEq, Repr

/-! ## Lanes, classifier, PCIe and mailbox -/

/-- Pixel assembly of a stream's present line (R323). -/
structure Asm where
  ts   : W32
  line : Nat
  /-- next run to emit -/
  run  : Nat
  /-- words by pixel number; those not listed have not arrived -/
  px   : Tab (Option W32)
  deriving DecidableEq, Repr

/-- A command of the mailbox that has been rung: slot and partition for which it acts (R327, R331). -/
structure Bell where
  slot : Nat
  part : Nat
  host : Bool
  deriving DecidableEq, Repr

structure LaneSys where
  /-- classes paused by received PFC: bits of index 16h + n (R318) -/
  paused : Tab Byte
  xoff   : Tab Bool
  /-- stream entries loaded, 64 bytes each: index 2048h + 1024 * half + i (R319) -/
  streams : Tab (Option Bytes)
  asm    : Tab (Option Asm)
  bells  : Tab (List Bell)
  /-- MSI-X messages sent, per hub -/
  msix   : Tab Nat
  /-- frames sent on a lane, newest first -/
  sent   : List (Nat × Bytes)
  /-- PFC frames sent, newest first: lane index and the pause time -/
  pfcOut : List (Nat × Nat)
  deriving DecidableEq, Repr

/-! ## Fabric -/

/-- A target access that waits for user logic (R342). -/
structure TAcc where
  core  : CoreId
  write : Bool
  size8 : Bool
  off   : BitVec 28
  data  : W64
  /-- how a simple load finishes when its data comes; `none` for a read that its instruction takes up itself -/
  fin   : Option PortFin
  deriving DecidableEq, Repr

structure FabricSys where
  /-- configuration frames written: index 2^32 h + frame address, 128 bytes (R344) -/
  frames : Tab Bytes
  /-- block memories: bits as one vector of 36,864; index 256h + m (R338) -/
  bm     : Tab (BitVec 36864)
  /-- port outputs and BUSY of the last access: A, B, BUSY_A, BUSY_B -/
  bmOut  : Tab (BitVec 72 × BitVec 72 × Bool × Bool)
  /-- lines whose drivers the monitor disabled: index 1024h + 64r + line (R351) -/
  lineOff : Tab Bool
  /-- level held by a line's keeper (R335) -/
  keeper : Tab Bool
  targets : Tab (List TAcc)
  /-- responses to master requests, newest first: port index, error, data -/
  mresp  : List (Nat × Bool × Bytes)
  fullLoaded : Tab Bool
  loadImg : Tab (Option (BitVec 48 × Option Nat))
  /-- the second pass has begun, with the mask of the regions it found FENCED -/
  pass2  : Tab (Option Nat)
  relReq : Tab Bool
  /-- a bank's VCCIO is present: index 4h + bank -/
  vccio  : Tab Bool
  deriving DecidableEq, Repr

/-! ## Service, journal, debug, boot and power -/

/-- An SVC operation in progress (R355). -/
structure Svc where
  op    : Nat
  hub   : Nat
  index : Nat
  tok   : Option W64
  /-- hub whose mailbox took the command -/
  box   : Hub
  deriving DecidableEq, Repr

/-- The shadow buffer of the background tester: the region it borrowed last, with its copy (R366). -/
structure Borrow where
  unit : Nat
  addr : BitVec 48
  copy : Bytes
  deriving DecidableEq, Repr

structure ServiceSys where
  /-- journal records waiting on chip, oldest first, 31 detail bytes without JWR and CRC (R369) -/
  jbuf   : Tab (List Bytes)
  jlost  : Tab Bool
  svcs   : List Svc
  borrow : Tab (Option Borrow)
  /-- the hub isolated by a takeover -/
  taken  : Option Hub
  /-- takeover with FORCE under way, per hub -/
  tkForce : Tab Bool
  deriving DecidableEq, Repr

structure DebugSys where
  /-- current challenge of each path: index 2h + path -/
  chal   : Tab (Option (BitVec 256))
  /-- key and signature buffer, 16 words of 64 bits: index (2h + path) * 16 + i (R379) -/
  buf    : Tab W64
  fails  : Tab Nat
  /-- JTAG instruction in force per TAP -/
  ir     : Tab Byte
  /-- last response frame of the probe path, and whether it waits to be read (R377) -/
  presp  : Tab (Option (BitVec 80))
  /-- patch RAM: index 2048h + byte (R389); X after POR (assumption 4) -/
  patch  : Tab Byte
  marginQ : Tab (List (BitVec 128))
  traceQ : Tab (List (BitVec 128))
  marginLost : Tab Bool
  /-- the pins sent a margin packet last (R393) -/
  lastMargin : Tab Bool
  /-- packets driven on the trace pins, newest first: hub and the ten half-words -/
  pinOut : List (Nat × BitVec 160)
  /-- the word in DGINJ of a gang waits to execute (R386) -/
  stepping : Tab Bool
  deriving DecidableEq, Repr

/-- Where the boot ROM of a hub stands (R401). -/
inductive BootSt where
  | off
  | running (stage : Nat)
  | waitKeep
  | waitTrain
  | waitImage
  | waitDry
  | failed
  | done
  deriving DecidableEq, Repr

structure BootSys where
  st     : Tab BootSt
  keep   : Tab Bool
  /-- populated capacity of a channel in GiB, fixed by the board, 32 unless listed: index 4h + k (R264) -/
  dimm   : Tab Nat
  /-- fuses: key-hash slots 0 to 4 (0 root, 1-3 customer, 4 debug), `none` unprogrammed (R404) -/
  fuse   : Tab (Option (BitVec 256))
  /-- slots programmed since POR_N, which take effect at the next one -/
  fuseNew : Tab (Option (BitVec 256))
  /-- slot and hash being programmed, per hub (R404) -/
  fusing : Tab (Option (Nat × BitVec 256))
  serial : W64
  wrapKey : BitVec 256
  /-- factory column repair of each sheet (R401 step 2) -/
  colrep : Tab W32
  /-- MCAUTO of the firmware image in force, per hub (R400) -/
  mcauto : Tab Bool
  /-- the calibration page in force, as bytes; empty for the defaults (R404) -/
  cal    : Bytes
  deriving DecidableEq, Repr

/-- Power states of the device (R261), with the two resets that may be asserted. -/
inductive Power where
  | on | stroke | aux | off
  deriving DecidableEq, Repr

structure PowerSys where
  power  : Power
  porn   : Bool
  warmn  : Bool
  /-- WARM_N asserted during a stroke, to take effect after its step 7 (R306) -/
  warmDue : Bool
  /-- that postponed WARM_N has been released again -/
  warmRel : Bool
  pfail  : Bool
  dryOk  : Bool
  pcap   : Tab Bool
  thermTrip : Tab Bool
  refStop : Tab Bool
  deriving DecidableEq, Repr

/-- The last answer given to a requester outside the cores. -/
structure Resp where
  status : Nat
  data   : BitVec 2048
  deriving DecidableEq, Repr

/-- The state of the block. -/
structure State where
  part  : PartNo
  /-- registers of both hubs by 2^26 h + offset; an unlisted one reads its POR_N value (Machine/RegMap.lean) -/
  csr   : Tab W32
  cpu   : CoreSys
  rul   : RulingSys
  arr   : ArraySys
  tok   : TokenSys
  dsp   : DispatchSys
  net   : NetSys
  mem   : MemSys
  evi   : EvidSys
  lan   : LaneSys
  fab   : FabricSys
  svc   : ServiceSys
  dbg   : DebugSys
  boot  : BootSys
  pwr   : PowerSys
  resp  : Resp
  /-- the model's own: how many free values have been drawn (Config) -/
  fresh : Nat
  pending : List Instr
  deriving DecidableEq, Repr

/-- Why a step may stop the machine. No meaning of this model raises a fault: the spec gives every command an
effect, and answers what it turns away by a status, a response or by leaving the state alone. -/
inductive Fault where
  /-- Raised by nothing. Safe. -/
  | stopped
  deriving DecidableEq, Repr

/-- Why a command has no meaning here. -/
inductive Refusal where
  /-- Raised by exec alone, for a command whose meaning has not been written. Safe. -/
  | notModelled (mnemonic : String)
  deriving DecidableEq, Repr

/-- The block right after POR_N has taken effect and before its release: every register at the POR_N value of its
table, every queue and table empty, PORN low. The part is the YQ8680, which defines the architecture (R2). -/
def State.reset : State :=
  { part := .yq8680
    csr := []
    cpu := { cores := [], mcLoad := [] }
    rul := { pos := [], latch := [], rtp := [], frac := [], hold := [], level := [], deb := [], marks := [],
             fired := [], advq := [], lmStart := [], lmDue := [], lmTok := [], wdFrac := [], wdOnce := [],
             wdDue := [] }
    arr := { planes := [], bad := [], sheets := [], gangs := [], changes := [], nextChange := 0, home := [] }
    tok := { transit := [], aq := [], spill := [], entries := [], blook := [], ctxs := [], freeSeq := 0,
             affin := [], marker := [], cancels := [], sweeps := [], throttled := [] }
    dsp := { inbox := [], ready := [], backlog := [], frames := [], flows := [], ligs := [], rr := [],
             trLost := [] }
    net := { fails := [], held := [], dom := [], emul := [], depol := [] }
    mem := { cells := [], bad := [], dirty := [], parity := [] }
    evi := { chains := [], queue := [], reserved := [], signer := [], segs := [], key := none, stroke := [],
             cause := 0, flush := [], lastIssue := [], borrow := [], recover := [], lostBytes := [],
             mir := { peerDseq := [], peerEnd := [], mirSeq := [], mirFail := [], adopted := [], mirTx := [],
                      mirOut := [] },
             ancState := [], ancDir := [], ancW := [], ancD := [], recs := [], sqTail := [] }
    lan := { paused := [], xoff := [], streams := [], asm := [], bells := [], msix := [], sent := [],
             pfcOut := [] }
    fab := { frames := [], bm := [], bmOut := [], lineOff := [], keeper := [], targets := [],
             mresp := [], fullLoaded := [], loadImg := [], pass2 := [], relReq := [], vccio := [] }
    svc := { jbuf := [], jlost := [], svcs := [], borrow := [], taken := none, tkForce := [] }
    dbg := { chal := [], buf := [], fails := [], ir := [], presp := [], patch := [], marginQ := [],
             traceQ := [], marginLost := [], lastMargin := [], pinOut := [], stepping := [] }
    boot := { st := [], keep := [], dimm := [], fuse := [(0, some 0)], fuseNew := [], fusing := [], serial := 0, wrapKey := 0,
              colrep := [], mcauto := [], cal := [] }
    pwr := { power := .on, porn := false, warmn := true, warmDue := false, warmRel := false, pfail := false, dryOk := false,
             pcap := [], thermTrip := [], refStop := [] }
    resp := { status := 0, data := 0 }
    fresh := 0
    pending := [] }

end Sys2Proof.Machine
end

