-- ==== Sys2Proof/Machine/Table.lean ====
section
/-! DEFINITION. Sparse tables: a list of (index, value) pairs with indices strictly rising and no entry equal
to what an unlisted index reads as, `d`. -/
namespace Sys2Proof.Machine

/-- What index `k` holds. -/
def tget {α : Type} (d : Nat → α) : Tab α → Nat → α
  | [], k => d k
  | (i, v) :: m, k => if i = k then v else tget d m k

/-- The table without index `k`. -/
def terase {α : Type} : Tab α → Nat → Tab α
  | [], _ => []
  | (i, v) :: m, k => if i = k then terase m k else (i, v) :: terase m k

/-- The table with (k, v) put in order before the first larger index. -/
def tinsert {α : Type} : Tab α → Nat → α → Tab α
  | [], k, v => [(k, v)]
  | (i, w) :: m, k, v => if k < i then (k, v) :: (i, w) :: m else (i, w) :: tinsert m k v

/-- Store `v` at `k`, keeping the canonical form. -/
def tset {α : Type} [DecidableEq α] (d : Nat → α) (m : Tab α) (k : Nat) (v : α) : Tab α :=
  if v = d k then terase m k else tinsert (terase m k) k v

/-- The indices of a table rise strictly from `lo`. -/
def tsorted {α : Type} : Nat → Tab α → Bool
  | _, [] => true
  | lo, (i, _) :: m => decide (lo ≤ i) && tsorted (i + 1) m

/-- The canonical form: indices rise strictly and no entry equals what its index reads as when unlisted. -/
def twf {α : Type} [DecidableEq α] (d : Nat → α) (m : Tab α) : Bool :=
  tsorted 0 m && m.all (fun e => decide (e.2 ≠ d e.1))

/-- Drop the entries whose index fails `p`: they read as unlisted again. -/
def tkeep {α : Type} (p : Nat → Bool) (m : Tab α) : Tab α := m.filter (fun e => p e.1)

/-- `f` applied to every value from index `lo` for `n` indices. -/
def tupd {α : Type} [DecidableEq α] (d : Nat → α) (m : Tab α) (lo n : Nat) (f : Nat → α → α) : Tab α :=
  (List.range n).foldl (fun m i => tset d m (lo + i) (f i (tget d m (lo + i)))) m

end Sys2Proof.Machine
end

