-- ==== Sys2Proof/Machine/RegMap.lean ====
section
/-! DEFINITION. The register tables of the spec: for each register its offset in the hub's CSR space, how often
it repeats, and its fields with access code (R15), POR_N value and WARM_N value (R17). Bits not listed are
reserved (R16). -/
namespace Sys2Proof.Machine

/-- Access codes (R15). -/
inductive Acc where
  | rw | ro | wo | w1c | w1s | rc
  deriving DecidableEq, Repr

/-- One field: bits hi to lo, access, POR_N value, and the WARM_N value or `none` for U. -/
structure Fld where
  hi   : Nat
  lo   : Nat
  acc  : Acc
  por  : Nat
  warm : Option Nat
  deriving DecidableEq, Repr

/-- One register, repeated n1 times by s1, n2 times by s2 and n3 times by s3 bytes. -/
structure RegDesc where
  base : Nat
  n1   : Nat
  s1   : Nat
  n2   : Nat
  s2   : Nat
  n3   : Nat
  s3   : Nat
  flds : List Fld
  deriving DecidableEq, Repr

/-- Offsets of the registers, by the spec's names with the group's indices as arguments. -/
def R.IDENT : Nat := 0x0
def R.CONFIG : Nat := 0x4
def R.PWRCTL : Nat := 0x100
def R.PWRSTAT : Nat := 0x104
def R.TSENS (i : Nat) : Nat := 0x200 + 0x4 * i
def R.RUCTL : Nat := 0x100000
def R.RUMARKS : Nat := 0x100004
def R.PTPCFG : Nat := 0x100010
def R.PTPINC : Nat := 0x100014
def R.PTPSTEP : Nat := 0x100018
def R.EDGECFG (i : Nat) : Nat := 0x100020 + 0x4 * i
def R.MARKQ (i : Nat) : Nat := 0x100060 + 0x4 * i
def R.RCFG (i : Nat) : Nat := 0x101000 + 0x10 * i
def R.RCFGX (i : Nat) : Nat := 0x105000 + 0x10 * i
def R.RFMT (i : Nat) : Nat := 0x101004 + 0x10 * i
def R.RFMTX (i : Nat) : Nat := 0x105004 + 0x10 * i
def R.RPOSLO (i : Nat) : Nat := 0x101008 + 0x10 * i
def R.RPOSHI (i : Nat) : Nat := 0x10100C + 0x10 * i
def R.LMON (i : Nat) : Nat := 0x108000 + 0x20 * i
def R.LMSPAN (i : Nat) : Nat := 0x108004 + 0x20 * i
def R.LMMIN (i : Nat) : Nat := 0x108008 + 0x20 * i
def R.LMMAX (i : Nat) : Nat := 0x10800C + 0x20 * i
def R.LMLAST (i : Nat) : Nat := 0x108010 + 0x20 * i
def R.LMTAGLO (i : Nat) : Nat := 0x108014 + 0x20 * i
def R.LMTAGHI (i : Nat) : Nat := 0x108018 + 0x20 * i
def R.LMLOST (i : Nat) : Nat := 0x10801C + 0x20 * i
def R.WDCFG (i : Nat) : Nat := 0x109000 + 0x10 * i
def R.WDLOAD (i : Nat) : Nat := 0x109004 + 0x10 * i
def R.WDCNT (i : Nat) : Nat := 0x109008 + 0x10 * i
def R.WDKICK (i : Nat) : Nat := 0x10900C + 0x10 * i
def R.AIFLT0 (i : Nat) : Nat := 0x200100 + 0x8 * i
def R.AIFLT1 (i : Nat) : Nat := 0x200104 + 0x8 * i
def R.AIQ (i : Nat) : Nat := 0x200200 + 0x4 * i
def R.AIRUN (i : Nat) : Nat := 0x200280 + 0x4 * i
def R.LCH (i : Nat) : Nat := 0x200400 + 0x20 * i
def R.LCHBASELO (i : Nat) : Nat := 0x200404 + 0x20 * i
def R.LCHBASEHI (i : Nat) : Nat := 0x200408 + 0x20 * i
def R.LCHNSLOT (i : Nat) : Nat := 0x20040C + 0x20 * i
def R.LCHWR (i : Nat) : Nat := 0x200410 + 0x20 * i
def R.LCHRD (i : Nat) : Nat := 0x200414 + 0x20 * i
def R.SHSTAT (i : Nat) : Nat := 0x201000 + 0x1000 * i
def R.SHCFG (i : Nat) : Nat := 0x201004 + 0x1000 * i
def R.SHGANG (i : Nat) : Nat := 0x201008 + 0x1000 * i
def R.SHFAULT (i : Nat) : Nat := 0x20100C + 0x1000 * i
def R.SHCTL (i : Nat) : Nat := 0x201010 + 0x1000 * i
def R.SHFW0 (i : Nat) : Nat := 0x201014 + 0x1000 * i
def R.SHFW1 (i : Nat) : Nat := 0x201018 + 0x1000 * i
def R.SHFW2 (i : Nat) : Nat := 0x20101C + 0x1000 * i
def R.SHCOLREP (i : Nat) : Nat := 0x201020 + 0x1000 * i
def R.SHBIST (i : Nat) : Nat := 0x201024 + 0x1000 * i
def R.SHBISTCOL (i : Nat) : Nat := 0x201028 + 0x1000 * i
def R.SHECC (i : Nat) : Nat := 0x201030 + 0x1000 * i
def R.SHECCLOC (i : Nat) : Nat := 0x201034 + 0x1000 * i
def R.SHWCOL (i : Nat) : Nat := 0x201038 + 0x1000 * i
def R.SHBLOT (i : Nat) : Nat := 0x201040 + 0x1000 * i
def R.SHLPIN (i : Nat) : Nat := 0x201050 + 0x1000 * i
def R.SHLPOUT (i : Nat) : Nat := 0x201054 + 0x1000 * i
def R.MBPART0 : Nat := 0x300000
def R.MBPART1 : Nat := 0x300004
def R.CLTBASELO : Nat := 0x300008
def R.CLTBASEHI : Nat := 0x30000C
def R.CLTSIZE : Nat := 0x300010
def R.TKCHK : Nat := 0x300020
def R.TKREJ : Nat := 0x300024
def R.TKREJTAGLO : Nat := 0x300028
def R.TKREJTAGHI : Nat := 0x30002C
def R.MSDUP : Nat := 0x300030
def R.MBRECIRC : Nat := 0x300034
def R.CTXSEL : Nat := 0x300040
def R.CTXINFO0 : Nat := 0x300044
def R.CTXINFO1 : Nat := 0x300048
def R.CTXINFO2 : Nat := 0x30004C
def R.MBSTAT (i : Nat) : Nat := 0x300080 + 0x4 * i
def R.CTXQ (i : Nat) : Nat := 0x300200 + 0x40 * i
def R.MSOCC (i : Nat) : Nat := 0x300204 + 0x40 * i
def R.PGCAP (i : Nat) : Nat := 0x300208 + 0x40 * i
def R.BLTCTL (i : Nat) : Nat := 0x30020C + 0x40 * i
def R.BLTBASELO (i : Nat) : Nat := 0x300210 + 0x40 * i
def R.BLTBASEHI (i : Nat) : Nat := 0x300214 + 0x40 * i
def R.BLTUSE (i : Nat) : Nat := 0x300218 + 0x40 * i
def R.SDCTL (i : Nat) : Nat := 0x30021C + 0x40 * i
def R.STALLTAGLO (i : Nat) : Nat := 0x300220 + 0x40 * i
def R.STALLTAGHI (i : Nat) : Nat := 0x300224 + 0x40 * i
def R.SNAPLO (i : Nat) : Nat := 0x300228 + 0x40 * i
def R.SNAPHI (i : Nat) : Nat := 0x30022C + 0x40 * i
def R.SDSTAT (i : Nat) : Nat := 0x300230 + 0x40 * i
def R.AFFLIM (i : Nat) : Nat := 0x400000 + 0x40 * i
def R.FRBASE (i : Nat) : Nat := 0x400004 + 0x40 * i
def R.FRCOUNT (i : Nat) : Nat := 0x400008 + 0x40 * i
def R.RRPTR (i : Nat) : Nat := 0x40000C + 0x40 * i
def R.BACKLOG (i : Nat) : Nat := 0x400010 + 0x40 * i
def R.AFFHIT (i : Nat) : Nat := 0x400014 + 0x40 * i
def R.PREEMPTS (i : Nat) : Nat := 0x400018 + 0x40 * i
def R.CANSTAT : Nat := 0x400300
def R.CANLATE : Nat := 0x400304
def R.DCPREEMPT (i : Nat) : Nat := 0x400400 + 0x20 * i
def R.DCSTATE (i : Nat) : Nat := 0x400404 + 0x20 * i
def R.RLON (i : Nat) : Nat := 0x400408 + 0x20 * i
def R.RLSPILL (i : Nat) : Nat := 0x40040C + 0x20 * i
def R.DISPCNT (i : Nat) : Nat := 0x400410 + 0x20 * i
def R.LIGOCC : Nat := 0x400800
def R.LIGQ (i : Nat) : Nat := 0x400840 + 0x4 * i
def R.LIGU (i : Nat) : Nat := 0x400860 + 0x4 * i
def R.TRCTL : Nat := 0x400A00
def R.TRBASELO : Nat := 0x400A04
def R.TRBASEHI : Nat := 0x400A08
def R.TRSIZE : Nat := 0x400A0C
def R.TRWR : Nat := 0x400A10
def R.TRLOST : Nat := 0x400A14
def R.FLOW (i : Nat) : Nat := 0x404000 + 0x10 * i
def R.NEXTALLOC (i : Nat) : Nat := 0x404004 + 0x10 * i
def R.NEXTREL (i : Nat) : Nat := 0x404008 + 0x10 * i
def R.FLOWPEND (i : Nat) : Nat := 0x40400C + 0x10 * i
def R.TVECLO (i : Nat) : Nat := 0x500000 + 0x1000 * i
def R.TVECHI (i : Nat) : Nat := 0x500004 + 0x1000 * i
def R.TSAVE (i : Nat) : Nat := 0x500008 + 0x1000 * i
def R.TNEST (i : Nat) : Nat := 0x50000C + 0x1000 * i
def R.TNPCLO (i : Nat) : Nat := 0x500010 + 0x1000 * i
def R.TNPCHI (i : Nat) : Nat := 0x500014 + 0x1000 * i
def R.MCCTL (i : Nat) : Nat := 0x500100 + 0x1000 * i
def R.MCLEN (i : Nat) : Nat := 0x500104 + 0x1000 * i
def R.CORG (i : Nat) : Nat := 0x500108 + 0x1000 * i
def R.WINCTL (i j : Nat) : Nat := 0x500200 + 0x1000 * i + 0x10 * j
def R.WINBASELO (i j : Nat) : Nat := 0x500204 + 0x1000 * i + 0x10 * j
def R.WINHI (i j : Nat) : Nat := 0x500208 + 0x1000 * i + 0x10 * j
def R.WINLIMLO (i j : Nat) : Nat := 0x50020C + 0x1000 * i + 0x10 * j
def R.DTAB (i j : Nat) : Nat := 0x500400 + 0x1000 * i + 0x4 * j
def R.PMATCH (i j : Nat) : Nat := 0x500600 + 0x1000 * i + 0x4 * j
def R.IMGLO : Nat := 0x520000
def R.IMGHI : Nat := 0x520004
def R.MCCORES : Nat := 0x520008
def R.MCSTART : Nat := 0x52000C
def R.NEPOCH : Nat := 0x600000
def R.NREPLAY : Nat := 0x600004
def R.NISODISC : Nat := 0x600008
def R.NRSPDISC : Nat := 0x60000C
def R.NTBLREJ : Nat := 0x600010
def R.NRTAB (i j k : Nat) : Nat := 0x601000 + 0x80 * i + 0x40 * j + 0x4 * k
def R.NLSTAT (i : Nat) : Nat := 0x602800 + 0x4 * i
def R.NTILE (i : Nat) : Nat := 0x603000 + 0x4 * i
def R.NREG (i : Nat) : Nat := 0x604000 + 0x4 * i
def R.NDIE (i : Nat) : Nat := 0x604040 + 0x4 * i
def R.DPLCTL (i : Nat) : Nat := 0x605000 + 0x20 * i
def R.DPLMAPLO (i : Nat) : Nat := 0x605004 + 0x20 * i
def R.DPLMAPHI (i : Nat) : Nat := 0x605008 + 0x20 * i
def R.DPLCRC (i : Nat) : Nat := 0x60500C + 0x20 * i
def R.DPLRPL (i : Nat) : Nat := 0x605010 + 0x20 * i
def R.MCCFG (i : Nat) : Nat := 0x700000 + 0x1000 * i
def R.MCINIT (i : Nat) : Nat := 0x700004 + 0x1000 * i
def R.MCECC (i : Nat) : Nat := 0x700008 + 0x1000 * i
def R.MCWDISC (i : Nat) : Nat := 0x70000C + 0x1000 * i
def R.MCELOC0 (i : Nat) : Nat := 0x700010 + 0x1000 * i
def R.MCELOC1 (i : Nat) : Nat := 0x700014 + 0x1000 * i
def R.MCSCRCTL (i : Nat) : Nat := 0x700018 + 0x1000 * i
def R.MCSCRPOS (i : Nat) : Nat := 0x70001C + 0x1000 * i
def R.MCSCRPASS (i : Nat) : Nat := 0x700020 + 0x1000 * i
def R.UMSCRCTL (i : Nat) : Nat := 0x708000 + 0x20 * i
def R.UECC (i : Nat) : Nat := 0x708004 + 0x20 * i
def R.UELOC0 (i : Nat) : Nat := 0x708008 + 0x20 * i
def R.UELOC1 (i : Nat) : Nat := 0x70800C + 0x20 * i
def R.UMWDISC (i : Nat) : Nat := 0x708010 + 0x20 * i
def R.UMSCRPOS (i : Nat) : Nat := 0x708014 + 0x20 * i
def R.L1ERR (i : Nat) : Nat := 0x708100 + 0x4 * i
def R.MEMCLR : Nat := 0x709000
def R.ECTL : Nat := 0x800000
def R.WETLIM : Nat := 0x800004
def R.DRYRATE : Nat := 0x800008
def R.DRYMARGIN : Nat := 0x80000C
def R.ADMITTED : Nat := 0x800010
def R.WET : Nat := 0x800014
def R.BORROWAT : Nat := 0x800018
def R.RSVX : Nat := 0x80001C
def R.SIGCOAL : Nat := 0x800020
def R.RSVDROP : Nat := 0x800024
def R.DRYBYTESLO : Nat := 0x800028
def R.DRYBYTESHI : Nat := 0x80002C
def R.SKCTL : Nat := 0x800030
def R.SKADDRLO : Nat := 0x800034
def R.SKADDRHI : Nat := 0x800038
def R.CSABASELO : Nat := 0x80003C
def R.CSABASEHI : Nat := 0x800040
def R.ERCTL (i : Nat) : Nat := 0x800100 + 0x40 * i
def R.ERBASELO (i : Nat) : Nat := 0x800104 + 0x40 * i
def R.ERBASEHI (i : Nat) : Nat := 0x800108 + 0x40 * i
def R.ERDRY (i : Nat) : Nat := 0x80010C + 0x40 * i
def R.DRYR (i : Nat) : Nat := 0x800110 + 0x40 * i
def R.SEGMAX (i : Nat) : Nat := 0x800114 + 0x40 * i
def R.WSEQLO (i : Nat) : Nat := 0x800118 + 0x40 * i
def R.WSEQHI (i : Nat) : Nat := 0x80011C + 0x40 * i
def R.DSEQLO (i : Nat) : Nat := 0x800120 + 0x40 * i
def R.DSEQHI (i : Nat) : Nat := 0x800124 + 0x40 * i
def R.MSEQLO (i : Nat) : Nat := 0x800128 + 0x40 * i
def R.MSEQHI (i : Nat) : Nat := 0x80012C + 0x40 * i
def R.QOCC (i : Nat) : Nat := 0x800130 + 0x40 * i
def R.TGT (i : Nat) : Nat := 0x800400 + 0x40 * i
def R.SQBASELO (i : Nat) : Nat := 0x800404 + 0x40 * i
def R.SQBASEHI (i : Nat) : Nat := 0x800408 + 0x40 * i
def R.CQBASELO (i : Nat) : Nat := 0x80040C + 0x40 * i
def R.CQBASEHI (i : Nat) : Nat := 0x800410 + 0x40 * i
def R.DBADDRLO (i : Nat) : Nat := 0x800414 + 0x40 * i
def R.DBADDRHI (i : Nat) : Nat := 0x800418 + 0x40 * i
def R.NSID (i : Nat) : Nat := 0x80041C + 0x40 * i
def R.LBA0LO (i : Nat) : Nat := 0x800420 + 0x40 * i
def R.LBA0HI (i : Nat) : Nat := 0x800424 + 0x40 * i
def R.LBACNT (i : Nat) : Nat := 0x800428 + 0x40 * i
def R.TGTHEAD (i : Nat) : Nat := 0x80042C + 0x40 * i
def R.TGTTAIL (i : Nat) : Nat := 0x800430 + 0x40 * i
def R.ANCSTATE : Nat := 0x800F00
def R.ANCDIRLO : Nat := 0x800F08
def R.ANCDIRHI : Nat := 0x800F0C
def R.ANCWSEQLO (i : Nat) : Nat := 0x800F10 + 0x10 * i
def R.ANCWSEQHI (i : Nat) : Nat := 0x800F14 + 0x10 * i
def R.ANCDSEQLO (i : Nat) : Nat := 0x800F18 + 0x10 * i
def R.ANCDSEQHI (i : Nat) : Nat := 0x800F1C + 0x10 * i
def R.LCTL (i : Nat) : Nat := 0x900000 + 0x10000 * i
def R.LTS (i : Nat) : Nat := 0x900004 + 0x10000 * i
def R.PFC (i : Nat) : Nat := 0x900008 + 0x10000 * i
def R.RXBASELO (i : Nat) : Nat := 0x900010 + 0x10000 * i
def R.RXBASEHI (i : Nat) : Nat := 0x900014 + 0x10000 * i
def R.RXSIZE (i : Nat) : Nat := 0x900018 + 0x10000 * i
def R.RXHEAD (i : Nat) : Nat := 0x90001C + 0x10000 * i
def R.RXTAIL (i : Nat) : Nat := 0x900020 + 0x10000 * i
def R.TXBASELO (i : Nat) : Nat := 0x900024 + 0x10000 * i
def R.TXBASEHI (i : Nat) : Nat := 0x900028 + 0x10000 * i
def R.TXSIZE (i : Nat) : Nat := 0x90002C + 0x10000 * i
def R.TXHEAD (i : Nat) : Nat := 0x900030 + 0x10000 * i
def R.TXTAIL (i : Nat) : Nat := 0x900034 + 0x10000 * i
def R.RXERR (i : Nat) : Nat := 0x900040 + 0x10000 * i
def R.RXDROP (i : Nat) : Nat := 0x900044 + 0x10000 * i
def R.RXPAUSE (i : Nat) : Nat := 0x900048 + 0x10000 * i
def R.STBASELO (i : Nat) : Nat := 0x908000 + 0x80000 * i
def R.STBASEHI (i : Nat) : Nat := 0x908004 + 0x80000 * i
def R.STCTL (i : Nat) : Nat := 0x908008 + 0x80000 * i
def R.RSVBAND (i : Nat) : Nat := 0x90800C + 0x80000 * i
def R.RSVOCC (i : Nat) : Nat := 0x908010 + 0x80000 * i
def R.CLSDROP (i : Nat) : Nat := 0x908014 + 0x80000 * i
def R.STPART (i : Nat) : Nat := 0x908018 + 0x80000 * i
def R.STLATE (i : Nat) : Nat := 0x90801C + 0x80000 * i
def R.PCICFG : Nat := 0xA00000
def R.PCISTAT : Nat := 0xA00004
def R.RPADDRLO : Nat := 0xA00010
def R.RPADDRHI : Nat := 0xA00014
def R.RPDATA : Nat := 0xA00018
def R.RPCMD : Nat := 0xA0001C
def R.RPUR : Nat := 0xA00020
def R.MBDB : Nat := 0xA01000
def R.MBDONE : Nat := 0xA01004
def R.MBERR : Nat := 0xA0100C
def R.MBCMD (i j : Nat) : Nat := 0xA01100 + 0x40 * i + 0x4 * j
def R.MBRSP (i j : Nat) : Nat := 0xA01400 + 0x40 * i + 0x4 * j
def R.FCFG : Nat := 0xB00000
def R.FIMGLO : Nat := 0xB00004
def R.FIMGHI : Nat := 0xB00008
def R.FLOAD : Nat := 0xB0000C
def R.FCONT : Nat := 0xB00010
def R.FCCNT : Nat := 0xB00014
def R.FREG (i : Nat) : Nat := 0xB00100 + 0x10 * i
def R.BMCOLL (i : Nat) : Nat := 0xB00104 + 0x10 * i
def R.FPORT (i : Nat) : Nat := 0xB00200 + 0x20 * i
def R.MWBASELO (i : Nat) : Nat := 0xB00204 + 0x20 * i
def R.MWBASEHI (i : Nat) : Nat := 0xB00208 + 0x20 * i
def R.MWLIMLO (i : Nat) : Nat := 0xB0020C + 0x20 * i
def R.MWLIMHI (i : Nat) : Nat := 0xB00210 + 0x20 * i
def R.MERR (i : Nat) : Nat := 0xB00214 + 0x20 * i
def R.TOCNT (i : Nat) : Nat := 0xB00218 + 0x20 * i
def R.IOIN (i : Nat) : Nat := 0xB00300 + 0x4 * i
def R.FRAWADDR : Nat := 0xB00F00
def R.FRAWGO : Nat := 0xB00F04
def R.FRAWBUF (i : Nat) : Nat := 0xB00F80 + 0x4 * i
def R.PCFG (i : Nat) : Nat := 0xC00000 + 0x10 * i
def R.PCORES (i : Nat) : Nat := 0xC00004 + 0x10 * i
def R.BTCTL : Nat := 0xC01000
def R.BTPERIOD : Nat := 0xC01004
def R.BTPOSLO : Nat := 0xC01008
def R.BTPOSHI : Nat := 0xC0100C
def R.BTFAIL : Nat := 0xC01010
def R.BTSTEPS : Nat := 0xC01014
def R.BTABAND : Nat := 0xC01018
def R.JCTL : Nat := 0xC02000
def R.JBASELO : Nat := 0xC02004
def R.JBASEHI : Nat := 0xC02008
def R.JWR : Nat := 0xC0200C
def R.JDROP : Nat := 0xC02010
def R.ALARMSTAT : Nat := 0xC02040
def R.TKCTL : Nat := 0xC03000
def R.MPCFG (i : Nat) : Nat := 0xC08800 + 0x4 * i
def R.MTCTL : Nat := 0xC08C00
def R.MTBASELO : Nat := 0xC08C04
def R.MTBASEHI : Nat := 0xC08C08
def R.MTSIZE : Nat := 0xC08C0C
def R.MTWR : Nat := 0xC08C10
def R.MTLOST : Nat := 0xC08C14
def R.TPCTL : Nat := 0xC08C20
def R.DBGCTL : Nat := 0xD00000
def R.DCTL (i : Nat) : Nat := 0xD01000 + 0x100 * i
def R.DSTAT (i : Nat) : Nat := 0xD01004 + 0x100 * i
def R.DRSEL (i : Nat) : Nat := 0xD01008 + 0x100 * i
def R.DRDATALO (i : Nat) : Nat := 0xD0100C + 0x100 * i
def R.DRDATAHI (i : Nat) : Nat := 0xD01010 + 0x100 * i
def R.DW (i j : Nat) : Nat := 0xD01020 + 0x100 * i + 0x10 * j
def R.DWADDRLO (i j : Nat) : Nat := 0xD01024 + 0x100 * i + 0x10 * j
def R.DWADDRHI (i j : Nat) : Nat := 0xD01028 + 0x100 * i + 0x10 * j
def R.DWHITS (i j : Nat) : Nat := 0xD0102C + 0x100 * i + 0x10 * j
def R.DGCTL (i : Nat) : Nat := 0xD04000 + 0x10 * i
def R.DGINJ (i j : Nat) : Nat := 0xD04004 + 0x10 * i + 0x4 * j
def R.OVS (i : Nat) : Nat := 0xD05000 + 0x8 * i
def R.OVSLO (i : Nat) : Nat := 0xD05004 + 0x8 * i
def R.PATCHRAM (i : Nat) : Nat := 0xD06000 + 0x4 * i
def R.BOOTSTAT : Nat := 0xE00000
def R.CALSTAT : Nat := 0xE00004
def R.BOOTCTL : Nat := 0xE00008
def R.MCIMGPLO : Nat := 0xE00010
def R.MCIMGPHI : Nat := 0xE00014
def R.MCIMGCLO : Nat := 0xE00018
def R.MCIMGCHI : Nat := 0xE0001C
def R.FUSEPRG : Nat := 0xE00100
def R.FUSESTAT : Nat := 0xE00104
def R.FUSEDATA (i : Nat) : Nat := 0xE00120 + 0x4 * i
def R.MIRCTL : Nat := 0xF00000
def R.MIRBASELO : Nat := 0xF00004
def R.MIRBASEHI : Nat := 0xF00008
def R.MIRSIZE : Nat := 0xF0000C
def R.MIRCRC : Nat := 0xF00010

def regs00_0 : List RegDesc :=
  [⟨R.IDENT, 1, 0x4, 1, 4, 1, 4, [⟨31, 16, .ro, 0x0, none⟩, ⟨15, 8, .ro, 0xB0, none⟩, ⟨7, 4, .ro, 0x0, none⟩, ⟨3, 0, .ro, 0x0, none⟩]⟩,
   ⟨R.CONFIG, 1, 0x4, 1, 4, 1, 4, [⟨29, 24, .ro, 0x0, none⟩, ⟨23, 20, .ro, 0x0, none⟩, ⟨19, 16, .ro, 0x0, none⟩, ⟨15, 8, .ro, 0x0, none⟩, ⟨7, 0, .ro, 0x0, none⟩]⟩,
   ⟨R.PWRCTL, 1, 0x4, 1, 4, 1, 4, [⟨25, 24, .rw, 0x0, none⟩, ⟨21, 20, .rw, 0x1, none⟩, ⟨11, 8, .rw, 0xF, none⟩, ⟨7, 0, .rw, 0x64, none⟩]⟩,
   ⟨R.PWRSTAT, 1, 0x4, 1, 4, 1, 4, [⟨15, 8, .ro, 0x0, some 0x0⟩, ⟨6, 6, .ro, 0x0, none⟩, ⟨5, 5, .ro, 0x0, some 0x0⟩, ⟨4, 4, .ro, 0x0, some 0x0⟩, ⟨1, 0, .ro, 0x0, some 0x0⟩]⟩,
   ⟨R.TSENS 0, 32, 0x4, 1, 4, 1, 4, [⟨31, 31, .ro, 0x0, some 0x0⟩, ⟨15, 0, .ro, 0x0, some 0x0⟩]⟩]
/-- The registers of the block at 0x0000000. -/
def regs00 : List RegDesc := regs00_0

def regs01_0 : List RegDesc :=
  [⟨R.RUCTL, 1, 0x4, 1, 4, 1, 4, [⟨10, 0, .rw, 0x400, none⟩]⟩,
   ⟨R.RUMARKS, 1, 0x4, 1, 4, 1, 4, [⟨29, 15, .w1c, 0x0, some 0x0⟩, ⟨14, 0, .ro, 0x0, some 0x0⟩]⟩,
   ⟨R.PTPCFG, 1, 0x4, 1, 4, 1, 4, [⟨31, 31, .rw, 0x0, some 0x0⟩, ⟨3, 0, .rw, 0x0, none⟩]⟩,
   ⟨R.PTPINC, 1, 0x4, 1, 4, 1, 4, [⟨31, 0, .rw, 0x6666666, none⟩]⟩,
   ⟨R.PTPSTEP, 1, 0x4, 1, 4, 1, 4, [⟨31, 0, .wo, 0x0, some 0x0⟩]⟩,
   ⟨R.EDGECFG 0, 10, 0x4, 1, 4, 1, 4, [⟨31, 31, .rw, 0x1, none⟩, ⟨29, 28, .rw, 0x0, none⟩, ⟨15, 0, .rw, 0x0, none⟩]⟩,
   ⟨R.MARKQ 0, 8, 0x4, 1, 4, 1, 4, [⟨14, 0, .rw, 0x0, none⟩]⟩,
   ⟨R.RCFG 0, 1024, 0x10, 1, 4, 1, 4, [⟨31, 31, .rw, 0x0, some 0x0⟩, ⟨30, 28, .rw, 0x0, some 0x0⟩, ⟨27, 25, .rw, 0x0, some 0x0⟩, ⟨24, 24, .rw, 0x0, some 0x0⟩, ⟨23, 14, .rw, 0x10, some 0x10⟩, ⟨13, 0, .rw, 0x438, some 0x438⟩]⟩,
   ⟨R.RCFGX 0, 17, 0x10, 1, 4, 1, 4, [⟨31, 31, .rw, 0x1, none⟩]⟩,
   ⟨R.RFMT 0, 1024, 0x10, 1, 4, 1, 4, [⟨31, 0, .rw, 0x0, some 0x0⟩]⟩,
   ⟨R.RFMTX 0, 17, 0x10, 1, 4, 1, 4, [⟨31, 0, .ro, 0x0, some 0x0⟩]⟩,
   ⟨R.RPOSLO 0, 1041, 0x10, 1, 4, 1, 4, [⟨31, 0, .ro, 0x0, some 0x0⟩]⟩]
def regs01_1 : List RegDesc :=
  [⟨R.RPOSHI 0, 1041, 0x10, 1, 4, 1, 4, [⟨31, 0, .ro, 0x0, some 0x0⟩]⟩,
   ⟨R.LMON 0, 64, 0x20, 1, 4, 1, 4, [⟨31, 31, .rw, 0x0, some 0x0⟩, ⟨30, 30, .rw, 0x0, some 0x0⟩, ⟨29, 27, .rw, 0x0, some 0x0⟩, ⟨26, 16, .rw, 0x0, some 0x0⟩, ⟨10, 0, .rw, 0x0, some 0x0⟩]⟩,
   ⟨R.LMSPAN 0, 64, 0x20, 1, 4, 1, 4, [⟨31, 0, .rw, 0x0, some 0x0⟩]⟩,
   ⟨R.LMMIN 0, 64, 0x20, 1, 4, 1, 4, [⟨31, 0, .rw, 0x0, some 0x0⟩]⟩,
   ⟨R.LMMAX 0, 64, 0x20, 1, 4, 1, 4, [⟨31, 0, .rw, 0x0, some 0x0⟩]⟩,
   ⟨R.LMLAST 0, 64, 0x20, 1, 4, 1, 4, [⟨31, 0, .ro, 0x0, some 0x0⟩]⟩,
   ⟨R.LMTAGLO 0, 64, 0x20, 1, 4, 1, 4, [⟨31, 0, .rw, 0x0, some 0x0⟩]⟩,
   ⟨R.LMTAGHI 0, 64, 0x20, 1, 4, 1, 4, [⟨31, 0, .rw, 0x0, some 0x0⟩]⟩,
   ⟨R.LMLOST 0, 64, 0x20, 1, 4, 1, 4, [⟨0, 0, .w1c, 0x0, some 0x0⟩]⟩,
   ⟨R.WDCFG 0, 33, 0x10, 1, 4, 1, 4, [⟨31, 31, .rw, 0x0, some 0x0⟩, ⟨30, 30, .rw, 0x0, some 0x0⟩, ⟨10, 0, .rw, 0x410, none⟩]⟩,
   ⟨R.WDLOAD 0, 33, 0x10, 1, 4, 1, 4, [⟨31, 0, .rw, 0xFFFFFFFF, none⟩]⟩,
   ⟨R.WDCNT 0, 33, 0x10, 1, 4, 1, 4, [⟨31, 0, .ro, 0xFFFFFFFF, some 0xFFFFFFFF⟩]⟩]
def regs01_2 : List RegDesc :=
  [⟨R.WDKICK 0, 33, 0x10, 1, 4, 1, 4, [⟨31, 0, .wo, 0x0, some 0x0⟩]⟩]
/-- The registers of the block at 0x0100000. -/
def regs01 : List RegDesc := regs01_0 ++ regs01_1 ++ regs01_2

def regs02_0 : List RegDesc :=
  [⟨R.AIFLT0 0, 24, 0x8, 1, 4, 1, 4, [⟨31, 31, .ro, 0x0, some 0x0⟩, ⟨30, 30, .ro, 0x0, some 0x0⟩, ⟨28, 24, .ro, 0x0, some 0x0⟩, ⟨20, 16, .ro, 0x0, some 0x0⟩, ⟨15, 8, .ro, 0x0, some 0x0⟩, ⟨7, 0, .ro, 0x0, some 0x0⟩]⟩,
   ⟨R.AIFLT1 0, 24, 0x8, 1, 4, 1, 4, [⟨12, 0, .ro, 0x0, some 0x0⟩]⟩,
   ⟨R.AIQ 0, 24, 0x4, 1, 4, 1, 4, [⟨16, 16, .ro, 0x0, some 0x0⟩, ⟨15, 15, .ro, 0x0, some 0x0⟩, ⟨12, 8, .ro, 0x0, some 0x0⟩, ⟨6, 0, .ro, 0x0, some 0x0⟩]⟩,
   ⟨R.AIRUN 0, 24, 0x4, 1, 4, 1, 4, [⟨31, 31, .ro, 0x0, some 0x0⟩, ⟨4, 0, .ro, 0x0, some 0x0⟩]⟩,
   ⟨R.LCH 0, 64, 0x20, 1, 4, 1, 4, [⟨31, 31, .rw, 0x0, some 0x0⟩, ⟨30, 30, .rw, 0x0, none⟩, ⟨29, 29, .rw, 0x0, none⟩, ⟨28, 26, .rw, 0x0, none⟩]⟩,
   ⟨R.LCHBASELO 0, 64, 0x20, 1, 4, 1, 4, [⟨31, 9, .rw, 0x0, none⟩]⟩,
   ⟨R.LCHBASEHI 0, 64, 0x20, 1, 4, 1, 4, [⟨15, 0, .rw, 0x0, none⟩]⟩,
   ⟨R.LCHNSLOT 0, 64, 0x20, 1, 4, 1, 4, [⟨16, 0, .rw, 0x1, none⟩]⟩,
   ⟨R.LCHWR 0, 64, 0x20, 1, 4, 1, 4, [⟨31, 0, .rw, 0x0, some 0x0⟩]⟩,
   ⟨R.LCHRD 0, 64, 0x20, 1, 4, 1, 4, [⟨31, 0, .rw, 0x0, some 0x0⟩]⟩,
   ⟨R.SHSTAT 0, 24, 0x1000, 1, 4, 1, 4, [⟨11, 11, .ro, 0x0, none⟩, ⟨10, 10, .ro, 0x0, some 0x0⟩, ⟨9, 9, .ro, 0x0, some 0x0⟩, ⟨8, 8, .ro, 0x0, some 0x0⟩, ⟨3, 0, .ro, 0x0, some 0x0⟩]⟩,
   ⟨R.SHCFG 0, 24, 0x1000, 1, 4, 1, 4, [⟨31, 31, .rw, 0x0, none⟩, ⟨30, 30, .rw, 0x1, none⟩, ⟨26, 24, .rw, 0x0, none⟩]⟩]
def regs02_1 : List RegDesc :=
  [⟨R.SHGANG 0, 24, 0x1000, 1, 4, 1, 4, [⟨24, 20, .ro, 0x0, some 0x0⟩, ⟨19, 15, .ro, 0x1, some 0x1⟩, ⟨14, 10, .ro, 0x1, some 0x1⟩, ⟨9, 5, .ro, 0x0, some 0x0⟩, ⟨4, 0, .ro, 0x0, some 0x0⟩]⟩,
   ⟨R.SHFAULT 0, 24, 0x1000, 1, 4, 1, 4, [⟨31, 31, .ro, 0x0, some 0x0⟩, ⟨23, 16, .ro, 0x0, some 0x0⟩, ⟨15, 8, .ro, 0x0, some 0x0⟩, ⟨7, 0, .ro, 0x0, some 0x0⟩]⟩,
   ⟨R.SHCTL 0, 24, 0x1000, 1, 4, 1, 4, [⟨1, 0, .wo, 0x0, some 0x0⟩]⟩,
   ⟨R.SHFW0 0, 24, 0x1000, 1, 4, 1, 4, [⟨31, 0, .ro, 0x0, some 0x0⟩]⟩,
   ⟨R.SHFW1 0, 24, 0x1000, 1, 4, 1, 4, [⟨31, 0, .ro, 0x0, some 0x0⟩]⟩,
   ⟨R.SHFW2 0, 24, 0x1000, 1, 4, 1, 4, [⟨31, 0, .ro, 0x0, some 0x0⟩]⟩,
   ⟨R.SHCOLREP 0, 24, 0x1000, 1, 4, 1, 4, [⟨31, 24, .rw, 0xFF, none⟩, ⟨23, 16, .rw, 0xFF, none⟩, ⟨15, 8, .rw, 0xFF, none⟩, ⟨7, 0, .rw, 0xFF, none⟩]⟩,
   ⟨R.SHBIST 0, 24, 0x1000, 1, 4, 1, 4, [⟨31, 31, .ro, 0x0, none⟩, ⟨30, 30, .ro, 0x0, none⟩, ⟨29, 29, .ro, 0x0, none⟩, ⟨7, 0, .ro, 0x0, none⟩]⟩,
   ⟨R.SHBISTCOL 0, 24, 0x1000, 1, 4, 1, 4, [⟨31, 0, .ro, 0xFFFFFFFF, none⟩]⟩,
   ⟨R.SHECC 0, 24, 0x1000, 1, 4, 1, 4, [⟨31, 16, .rc, 0x0, none⟩, ⟨15, 0, .rc, 0x0, none⟩]⟩,
   ⟨R.SHECCLOC 0, 24, 0x1000, 1, 4, 1, 4, [⟨31, 31, .ro, 0x0, none⟩, ⟨30, 30, .ro, 0x0, none⟩, ⟨29, 29, .w1c, 0x0, none⟩, ⟨27, 16, .ro, 0x0, none⟩, ⟨14, 8, .ro, 0x0, none⟩, ⟨4, 0, .ro, 0x0, none⟩]⟩,
   ⟨R.SHWCOL 0, 24, 0x1000, 1, 4, 1, 4, [⟨31, 0, .rc, 0x0, none⟩]⟩]
def regs02_2 : List RegDesc :=
  [⟨R.SHBLOT 0, 24, 0x1000, 1, 4, 1, 4, [⟨31, 0, .ro, 0x0, some 0x0⟩]⟩,
   ⟨R.SHLPIN 0, 24, 0x1000, 1, 4, 1, 4, [⟨31, 16, .ro, 0x0, some 0x0⟩, ⟨1, 0, .ro, 0x0, some 0x0⟩]⟩,
   ⟨R.SHLPOUT 0, 24, 0x1000, 1, 4, 1, 4, [⟨31, 16, .ro, 0x0, some 0x0⟩, ⟨1, 0, .ro, 0x0, some 0x0⟩]⟩]
/-- The registers of the block at 0x0200000. -/
def regs02 : List RegDesc := regs02_0 ++ regs02_1 ++ regs02_2

def regs03_0 : List RegDesc :=
  [⟨R.MBPART0, 1, 0x4, 1, 4, 1, 4, [⟨31, 0, .rw, 0x0, none⟩]⟩,
   ⟨R.MBPART1, 1, 0x4, 1, 4, 1, 4, [⟨31, 0, .rw, 0x0, none⟩]⟩,
   ⟨R.CLTBASELO, 1, 0x4, 1, 4, 1, 4, [⟨31, 4, .rw, 0x0, none⟩]⟩,
   ⟨R.CLTBASEHI, 1, 0x4, 1, 4, 1, 4, [⟨15, 0, .rw, 0x0, none⟩]⟩,
   ⟨R.CLTSIZE, 1, 0x4, 1, 4, 1, 4, [⟨20, 0, .rw, 0x0, none⟩]⟩,
   ⟨R.TKCHK, 1, 0x4, 1, 4, 1, 4, [⟨31, 0, .rc, 0x0, none⟩]⟩,
   ⟨R.TKREJ, 1, 0x4, 1, 4, 1, 4, [⟨31, 28, .ro, 0x0, none⟩, ⟨27, 0, .rc, 0x0, none⟩]⟩,
   ⟨R.TKREJTAGLO, 1, 0x4, 1, 4, 1, 4, [⟨31, 0, .ro, 0x0, none⟩]⟩,
   ⟨R.TKREJTAGHI, 1, 0x4, 1, 4, 1, 4, [⟨31, 0, .ro, 0x0, none⟩]⟩,
   ⟨R.MSDUP, 1, 0x4, 1, 4, 1, 4, [⟨31, 0, .rc, 0x0, none⟩]⟩,
   ⟨R.MBRECIRC, 1, 0x4, 1, 4, 1, 4, [⟨31, 0, .rc, 0x0, none⟩]⟩,
   ⟨R.CTXSEL, 1, 0x4, 1, 4, 1, 4, [⟨11, 0, .rw, 0x0, none⟩]⟩]
def regs03_1 : List RegDesc :=
  [⟨R.CTXINFO0, 1, 0x4, 1, 4, 1, 4, [⟨31, 30, .ro, 0x0, some 0x0⟩, ⟨29, 27, .ro, 0x0, some 0x0⟩, ⟨25, 0, .ro, 0x0, some 0x0⟩]⟩,
   ⟨R.CTXINFO1, 1, 0x4, 1, 4, 1, 4, [⟨25, 0, .ro, 0x0, some 0x0⟩]⟩,
   ⟨R.CTXINFO2, 1, 0x4, 1, 4, 1, 4, [⟨31, 0, .ro, 0x0, some 0x0⟩]⟩,
   ⟨R.MBSTAT 0, 16, 0x4, 1, 4, 1, 4, [⟨30, 16, .ro, 0x0, some 0x0⟩, ⟨10, 0, .ro, 0x0, some 0x0⟩]⟩,
   ⟨R.CTXQ 0, 8, 0x40, 1, 4, 1, 4, [⟨28, 16, .rw, 0x0, none⟩, ⟨12, 0, .ro, 0x0, some 0x0⟩]⟩,
   ⟨R.MSOCC 0, 8, 0x40, 1, 4, 1, 4, [⟨31, 31, .ro, 0x0, some 0x0⟩, ⟨18, 0, .ro, 0x0, some 0x0⟩]⟩,
   ⟨R.PGCAP 0, 8, 0x40, 1, 4, 1, 4, [⟨18, 0, .ro, 0x0, none⟩]⟩,
   ⟨R.BLTCTL 0, 8, 0x40, 1, 4, 1, 4, [⟨31, 31, .rw, 0x0, some 0x0⟩, ⟨12, 0, .rw, 0x10, none⟩]⟩,
   ⟨R.BLTBASELO 0, 8, 0x40, 1, 4, 1, 4, [⟨31, 21, .rw, 0x0, none⟩]⟩,
   ⟨R.BLTBASEHI 0, 8, 0x40, 1, 4, 1, 4, [⟨15, 0, .rw, 0x0, none⟩]⟩,
   ⟨R.BLTUSE 0, 8, 0x40, 1, 4, 1, 4, [⟨31, 31, .ro, 0x0, some 0x0⟩, ⟨19, 0, .ro, 0x0, some 0x0⟩]⟩,
   ⟨R.SDCTL 0, 8, 0x40, 1, 4, 1, 4, [⟨31, 31, .rw, 0x0, none⟩, ⟨30, 30, .rw, 0x1, none⟩, ⟨29, 29, .rw, 0x0, none⟩, ⟨15, 0, .rw, 0x0, none⟩]⟩]
def regs03_2 : List RegDesc :=
  [⟨R.STALLTAGLO 0, 8, 0x40, 1, 4, 1, 4, [⟨31, 0, .rw, 0x0, none⟩]⟩,
   ⟨R.STALLTAGHI 0, 8, 0x40, 1, 4, 1, 4, [⟨31, 0, .rw, 0x0, none⟩]⟩,
   ⟨R.SNAPLO 0, 8, 0x40, 1, 4, 1, 4, [⟨31, 6, .rw, 0x0, none⟩]⟩,
   ⟨R.SNAPHI 0, 8, 0x40, 1, 4, 1, 4, [⟨15, 0, .rw, 0x0, none⟩]⟩,
   ⟨R.SDSTAT 0, 8, 0x40, 1, 4, 1, 4, [⟨31, 31, .w1c, 0x0, some 0x0⟩, ⟨30, 30, .w1c, 0x0, some 0x0⟩, ⟨15, 0, .rc, 0x0, none⟩]⟩]
/-- The registers of the block at 0x0300000. -/
def regs03 : List RegDesc := regs03_0 ++ regs03_1 ++ regs03_2

def regs04_0 : List RegDesc :=
  [⟨R.AFFLIM 0, 8, 0x40, 1, 4, 1, 4, [⟨8, 0, .rw, 0x20, none⟩]⟩,
   ⟨R.FRBASE 0, 8, 0x40, 1, 4, 1, 4, [⟨23, 6, .rw, 0x0, none⟩]⟩,
   ⟨R.FRCOUNT 0, 8, 0x40, 1, 4, 1, 4, [⟨10, 0, .rw, 0x0, none⟩, ⟨26, 16, .ro, 0x0, some 0x0⟩]⟩,
   ⟨R.RRPTR 0, 8, 0x40, 1, 4, 1, 4, [⟨4, 0, .ro, 0x0, some 0x0⟩]⟩,
   ⟨R.BACKLOG 0, 8, 0x40, 1, 4, 1, 4, [⟨19, 0, .ro, 0x0, some 0x0⟩]⟩,
   ⟨R.AFFHIT 0, 8, 0x40, 1, 4, 1, 4, [⟨31, 0, .rc, 0x0, none⟩]⟩,
   ⟨R.PREEMPTS 0, 8, 0x40, 1, 4, 1, 4, [⟨31, 0, .rc, 0x0, none⟩]⟩,
   ⟨R.CANSTAT, 1, 0x4, 1, 4, 1, 4, [⟨31, 31, .ro, 0x0, some 0x0⟩, ⟨20, 16, .ro, 0x0, some 0x0⟩, ⟨11, 0, .ro, 0x0, some 0x0⟩]⟩,
   ⟨R.CANLATE, 1, 0x4, 1, 4, 1, 4, [⟨31, 0, .rc, 0x0, none⟩]⟩,
   ⟨R.DCPREEMPT 0, 32, 0x20, 1, 4, 1, 4, [⟨0, 0, .rw, 0x0, none⟩]⟩,
   ⟨R.DCSTATE 0, 32, 0x20, 1, 4, 1, 4, [⟨5, 4, .ro, 0x0, some 0x0⟩, ⟨2, 0, .ro, 0x0, some 0x0⟩]⟩,
   ⟨R.RLON 0, 32, 0x20, 1, 4, 1, 4, [⟨8, 0, .ro, 0x0, some 0x0⟩]⟩]
def regs04_1 : List RegDesc :=
  [⟨R.RLSPILL 0, 32, 0x20, 1, 4, 1, 4, [⟨23, 0, .ro, 0x0, some 0x0⟩]⟩,
   ⟨R.DISPCNT 0, 32, 0x20, 1, 4, 1, 4, [⟨31, 0, .rc, 0x0, none⟩]⟩,
   ⟨R.LIGOCC, 1, 0x4, 1, 4, 1, 4, [⟨16, 0, .ro, 0x0, some 0x0⟩]⟩,
   ⟨R.LIGQ 0, 8, 0x4, 1, 4, 1, 4, [⟨16, 0, .rw, 0x0, none⟩]⟩,
   ⟨R.LIGU 0, 8, 0x4, 1, 4, 1, 4, [⟨16, 0, .ro, 0x0, some 0x0⟩]⟩,
   ⟨R.TRCTL, 1, 0x4, 1, 4, 1, 4, [⟨31, 31, .rw, 0x0, none⟩, ⟨30, 30, .rw, 0x0, none⟩, ⟨29, 29, .rw, 0x0, none⟩, ⟨25, 16, .rw, 0x0, none⟩, ⟨7, 0, .rw, 0x0, none⟩]⟩,
   ⟨R.TRBASELO, 1, 0x4, 1, 4, 1, 4, [⟨31, 12, .rw, 0x0, none⟩]⟩,
   ⟨R.TRBASEHI, 1, 0x4, 1, 4, 1, 4, [⟨15, 0, .rw, 0x0, none⟩]⟩,
   ⟨R.TRSIZE, 1, 0x4, 1, 4, 1, 4, [⟨20, 0, .rw, 0x1, none⟩]⟩,
   ⟨R.TRWR, 1, 0x4, 1, 4, 1, 4, [⟨31, 0, .ro, 0x0, none⟩]⟩,
   ⟨R.TRLOST, 1, 0x4, 1, 4, 1, 4, [⟨31, 0, .rc, 0x0, none⟩]⟩,
   ⟨R.FLOW 0, 4096, 0x10, 1, 4, 1, 4, [⟨31, 31, .rw, 0x0, some 0x0⟩, ⟨30, 28, .rw, 0x0, none⟩]⟩]
def regs04_2 : List RegDesc :=
  [⟨R.NEXTALLOC 0, 4096, 0x10, 1, 4, 1, 4, [⟨31, 0, .ro, 0x0, some 0x0⟩]⟩,
   ⟨R.NEXTREL 0, 4096, 0x10, 1, 4, 1, 4, [⟨31, 0, .ro, 0x0, some 0x0⟩]⟩,
   ⟨R.FLOWPEND 0, 4096, 0x10, 1, 4, 1, 4, [⟨31, 31, .ro, 0x0, some 0x0⟩, ⟨20, 0, .ro, 0x0, some 0x0⟩]⟩]
/-- The registers of the block at 0x0400000. -/
def regs04 : List RegDesc := regs04_0 ++ regs04_1 ++ regs04_2

def regs05_0 : List RegDesc :=
  [⟨R.TVECLO 0, 32, 0x1000, 1, 4, 1, 4, [⟨31, 2, .rw, 0x0, none⟩]⟩,
   ⟨R.TVECHI 0, 32, 0x1000, 1, 4, 1, 4, [⟨15, 0, .rw, 0x0, none⟩]⟩,
   ⟨R.TSAVE 0, 32, 0x1000, 1, 4, 1, 4, [⟨23, 6, .rw, 0x0, none⟩]⟩,
   ⟨R.TNEST 0, 32, 0x1000, 1, 4, 1, 4, [⟨31, 31, .w1c, 0x0, none⟩, ⟨7, 0, .ro, 0x0, none⟩]⟩,
   ⟨R.TNPCLO 0, 32, 0x1000, 1, 4, 1, 4, [⟨31, 0, .ro, 0x0, none⟩]⟩,
   ⟨R.TNPCHI 0, 32, 0x1000, 1, 4, 1, 4, [⟨15, 0, .ro, 0x0, none⟩]⟩,
   ⟨R.MCCTL 0, 32, 0x1000, 1, 4, 1, 4, [⟨0, 0, .rw, 0x0, none⟩]⟩,
   ⟨R.MCLEN 0, 32, 0x1000, 1, 4, 1, 4, [⟨25, 13, .ro, 0x0, none⟩, ⟨12, 0, .ro, 0x0, none⟩]⟩,
   ⟨R.CORG 0, 32, 0x1000, 1, 4, 1, 4, [⟨11, 0, .ro, 0x0, none⟩]⟩,
   ⟨R.WINCTL 0 0, 32, 0x1000, 8, 16, 1, 4, [⟨3, 3, .rw, 0x0, some 0x0⟩, ⟨2, 2, .rw, 0x0, some 0x0⟩, ⟨1, 1, .rw, 0x0, some 0x0⟩, ⟨0, 0, .rw, 0x0, some 0x0⟩]⟩,
   ⟨R.WINBASELO 0 0, 32, 0x1000, 8, 16, 1, 4, [⟨31, 12, .rw, 0x0, some 0x0⟩]⟩,
   ⟨R.WINHI 0 0, 32, 0x1000, 8, 16, 1, 4, [⟨31, 16, .rw, 0x0, some 0x0⟩, ⟨15, 0, .rw, 0x0, some 0x0⟩]⟩]
def regs05_1 : List RegDesc :=
  [⟨R.WINLIMLO 0 0, 32, 0x1000, 8, 16, 1, 4, [⟨31, 12, .rw, 0x0, some 0x0⟩]⟩,
   ⟨R.DTAB 0 0, 32, 0x1000, 128, 4, 1, 4, [⟨31, 0, .ro, 0x0, none⟩]⟩,
   ⟨R.PMATCH 0 0, 32, 0x1000, 32, 4, 1, 4, [⟨31, 0, .ro, 0x0, none⟩]⟩,
   ⟨R.IMGLO, 1, 0x4, 1, 4, 1, 4, [⟨31, 0, .rw, 0x0, none⟩]⟩,
   ⟨R.IMGHI, 1, 0x4, 1, 4, 1, 4, [⟨15, 0, .rw, 0x0, none⟩]⟩,
   ⟨R.MCCORES, 1, 0x4, 1, 4, 1, 4, [⟨31, 0, .rw, 0x0, none⟩]⟩,
   ⟨R.MCSTART, 1, 0x4, 1, 4, 1, 4, [⟨31, 31, .wo, 0x0, some 0x0⟩, ⟨30, 30, .ro, 0x0, some 0x0⟩, ⟨3, 0, .ro, 0x0, some 0x0⟩]⟩]
/-- The registers of the block at 0x0500000. -/
def regs05 : List RegDesc := regs05_0 ++ regs05_1

def regs06_0 : List RegDesc :=
  [⟨R.NEPOCH, 1, 0x4, 1, 4, 1, 4, [⟨31, 31, .wo, 0x0, some 0x0⟩, ⟨30, 30, .ro, 0x0, some 0x0⟩, ⟨29, 29, .ro, 0x0, some 0x0⟩, ⟨19, 0, .ro, 0x0, some 0x0⟩]⟩,
   ⟨R.NREPLAY, 1, 0x4, 1, 4, 1, 4, [⟨31, 0, .rc, 0x0, none⟩]⟩,
   ⟨R.NISODISC, 1, 0x4, 1, 4, 1, 4, [⟨31, 0, .rc, 0x0, none⟩]⟩,
   ⟨R.NRSPDISC, 1, 0x4, 1, 4, 1, 4, [⟨31, 0, .rc, 0x0, none⟩]⟩,
   ⟨R.NTBLREJ, 1, 0x4, 1, 4, 1, 4, [⟨31, 0, .rc, 0x0, none⟩]⟩,
   ⟨R.NRTAB 0 0 0, 36, 0x80, 2, 64, 9, 4, [⟨29, 27, .rw, 0x0, some 0x0⟩, ⟨26, 24, .rw, 0x0, some 0x0⟩, ⟨21, 19, .rw, 0x0, some 0x0⟩, ⟨18, 16, .rw, 0x0, some 0x0⟩, ⟨13, 11, .rw, 0x0, some 0x0⟩, ⟨10, 8, .rw, 0x0, some 0x0⟩, ⟨5, 3, .rw, 0x0, some 0x0⟩, ⟨2, 0, .rw, 0x0, some 0x0⟩]⟩,
   ⟨R.NLSTAT 0, 36, 0x4, 1, 4, 1, 4, [⟨31, 0, .w1c, 0x0, some 0x0⟩]⟩,
   ⟨R.NTILE 0, 36, 0x4, 1, 4, 1, 4, [⟨31, 31, .rw, 0x0, none⟩, ⟨30, 30, .rw, 0x0, none⟩, ⟨29, 29, .ro, 0x0, some 0x0⟩, ⟨23, 16, .ro, 0x0, some 0x0⟩, ⟨7, 7, .ro, 0x0, some 0x0⟩, ⟨6, 6, .ro, 0x0, some 0x0⟩, ⟨3, 0, .ro, 0x0, none⟩]⟩,
   ⟨R.NREG 0, 5, 0x4, 1, 4, 1, 4, [⟨31, 31, .rw, 0x0, some 0x0⟩, ⟨30, 30, .rw, 0x0, none⟩, ⟨29, 29, .rw, 0x1, none⟩, ⟨3, 0, .ro, 0x0, some 0x0⟩]⟩,
   ⟨R.NDIE 0, 6, 0x4, 1, 4, 1, 4, [⟨31, 31, .rw, 0x1, none⟩, ⟨3, 0, .ro, 0x4, some 0x0⟩]⟩,
   ⟨R.DPLCTL 0, 7, 0x20, 1, 4, 1, 4, [⟨31, 31, .rw, 0x1, none⟩, ⟨30, 30, .rw, 0x0, none⟩, ⟨26, 26, .rw, 0x1, none⟩, ⟨25, 23, .ro, 0x1, some 0x1⟩, ⟨22, 19, .ro, 0x0, none⟩, ⟨18, 15, .ro, 0x0, none⟩, ⟨7, 0, .ro, 0x0, none⟩]⟩,
   ⟨R.DPLMAPLO 0, 7, 0x20, 1, 4, 1, 4, [⟨31, 0, .ro, 0xFFFFFFFF, none⟩]⟩]
def regs06_1 : List RegDesc :=
  [⟨R.DPLMAPHI 0, 7, 0x20, 1, 4, 1, 4, [⟨31, 0, .ro, 0xFFFFFFFF, none⟩]⟩,
   ⟨R.DPLCRC 0, 7, 0x20, 1, 4, 1, 4, [⟨31, 0, .rc, 0x0, none⟩]⟩,
   ⟨R.DPLRPL 0, 7, 0x20, 1, 4, 1, 4, [⟨31, 0, .rc, 0x0, none⟩]⟩]
/-- The registers of the block at 0x0600000. -/
def regs06 : List RegDesc := regs06_0 ++ regs06_1

def regs07_0 : List RegDesc :=
  [⟨R.MCCFG 0, 4, 0x1000, 1, 4, 1, 4, [⟨31, 31, .rw, 0x0, none⟩, ⟨30, 28, .ro, 0x0, some 0x0⟩, ⟨23, 16, .ro, 0x0, none⟩, ⟨9, 8, .rw, 0x1, none⟩, ⟨7, 7, .rw, 0x1, none⟩, ⟨6, 4, .rw, 0x2, none⟩]⟩,
   ⟨R.MCINIT 0, 4, 0x1000, 1, 4, 1, 4, [⟨31, 31, .wo, 0x0, some 0x0⟩, ⟨30, 30, .ro, 0x0, some 0x0⟩]⟩,
   ⟨R.MCECC 0, 4, 0x1000, 1, 4, 1, 4, [⟨31, 16, .rc, 0x0, none⟩, ⟨15, 0, .rc, 0x0, none⟩]⟩,
   ⟨R.MCWDISC 0, 4, 0x1000, 1, 4, 1, 4, [⟨31, 0, .rc, 0x0, none⟩]⟩,
   ⟨R.MCELOC0 0, 4, 0x1000, 1, 4, 1, 4, [⟨31, 4, .ro, 0x0, none⟩]⟩,
   ⟨R.MCELOC1 0, 4, 0x1000, 1, 4, 1, 4, [⟨31, 31, .w1c, 0x0, none⟩, ⟨30, 30, .ro, 0x0, none⟩, ⟨29, 25, .ro, 0x0, none⟩, ⟨23, 22, .ro, 0x0, none⟩, ⟨15, 0, .ro, 0x0, none⟩]⟩,
   ⟨R.MCSCRCTL 0, 4, 0x1000, 1, 4, 1, 4, [⟨31, 30, .rw, 0x0, none⟩, ⟨26, 16, .rw, 0x410, none⟩, ⟨7, 0, .rw, 0x1, none⟩]⟩,
   ⟨R.MCSCRPOS 0, 4, 0x1000, 1, 4, 1, 4, [⟨28, 0, .ro, 0x0, none⟩]⟩,
   ⟨R.MCSCRPASS 0, 4, 0x1000, 1, 4, 1, 4, [⟨31, 0, .ro, 0x0, none⟩]⟩,
   ⟨R.UMSCRCTL 0, 5, 0x20, 1, 4, 1, 4, [⟨31, 30, .rw, 0x0, none⟩, ⟨26, 16, .rw, 0x410, none⟩, ⟨7, 0, .rw, 0x1, none⟩]⟩,
   ⟨R.UECC 0, 5, 0x20, 1, 4, 1, 4, [⟨31, 16, .rc, 0x0, none⟩, ⟨15, 0, .rc, 0x0, none⟩]⟩,
   ⟨R.UELOC0 0, 5, 0x20, 1, 4, 1, 4, [⟨31, 4, .ro, 0x0, none⟩]⟩]
def regs07_1 : List RegDesc :=
  [⟨R.UELOC1 0, 5, 0x20, 1, 4, 1, 4, [⟨31, 31, .w1c, 0x0, none⟩, ⟨30, 30, .ro, 0x0, none⟩, ⟨29, 25, .ro, 0x0, none⟩, ⟨23, 22, .ro, 0x0, none⟩, ⟨15, 0, .ro, 0x0, none⟩]⟩,
   ⟨R.UMWDISC 0, 5, 0x20, 1, 4, 1, 4, [⟨31, 0, .rc, 0x0, none⟩]⟩,
   ⟨R.UMSCRPOS 0, 5, 0x20, 1, 4, 1, 4, [⟨23, 0, .ro, 0x0, none⟩]⟩,
   ⟨R.L1ERR 0, 32, 0x4, 1, 4, 1, 4, [⟨31, 0, .rc, 0x0, none⟩]⟩,
   ⟨R.MEMCLR, 1, 0x4, 1, 4, 1, 4, [⟨31, 31, .ro, 0x0, some 0x0⟩, ⟨6, 0, .wo, 0x0, some 0x0⟩]⟩]
/-- The registers of the block at 0x0700000. -/
def regs07 : List RegDesc := regs07_0 ++ regs07_1

def regs08_0 : List RegDesc :=
  [⟨R.ECTL, 1, 0x4, 1, 4, 1, 4, [⟨31, 31, .wo, 0x0, some 0x0⟩, ⟨30, 30, .rw, 0x0, none⟩, ⟨29, 28, .ro, 0x0, some 0x0⟩]⟩,
   ⟨R.WETLIM, 1, 0x4, 1, 4, 1, 4, [⟨12, 0, .rw, 0x0, none⟩]⟩,
   ⟨R.DRYRATE, 1, 0x4, 1, 4, 1, 4, [⟨23, 0, .rw, 0x0, none⟩]⟩,
   ⟨R.DRYMARGIN, 1, 0x4, 1, 4, 1, 4, [⟨23, 0, .rw, 0x0, none⟩]⟩,
   ⟨R.ADMITTED, 1, 0x4, 1, 4, 1, 4, [⟨31, 0, .ro, 0x0, some 0x0⟩]⟩,
   ⟨R.WET, 1, 0x4, 1, 4, 1, 4, [⟨31, 0, .ro, 0x0, some 0x0⟩]⟩,
   ⟨R.BORROWAT, 1, 0x4, 1, 4, 1, 4, [⟨12, 0, .rw, 0x0, none⟩]⟩,
   ⟨R.RSVX, 1, 0x4, 1, 4, 1, 4, [⟨31, 16, .rw, 0x4000, none⟩, ⟨15, 0, .rw, 0x6000, none⟩]⟩,
   ⟨R.SIGCOAL, 1, 0x4, 1, 4, 1, 4, [⟨31, 0, .rc, 0x0, none⟩]⟩,
   ⟨R.RSVDROP, 1, 0x4, 1, 4, 1, 4, [⟨31, 0, .rc, 0x0, none⟩]⟩,
   ⟨R.DRYBYTESLO, 1, 0x4, 1, 4, 1, 4, [⟨31, 0, .ro, 0x0, none⟩]⟩,
   ⟨R.DRYBYTESHI, 1, 0x4, 1, 4, 1, 4, [⟨31, 0, .ro, 0x0, none⟩]⟩]
def regs08_1 : List RegDesc :=
  [⟨R.SKCTL, 1, 0x4, 1, 4, 1, 4, [⟨31, 31, .wo, 0x0, some 0x0⟩, ⟨30, 30, .wo, 0x0, some 0x0⟩, ⟨29, 28, .ro, 0x0, some 0x0⟩, ⟨15, 0, .ro, 0x0, some 0x0⟩]⟩,
   ⟨R.SKADDRLO, 1, 0x4, 1, 4, 1, 4, [⟨31, 0, .rw, 0x0, none⟩]⟩,
   ⟨R.SKADDRHI, 1, 0x4, 1, 4, 1, 4, [⟨15, 0, .rw, 0x0, none⟩]⟩,
   ⟨R.CSABASELO, 1, 0x4, 1, 4, 1, 4, [⟨31, 0, .rw, 0x0, none⟩]⟩,
   ⟨R.CSABASEHI, 1, 0x4, 1, 4, 1, 4, [⟨15, 0, .rw, 0x0, none⟩]⟩,
   ⟨R.ERCTL 0, 4, 0x40, 1, 4, 1, 4, [⟨31, 31, .rw, 0x0, some 0x0⟩, ⟨30, 28, .rw, 0x0, none⟩, ⟨27, 27, .ro, 0x0, some 0x0⟩, ⟨23, 16, .rw, 0x0, none⟩, ⟨12, 0, .rw, 0x10, none⟩]⟩,
   ⟨R.ERBASELO 0, 4, 0x40, 1, 4, 1, 4, [⟨31, 21, .rw, 0x0, none⟩]⟩,
   ⟨R.ERBASEHI 0, 4, 0x40, 1, 4, 1, 4, [⟨15, 0, .rw, 0x0, none⟩]⟩,
   ⟨R.ERDRY 0, 4, 0x40, 1, 4, 1, 4, [⟨26, 16, .rw, 0x410, none⟩, ⟨15, 0, .rw, 0x40, none⟩]⟩,
   ⟨R.DRYR 0, 4, 0x40, 1, 4, 1, 4, [⟨31, 0, .rw, 0x0, none⟩]⟩,
   ⟨R.SEGMAX 0, 4, 0x40, 1, 4, 1, 4, [⟨10, 0, .rw, 0x400, none⟩]⟩,
   ⟨R.WSEQLO 0, 4, 0x40, 1, 4, 1, 4, [⟨31, 0, .ro, 0x0, none⟩]⟩]
def regs08_2 : List RegDesc :=
  [⟨R.WSEQHI 0, 4, 0x40, 1, 4, 1, 4, [⟨31, 0, .ro, 0x0, none⟩]⟩,
   ⟨R.DSEQLO 0, 4, 0x40, 1, 4, 1, 4, [⟨31, 0, .ro, 0x0, none⟩]⟩,
   ⟨R.DSEQHI 0, 4, 0x40, 1, 4, 1, 4, [⟨31, 0, .ro, 0x0, none⟩]⟩,
   ⟨R.MSEQLO 0, 4, 0x40, 1, 4, 1, 4, [⟨31, 0, .ro, 0x0, none⟩]⟩,
   ⟨R.MSEQHI 0, 4, 0x40, 1, 4, 1, 4, [⟨31, 0, .ro, 0x0, none⟩]⟩,
   ⟨R.QOCC 0, 4, 0x40, 1, 4, 1, 4, [⟨6, 0, .ro, 0x0, some 0x0⟩]⟩,
   ⟨R.TGT 0, 8, 0x40, 1, 4, 1, 4, [⟨31, 31, .rw, 0x0, some 0x0⟩, ⟨30, 30, .rw, 0x0, none⟩, ⟨29, 27, .rw, 0x0, none⟩, ⟨26, 26, .rw, 0x0, none⟩, ⟨25, 25, .rw, 0x1, none⟩, ⟨24, 23, .ro, 0x0, some 0x0⟩, ⟨11, 0, .rw, 0x40, none⟩]⟩,
   ⟨R.SQBASELO 0, 8, 0x40, 1, 4, 1, 4, [⟨31, 12, .rw, 0x0, none⟩]⟩,
   ⟨R.SQBASEHI 0, 8, 0x40, 1, 4, 1, 4, [⟨15, 0, .rw, 0x0, none⟩]⟩,
   ⟨R.CQBASELO 0, 8, 0x40, 1, 4, 1, 4, [⟨31, 12, .rw, 0x0, none⟩]⟩,
   ⟨R.CQBASEHI 0, 8, 0x40, 1, 4, 1, 4, [⟨15, 0, .rw, 0x0, none⟩]⟩,
   ⟨R.DBADDRLO 0, 8, 0x40, 1, 4, 1, 4, [⟨31, 2, .rw, 0x0, none⟩]⟩]
def regs08_3 : List RegDesc :=
  [⟨R.DBADDRHI 0, 8, 0x40, 1, 4, 1, 4, [⟨31, 0, .rw, 0x0, none⟩]⟩,
   ⟨R.NSID 0, 8, 0x40, 1, 4, 1, 4, [⟨31, 0, .rw, 0x1, none⟩]⟩,
   ⟨R.LBA0LO 0, 8, 0x40, 1, 4, 1, 4, [⟨31, 0, .rw, 0x0, none⟩]⟩,
   ⟨R.LBA0HI 0, 8, 0x40, 1, 4, 1, 4, [⟨31, 0, .rw, 0x0, none⟩]⟩,
   ⟨R.LBACNT 0, 8, 0x40, 1, 4, 1, 4, [⟨31, 0, .rw, 0x0, none⟩]⟩,
   ⟨R.TGTHEAD 0, 8, 0x40, 1, 4, 1, 4, [⟨31, 0, .ro, 0x0, none⟩]⟩,
   ⟨R.TGTTAIL 0, 8, 0x40, 1, 4, 1, 4, [⟨31, 0, .rw, 0x0, none⟩]⟩,
   ⟨R.ANCSTATE, 1, 0x4, 1, 4, 1, 4, [⟨1, 0, .ro, 0x0, none⟩]⟩,
   ⟨R.ANCDIRLO, 1, 0x4, 1, 4, 1, 4, [⟨31, 0, .ro, 0x0, none⟩]⟩,
   ⟨R.ANCDIRHI, 1, 0x4, 1, 4, 1, 4, [⟨15, 0, .ro, 0x0, none⟩]⟩,
   ⟨R.ANCWSEQLO 0, 4, 0x10, 1, 4, 1, 4, [⟨31, 0, .ro, 0x0, none⟩]⟩,
   ⟨R.ANCWSEQHI 0, 4, 0x10, 1, 4, 1, 4, [⟨31, 0, .ro, 0x0, none⟩]⟩]
def regs08_4 : List RegDesc :=
  [⟨R.ANCDSEQLO 0, 4, 0x10, 1, 4, 1, 4, [⟨31, 0, .ro, 0x0, none⟩]⟩,
   ⟨R.ANCDSEQHI 0, 4, 0x10, 1, 4, 1, 4, [⟨31, 0, .ro, 0x0, none⟩]⟩]
/-- The registers of the block at 0x0800000. -/
def regs08 : List RegDesc := regs08_0 ++ regs08_1 ++ regs08_2 ++ regs08_3 ++ regs08_4

def regs09_0 : List RegDesc :=
  [⟨R.LCTL 0, 16, 0x10000, 1, 4, 1, 4, [⟨31, 31, .rw, 0x0, none⟩, ⟨30, 30, .rw, 0x0, none⟩, ⟨29, 29, .rw, 0x1, none⟩, ⟨28, 28, .rw, 0x1, none⟩, ⟨27, 24, .rw, 0x0, none⟩, ⟨22, 20, .rw, 0x0, none⟩, ⟨3, 0, .ro, 0x0, some 0x0⟩]⟩,
   ⟨R.LTS 0, 16, 0x10000, 1, 4, 1, 4, [⟨31, 16, .rw, 0x0, none⟩, ⟨15, 0, .rw, 0x0, none⟩]⟩,
   ⟨R.PFC 0, 16, 0x10000, 1, 4, 1, 4, [⟨31, 31, .rw, 0x0, none⟩, ⟨30, 28, .rw, 0x3, none⟩, ⟨23, 16, .rw, 0xFF, none⟩]⟩,
   ⟨R.RXBASELO 0, 16, 0x10000, 1, 4, 1, 4, [⟨31, 5, .rw, 0x0, none⟩]⟩,
   ⟨R.RXBASEHI 0, 16, 0x10000, 1, 4, 1, 4, [⟨15, 0, .rw, 0x0, none⟩]⟩,
   ⟨R.RXSIZE 0, 16, 0x10000, 1, 4, 1, 4, [⟨31, 31, .rw, 0x0, some 0x0⟩, ⟨12, 0, .rw, 0x10, none⟩]⟩,
   ⟨R.RXHEAD 0, 16, 0x10000, 1, 4, 1, 4, [⟨11, 0, .ro, 0x0, some 0x0⟩]⟩,
   ⟨R.RXTAIL 0, 16, 0x10000, 1, 4, 1, 4, [⟨11, 0, .rw, 0x0, some 0x0⟩]⟩,
   ⟨R.TXBASELO 0, 16, 0x10000, 1, 4, 1, 4, [⟨31, 5, .rw, 0x0, none⟩]⟩,
   ⟨R.TXBASEHI 0, 16, 0x10000, 1, 4, 1, 4, [⟨15, 0, .rw, 0x0, none⟩]⟩,
   ⟨R.TXSIZE 0, 16, 0x10000, 1, 4, 1, 4, [⟨31, 31, .rw, 0x0, some 0x0⟩, ⟨12, 0, .rw, 0x10, none⟩]⟩,
   ⟨R.TXHEAD 0, 16, 0x10000, 1, 4, 1, 4, [⟨11, 0, .ro, 0x0, some 0x0⟩]⟩]
def regs09_1 : List RegDesc :=
  [⟨R.TXTAIL 0, 16, 0x10000, 1, 4, 1, 4, [⟨11, 0, .rw, 0x0, some 0x0⟩]⟩,
   ⟨R.RXERR 0, 16, 0x10000, 1, 4, 1, 4, [⟨31, 0, .rc, 0x0, none⟩]⟩,
   ⟨R.RXDROP 0, 16, 0x10000, 1, 4, 1, 4, [⟨31, 0, .rc, 0x0, none⟩]⟩,
   ⟨R.RXPAUSE 0, 16, 0x10000, 1, 4, 1, 4, [⟨31, 0, .rc, 0x0, none⟩]⟩,
   ⟨R.STBASELO 0, 2, 0x80000, 1, 4, 1, 4, [⟨31, 6, .rw, 0x0, none⟩]⟩,
   ⟨R.STBASEHI 0, 2, 0x80000, 1, 4, 1, 4, [⟨15, 0, .rw, 0x0, none⟩]⟩,
   ⟨R.STCTL 0, 2, 0x80000, 1, 4, 1, 4, [⟨31, 31, .wo, 0x0, some 0x0⟩, ⟨30, 30, .ro, 0x0, some 0x0⟩, ⟨29, 28, .rw, 0x0, none⟩, ⟨25, 16, .rw, 0x0, none⟩, ⟨3, 0, .ro, 0x0, some 0x0⟩]⟩,
   ⟨R.RSVBAND 0, 2, 0x80000, 1, 4, 1, 4, [⟨14, 0, .rw, 0x400, none⟩]⟩,
   ⟨R.RSVOCC 0, 2, 0x80000, 1, 4, 1, 4, [⟨15, 0, .ro, 0x0, some 0x0⟩]⟩,
   ⟨R.CLSDROP 0, 2, 0x80000, 1, 4, 1, 4, [⟨31, 0, .rc, 0x0, none⟩]⟩,
   ⟨R.STPART 0, 2, 0x80000, 1, 4, 1, 4, [⟨31, 0, .rc, 0x0, none⟩]⟩,
   ⟨R.STLATE 0, 2, 0x80000, 1, 4, 1, 4, [⟨31, 0, .rc, 0x0, none⟩]⟩]
/-- The registers of the block at 0x0900000. -/
def regs09 : List RegDesc := regs09_0 ++ regs09_1

def regs0A_0 : List RegDesc :=
  [⟨R.PCICFG, 1, 0x4, 1, 4, 1, 4, [⟨31, 31, .rw, 0x0, none⟩, ⟨30, 30, .rw, 0x0, none⟩, ⟨29, 29, .rw, 0x0, none⟩, ⟨27, 24, .rw, 0x8, none⟩, ⟨21, 20, .rw, 0x3, none⟩, ⟨18, 16, .rw, 0x0, none⟩, ⟨14, 12, .rw, 0x0, none⟩, ⟨10, 8, .rw, 0x0, none⟩, ⟨1, 0, .rw, 0x3, none⟩]⟩,
   ⟨R.PCISTAT, 1, 0x4, 1, 4, 1, 4, [⟨15, 12, .ro, 0x0, some 0x0⟩, ⟨11, 8, .ro, 0x0, some 0x0⟩, ⟨7, 4, .ro, 0x0, some 0x0⟩, ⟨3, 0, .ro, 0x0, some 0x0⟩]⟩,
   ⟨R.RPADDRLO, 1, 0x4, 1, 4, 1, 4, [⟨31, 0, .rw, 0x0, none⟩]⟩,
   ⟨R.RPADDRHI, 1, 0x4, 1, 4, 1, 4, [⟨31, 0, .rw, 0x0, none⟩]⟩,
   ⟨R.RPDATA, 1, 0x4, 1, 4, 1, 4, [⟨31, 0, .rw, 0x0, none⟩]⟩,
   ⟨R.RPCMD, 1, 0x4, 1, 4, 1, 4, [⟨31, 31, .wo, 0x0, some 0x0⟩, ⟨30, 30, .ro, 0x0, some 0x0⟩, ⟨29, 28, .rw, 0x0, none⟩, ⟨24, 24, .rw, 0x0, none⟩, ⟨3, 0, .ro, 0x0, some 0x0⟩]⟩,
   ⟨R.RPUR, 1, 0x4, 1, 4, 1, 4, [⟨31, 0, .rc, 0x0, none⟩]⟩,
   ⟨R.MBDB, 1, 0x4, 1, 4, 1, 4, [⟨7, 0, .w1s, 0x0, some 0x0⟩]⟩,
   ⟨R.MBDONE, 1, 0x4, 1, 4, 1, 4, [⟨7, 0, .w1c, 0x0, some 0x0⟩]⟩,
   ⟨R.MBERR, 1, 0x4, 1, 4, 1, 4, [⟨31, 0, .rc, 0x0, none⟩]⟩,
   ⟨R.MBCMD 0 0, 8, 0x40, 16, 4, 1, 4, [⟨31, 0, .rw, 0x0, some 0x0⟩]⟩,
   ⟨R.MBRSP 0 0, 8, 0x40, 16, 4, 1, 4, [⟨31, 0, .ro, 0x0, some 0x0⟩]⟩]
/-- The registers of the block at 0x0A00000. -/
def regs0A : List RegDesc := regs0A_0

def regs0B_0 : List RegDesc :=
  [⟨R.FCFG, 1, 0x4, 1, 4, 1, 4, [⟨1, 0, .ro, 0x0, none⟩]⟩,
   ⟨R.FIMGLO, 1, 0x4, 1, 4, 1, 4, [⟨31, 0, .rw, 0x0, none⟩]⟩,
   ⟨R.FIMGHI, 1, 0x4, 1, 4, 1, 4, [⟨15, 0, .rw, 0x0, none⟩]⟩,
   ⟨R.FLOAD, 1, 0x4, 1, 4, 1, 4, [⟨31, 31, .wo, 0x0, some 0x0⟩, ⟨30, 30, .ro, 0x0, some 0x0⟩, ⟨3, 0, .ro, 0x0, some 0x0⟩]⟩,
   ⟨R.FCONT, 1, 0x4, 1, 4, 1, 4, [⟨31, 31, .w1c, 0x0, none⟩, ⟨27, 24, .ro, 0x0, none⟩, ⟨21, 16, .ro, 0x0, none⟩]⟩,
   ⟨R.FCCNT, 1, 0x4, 1, 4, 1, 4, [⟨31, 0, .rc, 0x0, none⟩]⟩,
   ⟨R.FREG 0, 16, 0x10, 1, 4, 1, 4, [⟨31, 31, .wo, 0x0, some 0x0⟩, ⟨30, 30, .rw, 0x0, none⟩, ⟨26, 24, .rw, 0x0, none⟩, ⟨19, 16, .rw, 0x0, none⟩, ⟨2, 0, .ro, 0x0, some 0x0⟩]⟩,
   ⟨R.BMCOLL 0, 16, 0x10, 1, 4, 1, 4, [⟨31, 0, .rc, 0x0, none⟩]⟩,
   ⟨R.FPORT 0, 8, 0x20, 1, 4, 1, 4, [⟨31, 31, .rw, 0x0, none⟩, ⟨27, 24, .rw, 0x0, none⟩, ⟨19, 16, .rw, 0x0, none⟩, ⟨15, 0, .rw, 0x0, none⟩]⟩,
   ⟨R.MWBASELO 0, 8, 0x20, 1, 4, 1, 4, [⟨31, 12, .rw, 0x0, none⟩]⟩,
   ⟨R.MWBASEHI 0, 8, 0x20, 1, 4, 1, 4, [⟨15, 0, .rw, 0x0, none⟩]⟩,
   ⟨R.MWLIMLO 0, 8, 0x20, 1, 4, 1, 4, [⟨31, 12, .rw, 0x0, none⟩]⟩]
def regs0B_1 : List RegDesc :=
  [⟨R.MWLIMHI 0, 8, 0x20, 1, 4, 1, 4, [⟨15, 0, .rw, 0x0, none⟩]⟩,
   ⟨R.MERR 0, 8, 0x20, 1, 4, 1, 4, [⟨31, 0, .rc, 0x0, none⟩]⟩,
   ⟨R.TOCNT 0, 8, 0x20, 1, 4, 1, 4, [⟨31, 0, .rc, 0x0, none⟩]⟩,
   ⟨R.IOIN 0, 4, 0x4, 1, 4, 1, 4, [⟨23, 0, .ro, 0x0, some 0x0⟩]⟩,
   ⟨R.FRAWADDR, 1, 0x4, 1, 4, 1, 4, [⟨31, 0, .rw, 0x0, none⟩]⟩,
   ⟨R.FRAWGO, 1, 0x4, 1, 4, 1, 4, [⟨31, 31, .wo, 0x0, some 0x0⟩]⟩,
   ⟨R.FRAWBUF 0, 32, 0x4, 1, 4, 1, 4, [⟨31, 0, .rw, 0x0, none⟩]⟩]
/-- The registers of the block at 0x0B00000. -/
def regs0B : List RegDesc := regs0B_0 ++ regs0B_1

def regs0C_0 : List RegDesc :=
  [⟨R.PCFG 0, 8, 0x10, 1, 4, 1, 4, [⟨31, 31, .ro, 0x0, none⟩, ⟨30, 30, .ro, 0x0, none⟩, ⟨3, 0, .ro, 0x0, none⟩]⟩,
   ⟨R.PCORES 0, 8, 0x10, 1, 4, 1, 4, [⟨31, 0, .ro, 0x0, none⟩]⟩,
   ⟨R.BTCTL, 1, 0x4, 1, 4, 1, 4, [⟨31, 31, .rw, 0x0, some 0x0⟩, ⟨26, 16, .rw, 0x410, none⟩, ⟨3, 0, .rw, 0x0, none⟩]⟩,
   ⟨R.BTPERIOD, 1, 0x4, 1, 4, 1, 4, [⟨31, 0, .rw, 0x10000, none⟩]⟩,
   ⟨R.BTPOSLO, 1, 0x4, 1, 4, 1, 4, [⟨31, 0, .ro, 0x0, none⟩]⟩,
   ⟨R.BTPOSHI, 1, 0x4, 1, 4, 1, 4, [⟨15, 0, .ro, 0x0, none⟩]⟩,
   ⟨R.BTFAIL, 1, 0x4, 1, 4, 1, 4, [⟨31, 31, .w1c, 0x0, none⟩, ⟨7, 0, .ro, 0x0, none⟩]⟩,
   ⟨R.BTSTEPS, 1, 0x4, 1, 4, 1, 4, [⟨31, 0, .rc, 0x0, none⟩]⟩,
   ⟨R.BTABAND, 1, 0x4, 1, 4, 1, 4, [⟨31, 0, .rc, 0x0, none⟩]⟩,
   ⟨R.JCTL, 1, 0x4, 1, 4, 1, 4, [⟨31, 31, .rw, 0x0, none⟩, ⟨19, 0, .rw, 0x1, none⟩]⟩,
   ⟨R.JBASELO, 1, 0x4, 1, 4, 1, 4, [⟨31, 12, .rw, 0x0, none⟩]⟩,
   ⟨R.JBASEHI, 1, 0x4, 1, 4, 1, 4, [⟨15, 0, .rw, 0x0, none⟩]⟩]
def regs0C_1 : List RegDesc :=
  [⟨R.JWR, 1, 0x4, 1, 4, 1, 4, [⟨31, 0, .ro, 0x0, none⟩]⟩,
   ⟨R.JDROP, 1, 0x4, 1, 4, 1, 4, [⟨31, 0, .rc, 0x0, none⟩]⟩,
   ⟨R.ALARMSTAT, 1, 0x4, 1, 4, 1, 4, [⟨3, 0, .w1c, 0x0, none⟩]⟩,
   ⟨R.TKCTL, 1, 0x4, 1, 4, 1, 4, [⟨31, 31, .rw, 0x0, none⟩, ⟨27, 25, .ro, 0x0, some 0x0⟩]⟩,
   ⟨R.MPCFG 0, 256, 0x4, 1, 4, 1, 4, [⟨31, 31, .rw, 0x0, none⟩, ⟨30, 30, .rw, 0x0, none⟩, ⟨2, 0, .rw, 0x0, none⟩]⟩,
   ⟨R.MTCTL, 1, 0x4, 1, 4, 1, 4, [⟨31, 31, .rw, 0x0, none⟩, ⟨30, 30, .rw, 0x0, none⟩, ⟨29, 29, .rw, 0x0, none⟩]⟩,
   ⟨R.MTBASELO, 1, 0x4, 1, 4, 1, 4, [⟨31, 12, .rw, 0x0, none⟩]⟩,
   ⟨R.MTBASEHI, 1, 0x4, 1, 4, 1, 4, [⟨15, 0, .rw, 0x0, none⟩]⟩,
   ⟨R.MTSIZE, 1, 0x4, 1, 4, 1, 4, [⟨20, 0, .rw, 0x1, none⟩]⟩,
   ⟨R.MTWR, 1, 0x4, 1, 4, 1, 4, [⟨31, 0, .ro, 0x0, none⟩]⟩,
   ⟨R.MTLOST, 1, 0x4, 1, 4, 1, 4, [⟨31, 0, .rc, 0x0, none⟩]⟩,
   ⟨R.TPCTL, 1, 0x4, 1, 4, 1, 4, [⟨31, 31, .rw, 0x0, none⟩, ⟨1, 0, .rw, 0x0, none⟩]⟩]
/-- The registers of the block at 0x0C00000. -/
def regs0C : List RegDesc := regs0C_0 ++ regs0C_1

def regs0D_0 : List RegDesc :=
  [⟨R.DBGCTL, 1, 0x4, 1, 4, 1, 4, [⟨31, 31, .rw, 0x0, none⟩, ⟨30, 30, .rw, 0x0, none⟩, ⟨29, 29, .rw, 0x0, none⟩, ⟨5, 5, .ro, 0x0, none⟩, ⟨4, 4, .ro, 0x0, none⟩, ⟨3, 2, .ro, 0x0, none⟩, ⟨1, 0, .ro, 0x0, none⟩]⟩,
   ⟨R.DCTL 0, 32, 0x100, 1, 4, 1, 4, [⟨31, 31, .w1s, 0x0, some 0x0⟩, ⟨30, 29, .wo, 0x0, some 0x0⟩, ⟨28, 28, .rw, 0x0, none⟩, ⟨27, 27, .rw, 0x1, none⟩, ⟨26, 26, .rw, 0x0, none⟩]⟩,
   ⟨R.DSTAT 0, 32, 0x100, 1, 4, 1, 4, [⟨31, 31, .ro, 0x0, some 0x0⟩, ⟨30, 30, .ro, 0x0, some 0x0⟩, ⟨29, 29, .ro, 0x0, some 0x0⟩, ⟨3, 0, .ro, 0x0, some 0x0⟩]⟩,
   ⟨R.DRSEL 0, 32, 0x100, 1, 4, 1, 4, [⟨8, 0, .rw, 0x0, none⟩]⟩,
   ⟨R.DRDATALO 0, 32, 0x100, 1, 4, 1, 4, [⟨31, 0, .rw, 0x0, some 0x0⟩]⟩,
   ⟨R.DRDATAHI 0, 32, 0x100, 1, 4, 1, 4, [⟨31, 0, .rw, 0x0, some 0x0⟩]⟩,
   ⟨R.DW 0 0, 32, 0x100, 8, 16, 1, 4, [⟨31, 30, .rw, 0x0, none⟩, ⟨29, 28, .rw, 0x0, none⟩, ⟨21, 16, .rw, 0x0, none⟩]⟩,
   ⟨R.DWADDRLO 0 0, 32, 0x100, 8, 16, 1, 4, [⟨31, 0, .rw, 0x0, none⟩]⟩,
   ⟨R.DWADDRHI 0 0, 32, 0x100, 8, 16, 1, 4, [⟨15, 0, .rw, 0x0, none⟩]⟩,
   ⟨R.DWHITS 0 0, 32, 0x100, 8, 16, 1, 4, [⟨31, 0, .rc, 0x0, none⟩]⟩,
   ⟨R.DGCTL 0, 24, 0x10, 1, 4, 1, 4, [⟨31, 31, .w1s, 0x0, some 0x0⟩, ⟨30, 29, .wo, 0x0, some 0x0⟩, ⟨0, 0, .ro, 0x0, some 0x0⟩]⟩,
   ⟨R.DGINJ 0 0, 24, 0x10, 3, 4, 1, 4, [⟨31, 0, .rw, 0x0, some 0x0⟩]⟩]
def regs0D_1 : List RegDesc :=
  [⟨R.OVS 0, 32, 0x8, 1, 4, 1, 4, [⟨31, 31, .rw, 0x0, none⟩, ⟨30, 30, .rw, 0x0, none⟩, ⟨20, 16, .rw, 0x0, none⟩, ⟨9, 0, .rw, 0x0, none⟩]⟩,
   ⟨R.OVSLO 0, 32, 0x8, 1, 4, 1, 4, [⟨31, 0, .rw, 0x0, none⟩]⟩,
   ⟨R.PATCHRAM 0, 512, 0x4, 1, 4, 1, 4, [⟨31, 0, .rw, 0x0, none⟩]⟩]
/-- The registers of the block at 0x0D00000. -/
def regs0D : List RegDesc := regs0D_0 ++ regs0D_1

def regs0E_0 : List RegDesc :=
  [⟨R.BOOTSTAT, 1, 0x4, 1, 4, 1, 4, [⟨31, 28, .ro, 0x0, some 0x0⟩, ⟨27, 24, .ro, 0x0, some 0x0⟩, ⟨21, 20, .ro, 0x0, some 0x0⟩, ⟨19, 19, .ro, 0x0, some 0x0⟩, ⟨18, 18, .ro, 0x0, some 0x1⟩, ⟨15, 0, .ro, 0x0, some 0x0⟩]⟩,
   ⟨R.CALSTAT, 1, 0x4, 1, 4, 1, 4, [⟨2, 0, .ro, 0x0, none⟩]⟩,
   ⟨R.BOOTCTL, 1, 0x4, 1, 4, 1, 4, [⟨31, 31, .wo, 0x0, some 0x0⟩]⟩,
   ⟨R.MCIMGPLO, 1, 0x4, 1, 4, 1, 4, [⟨31, 0, .rw, 0x0, none⟩]⟩,
   ⟨R.MCIMGPHI, 1, 0x4, 1, 4, 1, 4, [⟨15, 0, .rw, 0x0, none⟩]⟩,
   ⟨R.MCIMGCLO, 1, 0x4, 1, 4, 1, 4, [⟨31, 0, .rw, 0x0, none⟩]⟩,
   ⟨R.MCIMGCHI, 1, 0x4, 1, 4, 1, 4, [⟨15, 0, .rw, 0x0, none⟩]⟩,
   ⟨R.FUSEPRG, 1, 0x4, 1, 4, 1, 4, [⟨31, 31, .wo, 0x0, some 0x0⟩, ⟨30, 30, .ro, 0x0, some 0x0⟩, ⟨18, 16, .rw, 0x0, none⟩, ⟨4, 0, .ro, 0x0, none⟩]⟩,
   ⟨R.FUSESTAT, 1, 0x4, 1, 4, 1, 4, [⟨1, 0, .ro, 0x0, some 0x0⟩]⟩,
   ⟨R.FUSEDATA 0, 8, 0x4, 1, 4, 1, 4, [⟨31, 0, .rw, 0x0, none⟩]⟩]
/-- The registers of the block at 0x0E00000. -/
def regs0E : List RegDesc := regs0E_0

def regs0F_0 : List RegDesc :=
  [⟨R.MIRCTL, 1, 0x4, 1, 4, 1, 4, [⟨31, 31, .rw, 0x0, some 0x0⟩, ⟨30, 30, .wo, 0x0, some 0x0⟩, ⟨29, 29, .rw, 0x0, none⟩, ⟨27, 25, .ro, 0x0, some 0x0⟩, ⟨4, 4, .rw, 0x0, none⟩, ⟨3, 0, .rw, 0x0, none⟩]⟩,
   ⟨R.MIRBASELO, 1, 0x4, 1, 4, 1, 4, [⟨31, 21, .rw, 0x0, none⟩]⟩,
   ⟨R.MIRBASEHI, 1, 0x4, 1, 4, 1, 4, [⟨15, 0, .rw, 0x0, none⟩]⟩,
   ⟨R.MIRSIZE, 1, 0x4, 1, 4, 1, 4, [⟨13, 0, .rw, 0x0, none⟩]⟩,
   ⟨R.MIRCRC, 1, 0x4, 1, 4, 1, 4, [⟨31, 0, .rc, 0x0, none⟩]⟩]
/-- The registers of the block at 0x0F00000. -/
def regs0F : List RegDesc := regs0F_0

/-- The registers of the 1 MiB block that holds offset `off`. -/
def regsOf (off : Nat) : List RegDesc :=
  match off / 0x100000 with
  | 0x0 => regs00
  | 0x1 => regs01
  | 0x2 => regs02
  | 0x3 => regs03
  | 0x4 => regs04
  | 0x5 => regs05
  | 0x6 => regs06
  | 0x7 => regs07
  | 0x8 => regs08
  | 0x9 => regs09
  | 0xA => regs0A
  | 0xB => regs0B
  | 0xC => regs0C
  | 0xD => regs0D
  | 0xE => regs0E
  | 0xF => regs0F
  | _ => []

/-- The indices of `off` in register `d`, when `off` is one of its instances. -/
def RegDesc.index (d : RegDesc) (off : Nat) : Option (Nat × Nat × Nat) :=
  if off < d.base then none else
  let r := off - d.base
  let r1 := r % d.s1
  let r1 := if d.n1 = 1 then r else r1
  let i := if d.n1 = 1 then 0 else r / d.s1
  let r2 := if d.n2 = 1 then r1 else r1 % d.s2
  let j := if d.n2 = 1 then 0 else r1 / d.s2
  let r3 := if d.n3 = 1 then r2 else r2 % d.s3
  let k := if d.n3 = 1 then 0 else r2 / d.s3
  if i < d.n1 && j < d.n2 && k < d.n3 && r3 == 0 then some (i, j, k) else none

/-- The register at offset `off`, with its indices. -/
def findReg (off : Nat) : Option (RegDesc × Nat × Nat × Nat) :=
  (regsOf off).findSome? (fun d => (d.index off).map (fun x => (d, x)))

/-- A field's mask in the register. -/
def Fld.mask (f : Fld) : Nat := (2 ^ (f.hi + 1 - f.lo) - 1) * 2 ^ f.lo

/-- The dimension-order port toward tile `d` from tile `r`: 0 local, 1 north, 2 east, 3 south, 4 west; x first, or
y first (R246). -/
def dimOrder (xFirst : Bool) (r d : Nat) : Nat :=
  let xr := r % 6
  let yr := r / 6
  let xd := d % 6
  let yd := d / 6
  let px := if xd > xr then 2 else if xd < xr then 4 else 0
  let py := if yd > yr then 3 else if yd < yr then 1 else 0
  if xFirst then (if px ≠ 0 then px else py) else (if py ≠ 0 then py else px)

/-- POR_N value of NRTAB[r][e][w]: PRI by dimension order with x first, ALT with y first. -/
def nrtabPor (r w : Nat) : Nat :=
  (List.range 4).foldl (fun a j =>
    a + (dimOrder true r (4 * w + j) + 8 * dimOrder false r (4 * w + j)) * 2 ^ (8 * j)) 0

/-- Number of hubs on a part (R3, R4). -/
def partHubs : PartNo → Nat
  | .yq8680 => 2
  | _ => 1
/-- Number of array dies on a part (R3, R4). -/
def partDies : PartNo → Nat
  | .yq8680 => 6
  | .yq8640 => 3
  | .yq8620 => 1
/-- Lanes of a hub (R4). -/
def partLanes : PartNo → Nat
  | .yq8620 => 8
  | _ => 16
/-- Main-memory channels of a hub (R4). -/
def partChans : PartNo → Nat
  | .yq8620 => 2
  | _ => 4

/-- IDENT of hub `h` (R10). -/
def identPor (p : PartNo) (h : Nat) : Nat :=
  (match p with
   | .yq8680 => 0x8680B020
   | .yq8640 => 0x8640B010
   | .yq8620 => 0x8620B010) + h

/-- CONFIG (R10). -/
def configPor : PartNo → Nat
  | .yq8680 => 0x20864018
  | .yq8640 => 0x1043200C
  | .yq8620 => 0x08212004

/-- DPL[k].PEER on hub `h`: the die at the far end of the link. -/
def dplPeer (p : PartNo) (h k : Nat) : Nat :=
  let a := if k < 3 then 3 * h + k else if k < 6 then (3 * (1 - h)) + (k - 3) else 0
  if k = 6 then (if p = .yq8680 then 0x11 - h else 0xFF)
  else if k < 3 then (if a < partDies p then a else 0xFF)
  else if p = .yq8680 then a else 0xFF

/-- POR_N values that depend on the part, the hub or the register's index; `none` where the fields give it. -/
def specialPor (p : PartNo) (h : Nat) (d : RegDesc) (i k : Nat) : Option Nat :=
  if d.base = R.IDENT then some (identPor p h) else
  if d.base = R.CONFIG then some (configPor p) else
  if d.base = R.MARKQ 0 then some (if i = 0 then 0x4000 else 0) else
  if d.base = R.SHSTAT 0 then some (if i < 12 then 0 else 0x800) else
  if d.base = R.SHGANG 0 then some (i * 0x100000 + 0x8400) else
  if d.base = R.CTXQ 0 then some (if i = 0 then 0x10000000 else 0) else
  if d.base = R.PGCAP 0 then some (if i = 0 then 0x40000 else 0) else
  if d.base = R.LIGQ 0 then some (if i = 0 then 0x10000 else 0) else
  if d.base = R.DPLCTL 0 then if p = .yq8680 || i < min 3 (partDies p) then some (0x84800000 + dplPeer p h i) else some 0 else
  if d.base = R.PCFG 0 then some (if i = 0 then 0xC0000000 + (2 ^ partChans p - 1) else 0) else
  if d.base = R.PCORES 0 then some (if i = 0 then 0xFFFFFFFF else 0) else
  if d.base = R.DPLMAPLO 0 then if p = .yq8680 || i < min 3 (partDies p) then none else some 0 else
  if d.base = R.DPLMAPHI 0 then if p = .yq8680 || i < min 3 (partDies p) then none else some 0 else
  if d.base = R.NRTAB 0 0 0 then some (nrtabPor i k) else
  none

/-- Window 0 covers the whole space after either reset (R169). -/
def windowPor (d : RegDesc) (j : Nat) : Option Nat :=
  if j ≠ 0 then none else
  if d.base = R.WINCTL 0 0 then some 0xF else
  if d.base = R.WINHI 0 0 then some 0xFFFF0000 else
  if d.base = R.WINLIMLO 0 0 then some 0xFFFFF000 else none

/-- The POR_N value of the register at offset `off` of hub `h` (R17). -/
def regPor (p : PartNo) (h off : Nat) : W32 :=
  match findReg off with
  | none => 0
  | some (d, i, j, k) =>
    match windowPor d j with
    | some v => BitVec.ofNat 32 v
    | none =>
      match specialPor p h d i k with
      | some v => BitVec.ofNat 32 v
      | none => BitVec.ofNat 32 (d.flds.foldl (fun a f => a + f.por * 2 ^ f.lo) 0)

/-- The value a register takes at WARM_N: fields marked U keep theirs (R17). -/
def regWarm (p : PartNo) (h off : Nat) (v : W32) : W32 :=
  match findReg off with
  | none => v
  | some (d, _, j, _) =>
    if (windowPor d j).isSome || d.base == R.SHGANG 0 || d.base == R.NRTAB 0 0 0 then regPor p h off else
    d.flds.foldl (fun a f => match f.warm with
      | none => a
      | some w => (a &&& ~~~(BitVec.ofNat 32 f.mask)) ||| BitVec.ofNat 32 (w * 2 ^ f.lo)) v

/-- Key of a register in `State.csr`. -/
def csrKey (h off : Nat) : Nat := 0x4000000 * h + off

/-- What an unlisted key of `State.csr` reads as. -/
def csrDflt (p : PartNo) (key : Nat) : W32 := regPor p (key / 0x4000000) (key % 0x4000000)

end Sys2Proof.Machine
end

