-- ==== Sys2Proof/Machine/Ops.lean ====
section
/-! DEFINITION. Named operations over the state that every family shares: registers and their fields, cores,
presence of resources, free values. -/
namespace Sys2Proof.Machine

/-- Outcome type of every meaning. -/
abbrev Out := Host.Outcome State Fault Refusal

/-! ## Bit fields -/

/-- Bits hi to lo of a word, as a number. -/
def fld {w : Nat} (v : BitVec w) (hi lo : Nat) : Nat := v.toNat / 2 ^ lo % 2 ^ (hi + 1 - lo)

/-- The word with bits hi to lo replaced by the low bits of `n`. -/
def setFld {w : Nat} (v : BitVec w) (hi lo n : Nat) : BitVec w :=
  let m := (BitVec.ofNat w (2 ^ (hi + 1 - lo) - 1)) <<< lo
  (v &&& ~~~m) ||| ((BitVec.ofNat w (n % 2 ^ (hi + 1 - lo))) <<< lo)

/-- Truth value as a number. -/
def b2n (b : Bool) : Nat := if b then 1 else 0

/-- Lower and upper halves of a 64-bit word. -/
def lo32 (v : W64) : W32 := v.setWidth 32
def hi32 (v : W64) : W32 := (v >>> 32).setWidth 32
/-- A 64-bit word of two halves. -/
def cat64 (hi lo : W32) : W64 := (hi.setWidth 64 <<< 32) ||| lo.setWidth 64

/-! ## Registers -/

/-- The register at offset `off` of hub `h`. -/
def csr (s : State) (h off : Nat) : W32 := tget (csrDflt s.part) s.csr (csrKey h off)

/-- Store a whole register; access codes are not applied here. -/
def setCsr (s : State) (h off : Nat) (v : W32) : State :=
  { s with csr := tset (csrDflt s.part) s.csr (csrKey h off) v }

/-- A field of a register. -/
def rdF (s : State) (h off hi lo : Nat) : Nat := fld (csr s h off) hi lo

/-- Write a field of a register from inside the device. -/
def wrF (s : State) (h off hi lo n : Nat) : State := setCsr s h off (setFld (csr s h off) hi lo n)

/-- A one-bit field. -/
def rdB (s : State) (h off b : Nat) : Bool := rdF s h off b b == 1
def wrB (s : State) (h off b : Nat) (v : Bool) : State := wrF s h off b b (b2n v)

/-- Add `n` to a counter field that saturates. -/
def bump (s : State) (h off hi lo n : Nat) : State :=
  wrF s h off hi lo (min (rdF s h off hi lo + n) (2 ^ (hi + 1 - lo) - 1))

/-- A value held in two registers, lower half first. -/
def csr64 (s : State) (h lo hi : Nat) : W64 := cat64 (csr s h hi) (csr s h lo)
def setCsr64 (s : State) (h lo hi : Nat) (v : W64) : State :=
  setCsr (setCsr s h lo (lo32 v)) h hi (hi32 v)

/-! ## Free values (Config) -/

/-- The machine after one free value has been drawn. -/
def drawn (s : State) : State := { s with fresh := s.fresh + 1 }

/-- One member of a list, left open which. -/
def pick {α : Type} (s : State) (l : List α) : State × Option α :=
  (drawn s, l[Config.freeNat s.fresh % l.length]?)

/-! ## Presence of resources (R3, R4) -/

def hubOk (s : State) (h : Nat) : Bool := decide (h < partHubs s.part)
def dieOk (s : State) (a : Nat) : Bool := decide (a < partDies s.part)
def sheetOk (s : State) (sh : Nat) : Bool := dieOk s (sh / 4)
def laneOk (s : State) (h n : Nat) : Bool := hubOk s h && decide (n < partLanes s.part)
def chanOk (s : State) (h k : Nat) : Bool := hubOk s h && decide (k < partChans s.part)

/-- The hub that homes array die `a` now (R364); at reset H[0] homes A[0] to A[2] and H[1] the others. -/
def dieHome (s : State) (a : Nat) : Nat := tget (fun a => if a < 3 then 0 else 1) s.arr.home a

/-- The hub that homes sheet `sh`. -/
def sheetHome (s : State) (sh : Nat) : Nat := dieHome s (sh / 4)

/-! ## Power domains (R257) -/

/-- Index of a domain in State.net: tile 64h + t, cluster 64h + 36 + g, fabric 64h + 40, sheet 128 + s, die 160 + a. -/
def domIx (h : Nat) : Domain → Nat
  | .tile t => 64 * h + t.val
  | .cluster g => 64 * h + 36 + g.val
  | .fabric => 64 * h + 40
  | .sheet s => 128 + s.val
  | .die a => 160 + a.val
/-- A die is waking after POR_N (NDIE.STATE); every other domain is on. -/
def domDflt (ix : Nat) : DomState := if 160 ≤ ix then .waking else .on
def domOf (s : State) (ix : Nat) : DomState := tget domDflt s.net.dom ix
def setDom (s : State) (ix : Nat) (d : DomState) : State :=
  { s with net := { s.net with dom := tset domDflt s.net.dom ix d } }

/-- Packets held at a domain's boundary, oldest first (R259). -/
def heldOf (s : State) (ix : Nat) : List (BitVec 96) := tget (fun _ => []) s.net.held ix
/-- Every held packet of a domain is delivered. -/
def deliverHeld (s : State) (ix : Nat) : State :=
  { s with net := { s.net with held := tset (fun _ => []) s.net.held ix [], emul := tset (fun _ => false) s.net.emul ix false } }

/-! ## Depol link states (R256) -/

def dplState (s : State) (h k : Nat) : Nat := rdF s h (R.DPLCTL k) 25 23
def setDplState (s : State) (h k st : Nat) : State := wrF s h (R.DPLCTL k) 25 23 st
/-- The link exists on this part. -/
def dplOk (s : State) (h k : Nat) : Bool := hubOk s h && dplPeer s.part h k != 0xFF && (k < 3 || s.part == .yq8680)
/-- Link index, on hub h, of the port to array die a. -/
def dieLink (h a : Nat) : Nat := if a / 3 = h then a % 3 else 3 + a % 3
/-- An array die starts its wake: its ports train again and its PWREN returns to 1 (R257). -/
def wakeDie (s : State) (a : Nat) : State :=
  let s := wrB (setDom s (160 + a) .waking) (dieHome s a) (R.NDIE a) 31 true
  (List.range 2).foldl (fun s j =>
    if dplOk s j (dieLink j a) && rdB s j (R.DPLCTL (dieLink j a)) 31 then setDplState s j (dieLink j a) 1 else s) s

/-! ## Cores -/

def coreIx (c : CoreId) : Nat := 32 * c.hub.val + c.num.val
def coreOf (i : Nat) : CoreId := ⟨⟨i / 32 % 2, Nat.mod_lt _ (by decide)⟩, ⟨i % 32, Nat.mod_lt _ (by decide)⟩⟩

/-- Core number `i` = 32h + c. -/
def getCore (s : State) (i : Nat) : Core := tget (fun _ => Core.reset) s.cpu.cores i
def setCore (s : State) (i : Nat) (c : Core) : State :=
  { s with cpu := { s.cpu with cores := tset (fun _ => Core.reset) s.cpu.cores i c } }
def updCore (s : State) (i : Nat) (f : Core → Core) : State := setCore s i (f (getCore s i))

/-- A general register: G0 reads 0 (R166). -/
def Core.gr (c : Core) (r : Nat) : W64 := if r = 0 then 0 else tget (fun _ => 0) c.g r
/-- Write a general register: a write to G0 is discarded (R166). -/
def Core.setG (c : Core) (r : Nat) (v : W64) : Core :=
  if r = 0 then c else { c with g := tset (fun _ => 0) c.g r v }
def Core.fr (c : Core) (r : Nat) : W64 := tget (fun _ => 0) c.f r
def Core.setFr (c : Core) (r : Nat) (v : W64) : Core := { c with f := tset (fun _ => 0) c.f r v }

/-- PSTAT bits (R168). -/
def Core.ps (c : Core) (b : Nat) : Bool := fld c.pstat b b == 1
def Core.setPs (c : Core) (b : Nat) (v : Bool) : Core := { c with pstat := setFld c.pstat b b (b2n v) }
def psN : Nat := 0
def psZ : Nat := 1
def psC : Nat := 2
def psV : Nat := 3
def psDC : Nat := 4
def psBD : Nat := 5
def psDZE : Nat := 8
def psIE : Nat := 12
def psINTRAP : Nat := 13

/-- An event that ends SLEEP is pending (R218). -/
def Core.eventPend (c : Core) : Bool := c.watch || c.array.isSome || c.memerr.isSome || c.preempt
/-- The core sleeps. -/
def Core.asleep (c : Core) : Bool := c.sleep && !c.eventPend

/-- The bits that PSTAT and FPSR implement (R168, R201); the others read 0. -/
def pstatMask : W32 := 0x313F
def fpsrMask : W32 := 0xF13F
/-- FPCR after a write: an RM of 5 to 7 leaves it unchanged (R200). -/
def fpcrPut (old v : W32) : W32 := if 5 ≤ fld v 2 0 then old else v &&& 0x1FF

/-- The partition that owns core `i`, the one whose CORES bit is set; P0 when no bit is (R353). -/
def corePart (s : State) (i : Nat) : Nat :=
  ((List.range 8).find? (fun p => rdB s (i / 32) (R.PCORES p) (i % 32))).getD 0

/-- The plane of a partition on hub `h`: 0 E, 1 S (R354). -/
def partPlane (s : State) (h p : Nat) : Nat := rdF s h (R.PCFG p) 30 30

/-- Level of a debug path: 0 NONE, 1 OBSERVE, 2 FULL (R378). -/
def dbgLevel (s : State) (h : Nat) : DbgPath → Nat
  | .probe => rdF s h R.DBGCTL 3 2
  | .host => rdF s h R.DBGCTL 1 0

/-- The partition a master acts for: a core's owner, HOSTPART for the host, the mailbox's sender, P0 for the boot
ROM and for the debug master on a path that holds FULL (below it, none: it may write nothing), the region's owner for
a fabric port (R326, R331, R343, R376, R378). -/
def masterPart (s : State) : Master → Nat
  | .core c => corePart s (coreIx c)
  | .host h => rdF s h.val R.PCICFG 18 16
  | .mailbox p => p.val
  | .bootRom _ => 0
  | .fabric h p => rdF s h.val (R.FREG (rdF s h.val (R.FPORT p.val) 27 24)) 26 24
  | .debug h p => if dbgLevel s h.val p = 2 then 0 else 8

/-- The hub where a master stands. -/
def masterHub : Master → Option Nat
  | .core c => some c.hub.val
  | .host h => some h.val
  | .mailbox _ => none
  | .bootRom h => some h.val
  | .fabric h _ => some h.val
  | .debug h _ => some h.val

/-- A master that may do what P0 may do: P0 itself, the boot ROM, the debug master at FULL. -/
def asP0 (s : State) (m : Master) : Bool := masterPart s m == 0

/-- The device executes commands: powered, out of both resets and its hub's reference running (R261, R413). -/
def live (s : State) (h : Nat) : Bool :=
  hubOk s h && s.pwr.porn && s.pwr.warmn &&
  (s.pwr.power == .on || s.pwr.power == .stroke) && !(tget (fun _ => false) s.pwr.refStop h)

/-- The debug master on a path that holds FULL. -/
def dbgFull (s : State) : Master → Bool
  | .debug h p => dbgLevel s h.val p == 2
  | _ => false
/-- A debugger is attached to hub h: power-downs are emulated (R388). -/
def attached (s : State) (h : Nat) : Bool := rdB s h R.DBGCTL 31

/-- Progress of the final stroke of hub h. -/
def strokeOf (s : State) (h : Nat) : Stroke := tget (fun _ => .none) s.evi.stroke h
/-- The hub executes commands and no final stroke has stopped its cores, sheets, classifier and mailbox (R304). -/
def serving (s : State) (h : Nat) : Bool := live s h && strokeOf s h == .none

end Sys2Proof.Machine
end

