-- ==== Sys2Proof/Machine/Mem.lean ====
section
/-! DEFINITION. The memories by absolute address: main memory, the common memory of each hub, the flash, the
boot ROM and the reservoirs (R12, R263, R269, R276), and the address map that leads to them. -/
namespace Sys2Proof.Machine

/-! ## Absolute keys -/

/-- Common memory of hub `h`. -/
def commonBase (h : Nat) : Nat := 0x010000000000 + 0x10000000 * h
/-- Reservoir of hub `h`, 32 MiB; outside the 48-bit space, since no core addresses it (R276). -/
def rsvBase (h : Nat) : Nat := 0x1000000000000 + 0x10000000 * h
def flashBase : Nat := 0x040000000000
def romBase : Nat := 0x048000000000
/-- First address above main memory. -/
def mainTop : Nat := 0x4000000000

/-- What a byte nothing has written reads as (assumption 5): erased flash 0xFF; elsewhere 0. -/
def memDflt (k : Nat) : Byte := if flashBase ≤ k && k < romBase then 0xFF else 0

/-- The canonical form of memory: addresses strictly rising, no entry equal to what an unlisted address reads as. -/
def Memory.wf (m : List Host.Cell) : Bool := twf memDflt m

/-- One byte. The boot ROM holds what the chip was made with (Config). -/
def rb (s : State) (k : Nat) : Byte :=
  if romBase ≤ k && k < romBase + 0x40000 then Config.bootRomByte (k - romBase)
  else tget memDflt s.mem.cells k

/-- Write bytes from `k` up. -/
def wcells (m : List Host.Cell) (k : Nat) : Bytes → List Host.Cell
  | [] => m
  | b :: bs => wcells (tset memDflt m k b) (k + 1) bs

/-- `n` bytes from `k`. -/
def rbs (s : State) (k n : Nat) : Bytes := (List.range n).map (fun i => rb s (k + i))
/-- Store bytes from `k`, with no check. -/
def wbs (s : State) (k : Nat) (bs : Bytes) : State :=
  { s with mem := { s.mem with cells := wcells s.mem.cells k bs } }

/-! ## Tiles and reachability (R241, R249) -/

/-- Where an address lands (R12). -/
inductive Region where
  | main (h k : Nat)
  | common (h : Nat)
  | csr (h off : Nat)
  | fport (h p off : Nat)
  | flash
  | rom
  | hole
  deriving DecidableEq, Repr

/-- The region that core physical address `a` names for a master of hub `eh` (R12). -/
def region (eh a : Nat) : Region :=
  if a < mainTop then .main (a / 0x2000000000) (a / 0x800000000 % 4) else
  if a < 0x010000000000 then .hole else
  if a < 0x010001000000 then .common eh else
  if 0x010010000000 ≤ a && a < 0x010011000000 then .common (1 - eh) else
  if 0x020000000000 ≤ a && a < 0x020004000000 then .csr eh (a - 0x020000000000) else
  if 0x020010000000 ≤ a && a < 0x020014000000 then .csr (1 - eh) (a - 0x020010000000) else
  if 0x030000000000 ≤ a && a < 0x030080000000 then
    .fport 0 ((a - 0x030000000000) / 0x10000000) (a % 0x10000000) else
  if 0x031000000000 ≤ a && a < 0x031080000000 then
    .fport 1 ((a - 0x031000000000) / 0x10000000) (a % 0x10000000) else
  if flashBase ≤ a && a < flashBase + 0x10000000 then .flash else
  if romBase ≤ a && a < romBase + 0x40000 then .rom else .hole

/-- Address of offset `off` in the window of port p of hub h (R342). -/
def portAddr (h p off : Nat) : Nat := 0x030000000000 + 0x1000000000 * h + 0x10000000 * p + off

/-- The absolute key of an address for a master of hub `eh`: the common memories are placed by hub. -/
def absKey (eh a : Nat) : Nat :=
  match region eh a with
  | .common h => commonBase h + a % 0x1000000
  | _ => a

/-- Tiles of the map of R241. -/
def tMC (k : Nat) : Nat := match k with | 0 => 0 | 1 => 5 | 2 => 30 | _ => 35
def tLN (half : Nat) : Nat := if half = 0 then 6 else 12
def tPCI : Nat := 11
def tCMM (half : Nat) : Nat := if half = 0 then 13 else 16
def tMTC : Nat := 14
def tDSP : Nat := 15
def tCHP : Nat := 17
def tFAB (p : Nat) : Nat := if p < 4 then 18 else 24
def tL2 (slice : Nat) : Nat := if slice = 0 then 19 else 22
def tAIU : Nat := 20
def tDPL : Nat := 21
def tMIR : Nat := 23
def tSYS : Nat := 29
/-- Tile of core c: cores 2k and 2k + 1 of each cluster share a tile. -/
def tCore (c : Nat) : Nat :=
  let g := c / 8
  let x := 1 + 2 * (g % 2) + c / 2 % 2
  let y := 4 * (g / 2) + c / 4 % 2
  6 * y + x

/-- A block's tile is fenced for isolation or switched off. -/
def tileIso (s : State) (h t : Nat) : Bool := rdB s h (R.NTILE t) 31 || rdB s h (R.NTILE t) 30

/-- The hub-to-hub link carries traffic: not OFF, DOWN, fenced, nor cut by a takeover (R249, R256, R364). -/
def hubLinkOk (s : State) : Bool :=
  hubOk s 1 && s.svc.taken.isNone &&
  (List.range 2).all (fun h =>
    !(rdB s h (R.DPLCTL 6) 30) && rdF s h (R.DPLCTL 6) 25 23 ≠ 0 && rdF s h (R.DPLCTL 6) 25 23 ≠ 5)

/-- A master of hub `eh` reaches hub `h`. -/
def reach (s : State) (eh h : Nat) : Bool := hubOk s h && (eh == h || hubLinkOk s)

/-- A channel serves requests: present, ready, not being initialised and not fenced (R263, R265, R266). -/
def chanServes (s : State) (h k : Nat) : Bool :=
  chanOk s h k && rdF s h (R.MCCFG k) 30 28 == 2 && !(rdB s h (R.MCINIT k) 30) && !(tileIso s h (tMC k))

/-- Address `a` answers a master of hub `eh` as memory, rather than ISOLATED (R249, R263). -/
def memServes (s : State) (eh a : Nat) : Bool :=
  match region eh a with
  | .main h k => reach s eh h && chanServes s h k &&
      decide (a % 0x800000000 < rdF s h (R.MCCFG k) 23 16 * 0x40000000)
  | .common h => reach s eh h && !(tileIso s h (tCMM (a / 0x800000 % 2)))
  | .flash => reach s eh 0
  | .rom => !(tileIso s eh tSYS)
  | _ => false

/-- Bytes `a` to `a + n - 1` all answer. -/
def rangeServes (s : State) (eh a n : Nat) : Bool := memServes s eh a && memServes s eh (a + n - 1)

/-! ## Reservations (R186) -/

/-- A reservation of core `i` covers byte range `k`, `n` (absolute). -/
def resHit (s : State) (i k n : Nat) : Bool :=
  let c := getCore s i
  let g := absKey (i / 32) (c.lladdr.toNat / 64 * 64)
  fld c.lladdr 0 0 == 1 && decide (g < k + n) && decide (k < g + 64)

/-- A write to `k`, `n` by anyone but core `who` ends every reservation of a granule it touches (R186). -/
def dropRes (s : State) (who : Option Nat) (k n : Nat) : State :=
  ((s.cpu.cores.map (·.1)).filter (fun i => some i ≠ who && resHit s i k n)).foldl
    (fun s i => updCore s i (fun c => { c with lladdr := 0 })) s

/-! ## Overstrike (R389) -/

/-- The overstrike unit of hub `h` that maps the line of address `a` (KIND 0 flash, 1 boot ROM): the lowest. -/
def ovsUnit (s : State) (h a : Nat) : Option Nat :=
  (List.range 32).find? (fun u =>
    rdB s h (R.OVS u) 31 &&
    (rdB s h (R.OVS u) 30 == decide (romBase ≤ a)) &&
    (rdF s h (R.OVS u) 9 0 * 2 ^ 38 + (csr s h (R.OVSLO u)).toNat * 64) == a / 64 * 64)

/-- A byte of the flash or boot ROM as a master of hub `eh` sees it. -/
def ovsByte (s : State) (eh a : Nat) : Byte :=
  match ovsUnit s eh a with
  | some u => tget (fun _ => 0) s.dbg.patch (2048 * eh + 64 * rdF s eh (R.OVS u) 20 16 + a % 64)
  | none => rb s a

/-- Bytes as a master of hub `eh` reads them at `a`, no checks. -/
def viewBytes (s : State) (eh a n : Nat) : Bytes :=
  if flashBase ≤ a && a < romBase + 0x40000 then (List.range n).map (fun i => ovsByte s eh (a + i))
  else rbs s (absKey eh a) n

/-! ## Rulings, read by every stamp -/

/-- The position word of ruling `r` of hub `h` (R33). -/
def rulPos (s : State) (h r : Nat) : W64 := tget (fun _ => 0) s.rul.pos (2048 * h + r)

/-- The position word of the reference ruling of hub `h` (RUCTL.REFRID). -/
def refPos (s : State) (h : Nat) : W64 := rulPos s h (rdF s h R.RUCTL 10 0)

end Sys2Proof.Machine
end

