-- ==== Sys2Proof/Machine/Journal.lean ====
section
/-! DEFINITION. The event journal and ALARM_N (R369 to R372). -/
namespace Sys2Proof.Machine

/-- Event codes (R371). -/
def evMemCorr : Nat := 0x01
def evMemUncorr : Nat := 0x02
def evCtrlCheck : Nat := 0x03
def evIsolate : Nat := 0x04
def evStall : Nat := 0x05
def evContention : Nat := 0x06
def evGuarantee : Nat := 0x07
def evPfail : Nat := 0x08
def evWatchdog : Nat := 0x09
def evRulingLoss : Nat := 0x0A
def evSealGap : Nat := 0x0B
def evLaneDown : Nat := 0x0C
def evBorrowAbandon : Nat := 0x0D
def evCmdState : Nat := 0x0E

/-- The 15 detail bytes 16 to 30 from pieces, each (first byte, width in bytes, value). -/
def detail (ps : List (Nat × Nat × Nat)) : Bytes :=
  ps.foldl (fun b p => putAt b (p.1 - 16) (natLe p.2.1 p.2.2)) (zeros 15)

/-- Drop the note of main memory's old bytes under dirty L1 lines that `k`, `n` touches: their line is written back
and invalidated (R273, SNP operation 2). -/
def dropDirty (s : State) (k n : Nat) : State :=
  if s.mem.dirty.isEmpty then s else
  { s with mem := { s.mem with dirty := tkeep (fun i => i / 64 < k / 64 || (k + n - 1) / 64 < i / 64) s.mem.dirty } }

/-- The LOST note of hub h: a record has been dropped since the last one written (R369). -/
def setJlost (s : State) (h : Nat) (b : Bool) : State :=
  { s with svc := { s.svc with jlost := tset (fun _ => false) s.svc.jlost h b } }

/-- A write with valid check symbols: the codewords of `k`, `n` are good again. -/
def goodCws (s : State) (k : Nat) : State :=
  { s with mem := { s.mem with
    bad := tset (fun _ => 0) (tset (fun _ => 0) s.mem.bad (k / 16 * 16) 0) (k / 16 * 16 + 16) 0 } }

/-- The 32 bytes of a record take their place in memory. -/
def jput (s : State) (k : Nat) (r : Bytes) : State :=
  goodCws (dropRes (dropDirty (wbs s k r) k 32) none k 32) k

/-- Write one record body (31 bytes without LOST, JWR and CRC) to the ring, or drop it when the memory does not
answer (R369, R370, R429). -/
def jwrite (s : State) (h : Nat) (body : Bytes) : State :=
  let base := (csr s h R.JBASEHI).toNat * 2 ^ 32 + (csr s h R.JBASELO).toNat
  let n := (csr s h R.JWR).toNat
  let a := base + 32 * (n % (128 * rdF s h R.JCTL 19 0))
  let lost := tget (fun _ => false) s.svc.jlost h
  let b1 := byteAt body 1 ||| (if lost then 1 else 0)
  let rec0 := putAt (putAt body 1 [b1]) 4 (natLe 4 n)
  let r := rec0 ++ [crc8 rec0.reverse]
  if rangeServes s h a 32 then
    setCsr (setJlost (jput s (absKey h a) r) h false) h R.JWR (BitVec.ofNat 32 (n + 1))
  else bump (setJlost s h true) h R.JDROP 31 0 1

/-- The records of hub h that wait on chip. -/
def setJbuf (s : State) (h : Nat) (q : List Bytes) : State :=
  { s with svc := { s.svc with jbuf := tset (fun _ => []) s.svc.jbuf h q } }

/-- Record an event of hub `h` (R369, R370): to memory while JCTL.EN is 1, else to the 64-entry buffer. -/
def journal (s : State) (h code : Nat) (alarm : Bool) (part : Nat) (det : Bytes) : State :=
  let body := natLe 1 code ++ natLe 1 (if alarm then 2 else 0) ++ natLe 1 h ++ natLe 1 part ++ zeros 4 ++
    natLe 8 (refPos s h).toNat ++ det
  let q := tget (fun _ => []) s.svc.jbuf h
  if rdB s h R.JCTL 31 && q.isEmpty then jwrite s h body
  else if q.length < 64 then setJbuf s h (q ++ [body])
  else bump (setJlost s h true) h R.JDROP 31 0 1

/-- Write the records that waited on chip, in order (R369). -/
def jflush (s : State) (h : Nat) : State :=
  let q := tget (fun _ => []) s.svc.jbuf h
  q.foldl (fun s b => jwrite s h b) (setJbuf s h [])

/-- No partition, in byte 3 of a record. -/
def noPart : Nat := 0xFF

/-- Set a bit of ALARMSTAT: 0 DEVWD, 1 NOROUTE, 2 TAKEOVER, 3 P0TRAP (R372). -/
def alarm (s : State) (h b : Nat) : State := wrB s h R.ALARMSTAT b true

/-- ALARM_N is low while any bit of ALARMSTAT is 1 on a hub (R372). -/
def alarmLow (s : State) : Bool := (List.range 2).any (fun h => rdF s h R.ALARMSTAT 3 0 ≠ 0)

/-! ## Checked reads and writes (R267 to R273, R429) -/

/-- How an access ends. -/
inductive MStat where
  | ok | isolated | uncorr
  deriving DecidableEq, Repr

/-- Registers and unit code of the symbol-code memory that holds absolute key `k`. -/
structure EccUnit where
  h : Nat
  ecc : Nat
  loc0 : Nat
  loc1 : Nat
  wdisc : Nat
  code : Nat

def eccUnit (k : Nat) : EccUnit :=
  if k < mainTop then
    let h := k / 0x2000000000
    let c := k / 0x800000000 % 4
    ⟨h, R.MCECC c, R.MCELOC0 c, R.MCELOC1 c, R.MCWDISC c, c⟩
  else
    let h := (k - 0x010000000000) / 0x10000000 % 2
    let u := 2 + k / 0x800000 % 2
    ⟨h, R.UECC u, R.UELOC0 u, R.UELOC1 u, R.UMWDISC u, 0x10 + u⟩

/-- The core physical address that ELOC and the journal hold for key `k`: its own hub's view. -/
def eccAddr (k : Nat) : Nat := if k < mainTop then k else 0x010000000000 + k % 0x1000000

/-- Record an error in ELOC, unless it holds an uncorrectable record (R270, R271). SYM is 0x1F when uncorrectable. -/
def eloc (s : State) (u : EccUnit) (addr sym src : Nat) (unc : Bool) : State :=
  if rdB s u.h u.loc1 31 && rdB s u.h u.loc1 30 then s else
  setCsr (setCsr s u.h u.loc0 (BitVec.ofNat 32 (addr % 2 ^ 32 / 16 * 16))) u.h u.loc1
    (BitVec.ofNat 32 (2 ^ 31 + b2n unc * 2 ^ 30 + sym * 2 ^ 25 + src * 2 ^ 22 + addr / 2 ^ 32))

/-- ELOC holds a valid record of this codeword. -/
def elocHolds (s : State) (u : EccUnit) (addr : Nat) : Bool :=
  rdB s u.h u.loc1 31 && (csr s u.h u.loc0).toNat == addr % 2 ^ 32 / 16 * 16 &&
  rdF s u.h u.loc1 15 0 == addr / 2 ^ 32

/-- Detail of EV_MEM_CORR and EV_MEM_UNCORR (R371). -/
def memDetail (unit sym src core addr : Nat) : Bytes :=
  detail [(16, 1, unit), (17, 1, sym), (18, 1, src), (19, 1, core), (24, 6, addr)]

/-- Symbols in error of a codeword. -/
def badMask (s : State) (cw : Nat) : BitVec 20 := tget (fun _ => 0) s.mem.bad cw
def setBad (s : State) (cw : Nat) (m : BitVec 20) : State :=
  { s with mem := { s.mem with bad := tset (fun _ => 0) s.mem.bad cw m } }
/-- Number of symbols in error. -/
def symCount (m : BitVec 20) : Nat := ((List.range 20).filter (fun i => m.getLsbD i)).length
/-- The lowest symbol in error. -/
def symLow (m : BitVec 20) : Nat := ((List.range 20).find? (fun i => m.getLsbD i)).getD 0

/-- Data symbols replaced by free values: what a read returns for a codeword with four or more wrong symbols that
the decoder passes (R268). -/
def scramble (s : State) (cw : Nat) : State :=
  drawn (wbs s cw ((List.range 16).map (fun i => (Config.freeBits 128 s.fresh).extractLsb' (8 * i) 8)))

/-- The decoder's verdict on a codeword that a read with source code `src` meets, with the counting, recording and
rewriting that follow (R268, R270, R271). Four or more wrong symbols give any verdict (assumption 6). -/
def checkCw (s : State) (cw src : Nat) : State × MStat :=
  let m := badMask s cw
  let n := symCount m
  let u := eccUnit cw
  let a := eccAddr cw
  let corrected (s : State) (sym : Nat) : State × MStat :=
    let j := !(elocHolds s u a)
    let s := bump s u.h u.ecc 31 16 1
    let s := if j then journal s u.h evMemCorr false noPart (memDetail u.code sym src 0 a) else s
    (setBad (eloc s u a sym src false) cw 0, .ok)
  let uncorrectable (s : State) : State × MStat :=
    let s := bump s u.h u.ecc 15 0 1
    let s := journal s u.h evMemUncorr false noPart (memDetail u.code 0x1F src 0 a)
    (eloc s u a 0x1F src true, .uncorr)
  if n = 0 then (s, .ok)
  else if n = 1 then corrected s (symLow m)
  else if n < 4 then uncorrectable s
  else
    let v := Config.freeNat s.fresh % 3
    let s := drawn s
    if v = 0 then (scramble s cw, .ok)
    else if v = 1 then
      let sym := Config.freeNat s.fresh % 20
      corrected (scramble (drawn s) cw) sym
    else uncorrectable s

/-- Codewords that bytes `k` to `k + n - 1` touch. -/
def cwsOf (k n : Nat) : List Nat :=
  if n = 0 then [] else (List.range ((k + n - 1) / 16 - k / 16 + 1)).map (fun i => 16 * (k / 16 + i))

/-- Check every codeword of a range. -/
def checkRange (s : State) (k n src : Nat) : State × MStat :=
  if s.mem.bad.isEmpty then (s, .ok) else
  (cwsOf k n).foldl (fun r cw =>
    let q := checkCw r.1 cw src
    (q.1, if r.2 = .ok then q.2 else r.2)) (s, .ok)

/-- Is the range in a memory covered by the symbol code? -/
def coded (k : Nat) : Bool := decide (k < mainTop) || (decide (0x010000000000 ≤ k) && decide (k < 0x010020000000))

/-- A read of `n` bytes at `a` by a master of hub `eh`: status, and the data when it is ok. -/
def mrd (s : State) (eh a n : Nat) : State × MStat × Bytes :=
  if !(rangeServes s eh a n) then (s, .isolated, zeros n) else
  let k := absKey eh a
  if coded k then
    match checkRange s k n 0 with
    | (s, .ok) => (s, .ok, viewBytes s eh a n)
    | (s, st) => (s, st, zeros n)
  else (s, .ok, viewBytes s eh a n)

/-- A codeword is only partly covered by a write. -/
def partCw (k n cw : Nat) : Bool := decide (cw < k) || decide (k + n < cw + 16)

/-- The read-modify-writes of a write to `k`, `n` (R272), and the codewords that are refused: those partly written and
uncorrectable. A codeword written whole is good again. -/
def rmwCheck (s : State) (k n : Nat) : State × List Nat :=
  if s.mem.bad.isEmpty then (s, []) else
  (cwsOf k n).foldl (fun r cw =>
    if partCw k n cw then
      match checkCw r.1 cw 1 with
      | (s, .ok) => (s, r.2)
      | (s, _) => (bump s (eccUnit cw).h (eccUnit cw).wdisc 31 0 1, cw :: r.2)
    else (setBad r.1 cw 0, r.2)) (s, [])

/-- The bytes of a write to `k` that its codewords take: a refused codeword keeps its own. -/
def keptBytes (s : State) (k : Nat) (bs : Bytes) (refused : List Nat) : Bytes :=
  (List.range bs.length).map (fun j => if refused.contains ((k + j) / 16 * 16) then rb s (k + j) else byteAt bs j)

/-- A write of bytes at `a` by a master of hub `eh`; `who` is the core whose own reservation survives it. Of a write over
several codewords, those that are not refused take place. -/
def mwr (s : State) (eh : Nat) (who : Option Nat) (a : Nat) (bs : Bytes) : State × MStat :=
  let n := bs.length
  if n = 0 then (s, .ok) else
  if !(rangeServes s eh a n) then (s, .isolated) else
  if (region eh a == .rom) then (s, .ok) else
  let k := absKey eh a
  let (s, refused) := if coded k then rmwCheck s k n else (s, [])
  if refused.isEmpty then (dropRes (dropDirty (wbs s k bs) k n) who k n, .ok)
  else if (cwsOf k n).all refused.contains then (s, .uncorr)
  else (dropRes (dropDirty (wbs s k (keptBytes s k bs refused)) k n) who k n, .uncorr)

end Sys2Proof.Machine
end

