-- ==== Sys2Proof/Machine/Rulings.lean ====
section
/-! DEFINITION. Rulings, marks, loss monitors and watchdogs (R31 to R53). -/
namespace Sys2Proof.Machine

/-! ## Identifiers and positions -/

/-- PTP and TICK rulings. -/
def ridPtp : Nat := 0x400
def ridTick : Nat := 0x410
/-- Ruling of pin k: 0 PPS, 1 to 8 PULSE, 9 TICK (R32, R44). -/
def pinRid (k : Nat) : Nat := if k = 0 then 0x401 else if k = 9 then ridTick else 0x407 + k

/-- A RID that is not reserved (R32). -/
def ridOk (r : Nat) : Bool :=
  decide (r ≤ 0x401) || (decide (0x408 ≤ r) && decide (r ≤ 0x410))
def isStream (r : Nat) : Bool := decide (r < 0x400)

def frameOf (p : W64) : Nat := fld p 35 16
def lineOf (p : W64) : Nat := fld p 13 0
def streamPos (frame line : Nat) : W64 := BitVec.ofNat 64 (frame * 2 ^ 16 + line)
/-- PTP position in nanoseconds. -/
def ptpNs (p : W64) : Nat := fld p 63 30 * 1000000000 + fld p 29 0
def ptpPos (ns : Nat) : W64 := BitVec.ofNat 64 (ns / 1000000000 % 2 ^ 34 * 2 ^ 30 + ns % 1000000000)

/-- FRAMELINES of a stream ruling. -/
def frameLines (s : State) (h r : Nat) : Nat := rdF s h (R.RCFG r) 13 0
/-- Linear index of a stream position, and the wrap of linear indices (R34). -/
def linIx (fl : Nat) (p : W64) : Nat := frameOf p * (fl + 1) + lineOf p
def linWrap (fl : Nat) : Nat := 1000000 * (fl + 1)
/-- Forward distance between two linear indices. -/
def fwd (w a b : Nat) : Nat := (b + w - a % w) % w

/-- A word is a valid position of its ruling (R39, R45). -/
def posValid (s : State) (h r : Nat) (p : W64) : Bool :=
  if isStream r then
    decide (frameOf p ≤ 999999) && decide (lineOf p ≤ frameLines s h r) && fld p 63 36 == 0 && fld p 15 14 == 0
  else if r = ridPtp then decide (fld p 29 0 ≤ 999999999) else true

/-- Advance from position `a` to `b` of a ruling in the units of R32, for PTP in nanoseconds. -/
def rawAdvance (s : State) (h r : Nat) (a b : W64) : Nat :=
  if isStream r then
    let fl := frameLines s h r
    fwd (linWrap fl) (linIx fl a) (linIx fl b)
  else if r = ridPtp then ptpNs b - ptpNs a else (b - a).toNat

/-- The same in counting units: PTP counts microseconds (R32). -/
def unitAdvance (s : State) (h r : Nat) (a b : W64) : Nat :=
  if r = ridPtp then rawAdvance s h r a b / 1000 else rawAdvance s h r a b

/-- The ruling may move: both enables for PTP, PPS, PULSE and TICK (R44). -/
def rulEnabled (s : State) (h r : Nat) : Bool :=
  if isStream r then rdB s h (R.RCFG r) 31 else
  rdB s h (R.RCFGX (r - 0x400)) 31 &&
  (if r = ridPtp then rdB s h R.PTPCFG 31
   else if r = 0x401 then rdB s h (R.EDGECFG 0) 31
   else if r = ridTick then rdB s h (R.EDGECFG 9) 31
   else rdB s h (R.EDGECFG (r - 0x407)) 31)

/-! ## Marks (R45 to R49) -/

def markKey (h handle : Nat) : Nat := 16384 * h + handle
def getMark (s : State) (h handle : Nat) : Option Mark := tget (fun _ => none) s.rul.marks (markKey h handle)
def setMark (s : State) (h handle : Nat) (m : Option Mark) : State :=
  { s with rul := { s.rul with marks := tset (fun _ => none) s.rul.marks (markKey h handle) m } }

/-- The active marks of a hub with their handles, in order of handle. -/
def marksOf (s : State) (h : Nat) : List (Nat × Mark) :=
  s.rul.marks.filterMap (fun e =>
    if e.1 / 16384 = h then (getMark s h (e.1 % 16384)).map (fun m => (e.1 % 16384, m)) else none)

/-- A mark at `q` has been reached when its ruling stands at `p` (R46). -/
def reached (s : State) (h r : Nat) (p q : W64) : Bool :=
  if isStream r then
    let fl := frameLines s h r
    let d := fwd (linWrap fl) (linIx fl p) (linIx fl q)
    d == 0 || decide (linWrap fl / 2 < d)
  else decide (q.toNat ≤ p.toNat)

/-- Order in which marks reached by one advance to `p` fire: by position, oldest first (R48). -/
def fireKey (s : State) (h r : Nat) (p q : W64) : Nat :=
  if isStream r then
    let fl := frameLines s h r
    let d := fwd (linWrap fl) (linIx fl p) (linIx fl q)
    if d = 0 then linWrap fl else d
  else q.toNat

/-- Insert by key after equal keys. -/
def insKey {α : Type} (k : Nat) (v : α) : List (Nat × α) → List (Nat × α)
  | [] => [(k, v)]
  | (i, w) :: m => if k < i then (k, v) :: (i, w) :: m else (i, w) :: insKey k v m
/-- Stable sort by key. -/
def sortKey {α : Type} (f : α → Nat) (l : List α) : List α :=
  (l.foldl (fun m v => insKey (f v) v m) []).map (·.2)

/-- Delete a mark as a cancel does: the other half of a cross mark stays as a plain mark (R49). -/
def cancelMark (s : State) (h handle : Nat) : State :=
  match getMark s h handle with
  | none => s
  | some m =>
    let s := setMark s h handle none
    match m.mate with
    | none => s
    | some j => match getMark s h j with
      | none => s
      | some n => setMark s h j (some { n with mate := none })

/-- Fire a mark: one token with its tag and the position that reached it; the mark and its partner go (R46, R47). -/
def fireMark (s : State) (h handle : Nat) (p : W64) : State :=
  match getMark s h handle with
  | none => s
  | some m =>
    let s := setMark s h handle none
    let s := match m.mate with
      | none => s
      | some j => setMark s h j none
    { s with rul := { s.rul with fired := s.rul.fired ++
      [{ tag := m.tag, value := p, chk := tagCheck m.tag, dst := ⟨h % 2, Nat.mod_lt _ (by decide)⟩,
         src := .ruling, part := m.part }] } }

/-- Fire every mark that ruling `r` at `p` has reached, in order (R46, R48). -/
def fireReached (s : State) (h r : Nat) (p : W64) : State :=
  let l := (marksOf s h).filter (fun e => e.2.rid == r && reached s h r p e.2.pos)
  (sortKey (fun e => fireKey s h r p e.2.pos) l).foldl (fun s e => fireMark s h e.1 p) s

/-! ## Loss monitors (R50) -/

def lmKey (h m : Nat) : Nat := 64 * h + m
/-- Note the windows of monitors on reference `r` that have run their span. -/
def lmAdvance (s : State) (h r : Nat) : State :=
  (List.range 64).foldl (fun s m =>
    if rdB s h (R.LMON m) 31 && rdF s h (R.LMON m) 10 0 == r && (csr s h (R.LMSPAN m)).toNat ≠ 0 then
      let st := tget (fun _ => ((0 : W64), (0 : W64))) s.rul.lmStart (lmKey h m)
      let now := (rulPos s h r, rulPos s h (rdF s h (R.LMON m) 26 16))
      if (csr s h (R.LMSPAN m)).toNat ≤ unitAdvance s h r st.1 now.1 then
        let adv := unitAdvance s h (rdF s h (R.LMON m) 26 16) st.2 now.2
        { s with rul := { s.rul with
            lmStart := tset (fun _ => (0, 0)) s.rul.lmStart (lmKey h m) now
            lmDue := tset (fun _ => []) s.rul.lmDue (lmKey h m)
              (tget (fun _ => []) s.rul.lmDue (lmKey h m) ++ [adv]) } }
      else s
    else s) s

/-! ## Watchdogs (R52, R387) -/

def wdKey (h w : Nat) : Nat := 33 * h + w

/-- Some core or gang of the hub is halted. -/
def anyHalt (s : State) (h : Nat) : Bool :=
  s.cpu.cores.any (fun e => e.1 / 32 == h && e.2.halted) ||
  s.arr.gangs.any (fun e => sheetHome s e.1 == h && e.2.halted)

/-- The watchdog ignores advances of its ruling under a halt (R387). -/
def wdFrozen (s : State) (h w : Nat) : Bool :=
  if w < 32 then (getCore s (32 * h + w)).halted && rdB s h (R.DCTL w) 27
  else rdB s h R.DBGCTL 29 && anyHalt s h

/-- Count `n` units. At 0 the expiry is due, with the units that remain (R52). -/
def wdCount (s : State) (h w n : Nat) : State :=
  let k := wdKey h w
  match tget (fun _ => none) s.rul.wdDue k with
  | some m => { s with rul := { s.rul with wdDue := tset (fun _ => none) s.rul.wdDue k (some (m + n)) } }
  | none =>
    let c := (csr s h (R.WDCNT w)).toNat
    if c = 0 then s else
    if n < c then setCsr s h (R.WDCNT w) (BitVec.ofNat 32 (c - n)) else
    let s := setCsr s h (R.WDCNT w) 0
    { s with rul := { s.rul with wdDue := tset (fun _ => none) s.rul.wdDue k (some (n - c)) } }

/-- Every watchdog on ruling `r` counts its advance of `raw` (nanoseconds for PTP). -/
def wdAdvance (s : State) (h r raw : Nat) : State :=
  (List.range 33).foldl (fun s w =>
    if rdB s h (R.WDCFG w) 31 && rdF s h (R.WDCFG w) 10 0 == r && !(wdFrozen s h w) then
      if r = ridPtp then
        let f := tget (fun _ => 0) s.rul.wdFrac (wdKey h w) + raw
        wdCount { s with rul := { s.rul with wdFrac := tset (fun _ => 0) s.rul.wdFrac (wdKey h w) (f % 1000) } }
          h w (f / 1000)
      else wdCount s h w raw
    else s) s

/-- Reload a watchdog: WDCNT from WDLOAD; an expiry not yet taken is lost to it (R52). -/
def wdReload (s : State) (h w : Nat) : State :=
  let s := { s with rul := { s.rul with wdDue := tset (fun _ => none) s.rul.wdDue (wdKey h w) none } }
  setCsr s h (R.WDCNT w) (csr s h (R.WDLOAD w))

/-- A kick: reload, and the next expiry is a first one again (R52). -/
def wdKick (s : State) (h w : Nat) : State :=
  wdReload { s with rul := { s.rul with wdOnce := tset (fun _ => false) s.rul.wdOnce (wdKey h w) false } } h w

/-! ## Moving a ruling -/

/-- Set a position word. -/
def setPos (s : State) (h r : Nat) (p : W64) : State :=
  { s with rul := { s.rul with pos := tset (fun _ => 0) s.rul.pos (2048 * h + r) p } }

/-- An edge of the TICK ruling brings every debounce of the hub one nearer (R42). -/
def debounceTick (s : State) (h : Nat) : State :=
  (List.range 9).foldl (fun s k =>
    match tget (fun _ => none) s.rul.deb (16 * h + k) with
    | some (n + 1) => { s with rul := { s.rul with deb := tset (fun _ => none) s.rul.deb (16 * h + k) (some n) } }
    | _ => s) s

/-- The ruling moves to `p`: marks fire, monitors and watchdogs count (R46, R50, R52). -/
def moveTo (s : State) (h r : Nat) (p : W64) : State :=
  let old := rulPos s h r
  if old = p then s else
  let raw := rawAdvance s h r old p
  let s := setPos s h r p
  let s := fireReached s h r p
  let s := lmAdvance s h r
  let s := wdAdvance s h r raw
  if r = ridTick then debounceTick s h else s

/-- Clear a stream ruling to position 0 with its timestamp, and delete its marks as if cancelled (R44). A monitor
window that names it starts again at 0 (assumption 8). -/
def clearStream (s : State) (h r : Nat) : State :=
  let l := (marksOf s h).filter (fun e => e.2.rid == r)
  let s := l.foldl (fun s e => cancelMark s h e.1) s
  let s := setPos s h r 0
  let s := { s with rul := { s.rul with rtp := tset (fun _ => none) s.rul.rtp (2048 * h + r) none } }
  (List.range 64).foldl (fun s m =>
    let st := tget (fun _ => ((0 : W64), (0 : W64))) s.rul.lmStart (lmKey h m)
    let a := if rdF s h (R.LMON m) 10 0 == r then 0 else st.1
    let b := if rdF s h (R.LMON m) 26 16 == r then 0 else st.2
    { s with rul := { s.rul with lmStart := tset (fun _ => (0, 0)) s.rul.lmStart (lmKey h m) (a, b) } }) s

/-- Frame step n of R36. -/
def frameStep (dts frameTs : Nat) : Nat :=
  if frameTs = 0 then 1 else max 1 ((2 * dts + frameTs) / (2 * frameTs))

/-- Position after the line advance of a packet or event: never backwards within the frame (R35, R37). -/
def lineTo (fl : Nat) (p : W64) (line : Option Nat) (marker : Bool) : W64 :=
  let l := if marker then fl else min (line.getD 0) fl
  streamPos (frameOf p) (max (lineOf p) l)

/-- Apply one advance to its ruling (R36 to R40). -/
def applyAdvance (s : State) (h : Nat) : Advance → State
  | .packet r ts line marker =>
    if !(rulEnabled s h r) || 3 < rdF s h (R.RCFG r) 30 28 then s else
    let fl := frameLines s h r
    let p := rulPos s h r
    let setTs (s : State) : State :=
      { s with rul := { s.rul with rtp := tset (fun _ => none) s.rul.rtp (2048 * h + r) (some ts) } }
    match tget (fun _ => none) s.rul.rtp (2048 * h + r) with
    | none => moveTo (setTs s) h r (lineTo fl (streamPos 0 0) line marker)
    | some cur =>
      let d := (ts - cur).toNat
      if d = 0 then moveTo s h r (lineTo fl p line marker)
      else if 0x80000000 ≤ d then s
      else
        let n := frameStep d (csr s h (R.RFMT r)).toNat
        let q := streamPos ((frameOf p + n) % 1000000) 0
        moveTo (setTs s) h r (lineTo fl q line marker)
  | .lineEvent r =>
    if !(rulEnabled s h r) || rdF s h (R.RCFG r) 30 28 ≠ 4 then s else
    let p := rulPos s h r
    moveTo s h r (streamPos (frameOf p) (min (lineOf p + 1) (frameLines s h r)))
  | .frameEvent r =>
    if !(rulEnabled s h r) || rdF s h (R.RCFG r) 30 28 ≠ 4 then s else
    moveTo s h r (streamPos ((frameOf (rulPos s h r) + 1) % 1000000) 0)
  | .derived r q =>
    if !(rulEnabled s h r) || rdF s h (R.RCFG r) 30 28 ≠ 5 then s else
    let fl := frameLines s h r
    let d := fwd (linWrap fl) (linIx fl (rulPos s h r)) (linIx fl q)
    if 1 ≤ d && d ≤ linWrap fl / 2 then moveTo s h r q else s

/-- Advances waiting at a hub's ruling unit. -/
def advOf (s : State) (h : Nat) : List Advance := tget (fun _ => []) s.rul.advq h
def setAdv (s : State) (h : Nat) (l : List Advance) : State :=
  { s with rul := { s.rul with advq := tset (fun _ => []) s.rul.advq h l } }
/-- Present an advance (R40). -/
def present (s : State) (h : Nat) (a : Advance) : State := setAdv s h (advOf s h ++ [a])

/-- One edge counted on the ruling of pin k, when it is enabled (R42, R44). -/
def countEdge (s : State) (h k : Nat) : State :=
  let r := pinRid k
  if rulEnabled s h r then moveTo s h r (rulPos s h r + 1) else s

/-- Add 2^-24 ns units to the PTP position (R41). -/
def ptpAdd (s : State) (h units : Nat) : State :=
  let t := ptpNs (rulPos s h ridPtp) * 2 ^ 24 + tget (fun _ => 0) s.rul.frac h + units
  let s := { s with rul := { s.rul with frac := tset (fun _ => 0) s.rul.frac h (t % 2 ^ 24) } }
  moveTo s h ridPtp (ptpPos (t / 2 ^ 24))

def ptpHold (s : State) (h : Nat) : Nat := tget (fun _ => 0) s.rul.hold h
def setHold (s : State) (h n : Nat) : State :=
  { s with rul := { s.rul with hold := tset (fun _ => 0) s.rul.hold h n } }

/-- The VAUX block counts: powered, and not held by POR_N (R42, R43, R261). -/
def pinsLive (s : State) : Bool :=
  match s.pwr.power with
  | .off => false
  | .aux => true
  | _ => s.pwr.porn

/-! ## Who may write (R44) -/

/-- P0 or the partition in RCFG.PART may write a stream ruling; P0 alone the others. -/
def mayRcfg (s : State) (m : Master) (h r : Nat) : Bool :=
  asP0 s m || (isStream r && masterPart s m == rdF s h (R.RCFG r) 27 25)

/-- Store RCFG[r] of a stream (R44, R428); `owner` writes leave PART. -/
def writeRcfg (s : State) (m : Master) (h r : Nat) (v : W32) : State :=
  if !(mayRcfg s m h r) then s else
  if isStream r then
    let v := if asP0 s m then v else setFld v 27 25 (rdF s h (R.RCFG r) 27 25)
    if 5 < fld v 30 28 || fld v 23 14 = 0 || fld v 13 0 = 0 || 9999 < fld v 13 0 then s else
    clearStream (setCsr s h (R.RCFG r) v) h r
  else if ridOk r then wrB s h (R.RCFGX (r - 0x400)) 31 (fld v 31 31 == 1) else s

/-- Store RFMT[r] (R44). -/
def writeRfmt (s : State) (m : Master) (h r : Nat) (v : W32) : State :=
  if mayRcfg s m h r && isStream r then clearStream (setCsr s h (R.RFMT r) v) h r else s

/-- PTPSTEP: a forward step moves the ruling, a backward step adds to the hold (R41). -/
def writePtpstep (s : State) (m : Master) (h : Nat) (v : W32) : State :=
  if !(asP0 s m) || !(rulEnabled s h ridPtp) then s else
  if fld v 31 31 = 0 then ptpAdd s h (v.toNat * 2 ^ 24)
  else setHold s h (ptpHold s h + (2 ^ 32 - v.toNat) * 2 ^ 24)

/-- WDKICK: 0xA5 from P0, or for a core watchdog from the core's partition (R44, R52). -/
def writeWdkick (s : State) (m : Master) (h w : Nat) (v : W32) : State :=
  if (asP0 s m || (decide (w < 32) && masterPart s m == corePart s (32 * h + w))) && v = 0xA5 then
    wdKick s h w
  else s

/-- WDLOAD by P0: sets the reload value and reloads (R52). -/
def writeWdload (s : State) (m : Master) (h w : Nat) (v : W32) : State :=
  if asP0 s m then wdReload (setCsr s h (R.WDLOAD w) v) h w else s

/-- LMON +0 by P0: setting EN, or naming other rulings, starts a window (R44, R50). -/
def writeLmon (s : State) (h m : Nat) (v : W32) : State :=
  let w := fld v 26 16
  let r := fld v 10 0
  if w = r || !(ridOk w) || !(ridOk r) then s else
  let old := csr s h (R.LMON m)
  let s := setCsr s h (R.LMON m) (v &&& 0xFFFF07FF)
  if fld v 31 31 = 1 && (fld old 31 31 = 0 || fld old 26 16 ≠ w || fld old 10 0 ≠ r) then
    { s with rul := { s.rul with
      lmStart := tset (fun _ => (0, 0)) s.rul.lmStart (lmKey h m) (rulPos s h r, rulPos s h w) } }
  else s

/-! ## Commands -/

/-- RULING_ADVANCE: the oldest presented advance takes effect (R40). -/
def execRulingAdvance (h : Hub) (s : State) : Out :=
  if !(live s h.val) then .next s else
  match advOf s h.val with
  | [] => .next s
  | a :: l => .next (applyAdvance (setAdv s h.val l) h.val a)

/-- PIN_EDGE: pin k takes a level; a selected edge counts at once, or starts its debounce (R42). -/
def execPinEdge (h : Hub) (k : Fin 10) (level : Bool) (s : State) : Out :=
  let i := 16 * h.val + k.val
  if !(pinsLive s) || !(hubOk s h.val) || tget (fun _ => false) s.rul.level i == level then .next s else
  let s := { s with rul := { s.rul with level := tset (fun _ => false) s.rul.level i level } }
  let e := rdF s h.val (R.EDGECFG k.val) 29 28
  let sel := e == 2 || (e == 0 && level) || (e == 1 && !level)
  let d := rdF s h.val (R.EDGECFG k.val) 15 0
  if d = 0 || k.val = 9 then
    .next (if sel then countEdge s h.val k.val else s)
  else
    .next { s with rul := { s.rul with deb := tset (fun _ => none) s.rul.deb i (if sel then some d else none) } }

/-- DEBOUNCE_EXPIRY: the pin has held its level for DEBOUNCE edges of TICK; its edge counts (R42). -/
def execDebounceExpiry (h : Hub) (k : Fin 10) (s : State) : Out :=
  let i := 16 * h.val + k.val
  if !(pinsLive s) || tget (fun _ => none) s.rul.deb i ≠ some 0 then .next s else
  .next (countEdge { s with rul := { s.rul with deb := tset (fun _ => none) s.rul.deb i none } } h.val k.val)

/-- PTP_REFERENCE_CYCLE: PTPINC is added, or counts against a hold that it does not end (R41). -/
def execPtpReferenceCycle (h : Hub) (s : State) : Out :=
  let inc := (csr s h.val R.PTPINC).toNat
  if !(live s h.val) || !(rulEnabled s h.val ridPtp) then .next s else
  let hold := ptpHold s h.val
  if hold = 0 then .next (ptpAdd s h.val inc)
  else if inc < hold then .next (setHold s h.val (hold - inc)) else .next s

/-- PTP_HOLD_END: the reference cycle in which the count overtakes the held position; the ruling resumes with what
the cycle carries beyond (R41). -/
def execPtpHoldEnd (h : Hub) (s : State) : Out :=
  let inc := (csr s h.val R.PTPINC).toNat
  let hold := ptpHold s h.val
  if !(live s h.val) || !(rulEnabled s h.val ridPtp) || hold = 0 || inc < hold then .next s else
  .next (ptpAdd (setHold s h.val 0) h.val (inc - hold))

/-- PTPSTEP_WRITE (R41). -/
def execPtpstepWrite (m : Master) (h : Hub) (v : W32) (s : State) : Out :=
  .next (if live s h.val then writePtpstep s m h.val v else s)

/-- RFEVT from fabric port fp: the ruling has SRC 4 and the region's partition owns it (R38). -/
def rfevt (s : State) (h fp r : Nat) (a : Advance) : State :=
  let reg := rdF s h (R.FPORT fp) 27 24
  if rdB s h (R.FPORT fp) 31 && isStream r && rdF s h (R.RCFG r) 30 28 == 4 &&
      rdF s h (R.RCFG r) 27 25 == rdF s h (R.FREG reg) 26 24 then present s h a
  else bump s h R.NISODISC 31 0 1

/-- RFEVT_LINE_EVENT (R38). -/
def execRfevtLineEvent (h : Hub) (fp : Fin 8) (r : Rid) (s : State) : Out :=
  .next (if live s h.val then rfevt s h.val fp.val r.toNat (.lineEvent r.toNat) else s)
/-- RFEVT_FRAME_EVENT (R38). -/
def execRfevtFrameEvent (h : Hub) (fp : Fin 8) (r : Rid) (s : State) : Out :=
  .next (if live s h.val then rfevt s h.val fp.val r.toNat (.frameEvent r.toNat) else s)

/-- RCFG_WRITE (R44). -/
def execRcfgWrite (m : Master) (h : Hub) (r : Rid) (v : W32) (s : State) : Out :=
  .next (if live s h.val then writeRcfg s m h.val r.toNat v else s)
/-- RFMT_WRITE (R44). -/
def execRfmtWrite (m : Master) (h : Hub) (r : Rid) (v : W32) (s : State) : Out :=
  .next (if live s h.val then writeRfmt s m h.val r.toNat v else s)

/-- The reply to a requester. -/
def reply (s : State) (status : Nat) (d : BitVec 2048) : State := { s with resp := { status := status, data := d } }

/-- A read of RPOS_LO loads the ruling's latch, unless it is a debug peek (R44, R381). -/
def latchPos (s : State) (m : Master) (h r : Nat) : State :=
  match m with
  | .debug _ _ => s
  | _ => { s with rul := { s.rul with latch := tset (fun _ => 0) s.rul.latch (2048 * h + r) (rulPos s h r) } }

/-- RPOS_LO_READ: the live lower half, and the latch (R44). -/
def execRposLoRead (m : Master) (h : Hub) (r : Rid) (s : State) : Out :=
  if !(live s h.val) || !(ridOk r.toNat) then .next s else
  .next (reply (latchPos s m h.val r.toNat) 0 ((lo32 (rulPos s h.val r.toNat)).setWidth 2048))

/-- LOSS_WINDOW_CLOSE: the oldest window that has run its span closes (R50). -/
def execLossWindowClose (h : Hub) (n : Fin 64) (s : State) : Out :=
  let m := n.val
  let k := lmKey h.val m
  if !(live s h.val) then .next s else
  match tget (fun _ => []) s.rul.lmDue k with
  | [] => .next s
  | adv :: l =>
    let s := { s with rul := { s.rul with lmDue := tset (fun _ => []) s.rul.lmDue k l } }
    let last := min adv 0xFFFFFFFF
    let s := setCsr s h.val (R.LMLAST m) (BitVec.ofNat 32 last)
    let mx := (csr s h.val (R.LMMAX m)).toNat
    let bad := decide (last < (csr s h.val (R.LMMIN m)).toNat) || (mx != 0 && decide (mx < last))
    if !bad || rdB s h.val (R.LMLOST m) 0 then .next s else
    let s := wrB s h.val (R.LMLOST m) 0 true
    let s := journal s h.val evRulingLoss false noPart
      (detail [(16, 1, m), (17, 2, rdF s h.val (R.LMON m) 26 16), (19, 2, rdF s h.val (R.LMON m) 10 0), (23, 4, last)])
    if rdB s h.val (R.LMON m) 30 then
      .next { s with rul := { s.rul with lmTok := tset (fun _ => none) s.rul.lmTok k (some (BitVec.ofNat 64 last)) } }
    else .next s

/-- WDKICK_WRITE (R52). -/
def execWdkickWrite (m : Master) (h : Hub) (w : Fin 33) (v : W32) (s : State) : Out :=
  .next (if live s h.val then writeWdkick s m h.val w.val v else s)
/-- WDLOAD_WRITE (R52). -/
def execWdloadWrite (m : Master) (h : Hub) (w : Fin 33) (v : W32) (s : State) : Out :=
  .next (if live s h.val then writeWdload s m h.val w.val v else s)

end Sys2Proof.Machine
end

