-- ==== Sys2Proof/Machine/Tokens.lean ====
section
/-! DEFINITION. Tokens, contexts, the matching store and the blotter (R115 to R141), with the scheduling trace they
write (R163, R164). -/
namespace Sys2Proof.Machine

/-! ## Tags (R115) -/

def tagCtx (t : W64) : Nat := fld t 63 52
def tagCodelet (t : W64) : Nat := fld t 51 32
def tagPort (t : W64) : Nat := fld t 7 6
def tagClass (t : W64) : Nat := fld t 5 4
def tagKey (t : W64) : BitVec 56 := t.extractLsb' 8 56
def keyCtx (k : BitVec 56) : Nat := fld k 55 44
/-- A tag of a key, a class and PORT 0 (R150). -/
def keyTag (k : BitVec 56) (cls : Nat) : W64 := (k.setWidth 64 <<< 8) ||| BitVec.ofNat 64 (cls % 4 * 16)
/-- Hub and context of a handle (R117). -/
def handle (h c : Nat) : W64 := BitVec.ofNat 64 (4096 * h + c)

def hubFin (h : Nat) : Hub := ⟨h % 2, Nat.mod_lt _ (by decide)⟩
/-- A token as its originator makes it (R116). -/
def mkTok (tag value : W64) (dst : Nat) (src : TokSrc) (part : Nat) : Tok :=
  { tag := tag, value := value, chk := tagCheck tag, dst := hubFin dst, src := src, part := part }

/-! ## Scheduling trace (R163, R164) -/

def traceFifo : Nat := 32

/-- Write a trace record when its type and partition are selected; `core` is 0x3F for none. -/
def trace (s : State) (h part type : Nat) (tag : W64) (aux core : Nat) : State :=
  let c := csr s h R.TRCTL
  if fld c 31 31 = 0 || fld c (16 + type) (16 + type) = 0 || fld c part part = 0 then s else
  let lost := tget (fun _ => false) s.dsp.trLost h
  let rec0 : BitVec 128 := BitVec.ofNat 128
    (tag.toNat * 2 ^ 64 + fld (refPos s h) 31 0 * 2 ^ 32 + aux % 65536 * 2 ^ 16 + core % 64 * 2 ^ 10 +
      h % 2 * 2 ^ 9 + b2n lost * 2 ^ 8 + type)
  let setLost (s : State) (b : Bool) : State :=
    { s with dsp := { s.dsp with trLost := tset (fun _ => false) s.dsp.trLost h b } }
  let n := (csr s h R.TRWR).toNat
  let wrote (s : State) : State := setLost (setCsr s h R.TRWR (BitVec.ofNat 32 (n + 1))) false
  let dropped (s : State) : State := setLost (bump s h R.TRLOST 31 0 1) true
  if fld c 30 30 = 1 then
    let q := tget (fun _ => []) s.dbg.traceQ h
    if q.length < traceFifo then
      wrote { s with dbg := { s.dbg with traceQ := tset (fun _ => []) s.dbg.traceQ h (q ++ [rec0]) } }
    else dropped s
  else
    let cap := 256 * rdF s h R.TRSIZE 20 0
    if fld c 29 29 = 0 && cap ≤ n then dropped s else
    let base := rdF s h R.TRBASEHI 15 0 * 2 ^ 32 + (csr s h R.TRBASELO).toNat
    match mwr s h none (base + 16 * (n % cap)) (natLe 16 rec0.toNat) with
    | (s, .ok) => wrote s
    | (s, _) => dropped s

/-- No core, in a trace record. -/
def noCore : Nat := 0x3F

/-! ## Contexts (R123 to R125) -/

def ctxKey (h c : Nat) : Nat := 4096 * h + c
def ctxDflt : Ctx := { state := .free, part := 0, late := 0, freed := 0 }
def getCtx (s : State) (h c : Nat) : Ctx := tget (fun _ => ctxDflt) s.tok.ctxs (ctxKey h c)
def setCtx (s : State) (h c : Nat) (x : Ctx) : State :=
  { s with tok := { s.tok with ctxs := tset (fun _ => ctxDflt) s.tok.ctxs (ctxKey h c) x } }

/-- Contexts a partition holds on a hub, LIVE or PURGE (CTXQ.USED). -/
def ctxUsed (s : State) (h p : Nat) : Nat :=
  (s.tok.ctxs.filter (fun e => e.1 / 4096 == h && e.2.state != .free && e.2.part == p)).length

/-- The context that has been FREE longest (R124); among those never freed since reset the spec does not say which
is first (assumption 16). -/
def freeCtx (s : State) (h : Nat) : State × Option Nat :=
  let fresh := (List.range 4096).filter (fun c => (getCtx s h c).state == .free && (getCtx s h c).freed == 0)
  if !fresh.isEmpty then pick s fresh else
  (s, ((s.tok.ctxs.filter (fun e => e.1 / 4096 == h && e.2.state == .free)).foldl
      (fun (b : Option (Nat × Nat)) e => match b with
        | none => some (e.2.freed, e.1 % 4096)
        | some (f, c) => if e.2.freed < f then some (e.2.freed, e.1 % 4096) else some (f, c)) none).map (·.2))

/-- Hub `h` is present and in service, not taken over (R118 condition 2, R364). -/
def hubInService (s : State) (h : Nat) : Bool := hubOk s h && (s.svc.taken.map (·.val) != some h)

/-- A sweep of context c is held or runs on the hub (R156). -/
def sweeping (s : State) (h c : Nat) : Bool :=
  s.tok.sweeps.any (fun e => e.1.val == h && e.2.1.toNat == c)

/-! ## Banks (R126, R127) -/

/-- Owner of bank b: 0xF for none. -/
def bankOwner (s : State) (h b : Nat) : Nat :=
  if b < 8 then rdF s h R.MBPART0 (4 * b + 3) (4 * b) else rdF s h R.MBPART1 (4 * (b - 8) + 3) (4 * (b - 8))
/-- The bank list of a partition, ascending. -/
def bankList (s : State) (h p : Nat) : List Nat := (List.range 16).filter (fun b => bankOwner s h b == p)
/-- Capacity of a partition's banks, MSOCC.CAP. -/
def bankCap (s : State) (h p : Nat) : Nat := 16384 * (bankList s h p).length

def keyHash (k : BitVec 56) : W32 := crc32c (natLe 7 k.toNat)
def keySet (k : BitVec 56) : Nat := fld (keyHash k) 10 0
/-- Bank of a key of a partition; none while it owns no bank. -/
def keyBank (s : State) (h p : Nat) (k : BitVec 56) : Option Nat :=
  let l := bankList s h p
  if l.isEmpty then none else l[fld (keyHash k) 31 11 % l.length]?

def aqKey (h b : Nat) : Nat := 16 * h + b
def getAq (s : State) (h b : Nat) : List Tok := tget (fun _ => []) s.tok.aq (aqKey h b)
def setAq (s : State) (h b : Nat) (l : List Tok) : State :=
  { s with tok := { s.tok with aq := tset (fun _ => []) s.tok.aq (aqKey h b) l } }
def getSpill (s : State) (h b : Nat) : List Tok := tget (fun _ => []) s.tok.spill (aqKey h b)
def setSpill (s : State) (h b : Nat) (l : List Tok) : State :=
  { s with tok := { s.tok with spill := tset (fun _ => []) s.tok.spill (aqKey h b) l } }
def getBlook (s : State) (h b : Nat) : List Tok := tget (fun _ => []) s.tok.blook (aqKey h b)
def setBlook (s : State) (h b : Nat) (l : List Tok) : State :=
  { s with tok := { s.tok with blook := tset (fun _ => []) s.tok.blook (aqKey h b) l } }
def setEntries (s : State) (l : List Entry) : State := { s with tok := { s.tok with entries := l } }

/-- Capacity of an arrival queue, refill level and batch (R128). -/
def aqMax : Nat := 1024
def aqLow : Nat := 512
def aqBatch : Nat := 64

/-- Partition of the context a tag names on hub h. -/
def tagPart (s : State) (h : Nat) (t : W64) : Nat := (getCtx s h (tagCtx t)).part

/-- Entries of a context, all and those in the blotter (USED, INBLT). -/
def ctxEntries (s : State) (h c : Nat) : List Entry :=
  s.tok.entries.filter (fun e => e.hub.val == h && keyCtx e.key == c)
def usedBy (s : State) (h c : Nat) : Nat := (ctxEntries s h c).length
/-- Entries outside the store in a set, OVF[s]. -/
def ovf (s : State) (h b set : Nat) : Nat :=
  (s.tok.entries.filter (fun e => e.hub.val == h && e.bank == b && e.set == set && e.place != .way)).length
def waysUsed (s : State) (h b set : Nat) : Nat :=
  (s.tok.entries.filter (fun e => e.hub.val == h && e.bank == b && e.set == set && e.place == .way)).length
/-- Store entries in use in a partition's banks, MSOCC.USED; and in one bank, MBSTAT.OCC. -/
def storeUsed (s : State) (h p : Nat) : Nat :=
  (s.tok.entries.filter (fun e => e.hub.val == h && e.place == .way && bankOwner s h e.bank == p)).length
def bankOcc (s : State) (h b : Nat) : Nat :=
  (s.tok.entries.filter (fun e => e.hub.val == h && e.place == .way && e.bank == b)).length

/-! ## The blotter's page pool (R134 to R136) -/

/-- Pages that `n` records of 4096 / `per` bytes take. -/
def pagesFor (n per : Nat) : Nat := (n + per - 1) / per

def readyOf (s : State) (i : Nat) : Ready :=
  tget (fun _ => ⟨[], [], [], [], []⟩) s.dsp.ready i
def setReady (s : State) (i : Nat) (r : Ready) : State :=
  { s with dsp := { s.dsp with ready := tset (fun _ => ⟨[], [], [], [], []⟩) s.dsp.ready i r } }
def Ready.spill (r : Ready) (k : Nat) : List Inst :=
  match k with | 0 => r.s0 | 1 => r.s1 | 2 => r.s2 | _ => r.s3
def Ready.setSpill (r : Ready) (k : Nat) (l : List Inst) : Ready :=
  match k with | 0 => { r with s0 := l } | 1 => { r with s1 := l } | 2 => { r with s2 := l } | _ => { r with s3 := l }
def Ready.spilled (r : Ready) : Nat := r.s0.length + r.s1.length + r.s2.length + r.s3.length
def Ready.len (r : Ready) : Nat := r.on.length + r.spilled
def backlogOf (s : State) (h p : Nat) : List Inst := tget (fun _ => []) s.dsp.backlog (8 * h + p)
def setBacklog (s : State) (h p : Nat) (l : List Inst) : State :=
  { s with dsp := { s.dsp with backlog := tset (fun _ => []) s.dsp.backlog (8 * h + p) l } }

/-- Allocated pages of partition p's pool on hub h (BLTUSE.PAGES, R136): each FIFO and list has pages of its own. -/
def poolPages (s : State) (h p : Nat) : Nat :=
  let fifo := (List.range 16).foldl (fun a b =>
    if bankOwner s h b = p then a + pagesFor (getSpill s h b).length 128 else a) 0
  let paged := pagesFor (s.tok.entries.filter (fun e => e.hub.val == h && e.part == p && e.place == .page)).length 64
  let ready := s.dsp.ready.foldl (fun a e =>
    if e.1 / 32 = h && corePart s e.1 = p then
      a + pagesFor e.2.s0.length 64 + pagesFor e.2.s1.length 64 + pagesFor e.2.s2.length 64 + pagesFor e.2.s3.length 64
    else a) 0
  let back := pagesFor (backlogOf s h p).length 64
  let lig := pagesFor (s.dsp.ligs.filter (fun e => e.hub.val == h && e.part == p && !e.onchip)).length 128
  fifo + paged + ready + back + lig

/-- Pages of the pool: all but the 4 MiB reserve area, while the blotter is in use. -/
def poolTotal (s : State) (h p : Nat) : Nat :=
  if rdB s h (R.BLTCTL p) 31 then (rdF s h (R.BLTCTL p) 12 0 - 4) * 256 else 0

def bltBase (s : State) (h p : Nat) : Nat :=
  rdF s h (R.BLTBASEHI p) 15 0 * 2 ^ 32 + (csr s h (R.BLTBASELO p)).toNat
/-- The blotter region of p answers (R429). -/
def bltServes (s : State) (h p : Nat) : Bool := memServes s h (bltBase s h p)

def throttledNow (s : State) (h p : Nat) : Bool := tget (fun _ => false) s.tok.throttled (8 * h + p)

/-- Exhaustion and throttle of one partition after its use has changed (R135, R136). -/
def settle1 (s : State) (h p : Nat) : State :=
  let pages := poolPages s h p
  let total := poolTotal s h p
  let s := if total ≠ 0 && total ≤ pages && !(rdB s h (R.SDSTAT p) 30) then
      journal (wrB s h (R.SDSTAT p) 30 true) h evStall false p (detail [(16, 1, 2), (17, 1, p)])
    else s
  let used := storeUsed s h p
  let cap := bankCap s h p
  let hot := (cap != 0 && decide (7 * cap ≤ 8 * used)) || (total != 0 && decide (7 * total ≤ 8 * pages))
  let cool := (cap == 0 || decide (4 * used < 3 * cap)) && (total == 0 || decide (4 * pages < 3 * total))
  let t := if hot then true else if cool then false else throttledNow s h p
  { s with tok := { s.tok with throttled := tset (fun _ => false) s.tok.throttled (8 * h + p) t } }

/-- The same for every partition of a hub. -/
def settle (s : State) (h : Nat) : State := (List.range 8).foldl (fun s p => settle1 s h p) s

/-- The state `t` with one more record in p's pool, when its pages suffice; else exhaustion is noted (R135). -/
def poolFits (t : State) (h p : Nat) : Bool := decide (poolPages t h p ≤ poolTotal t h p)

/-- A record that fails its tag check, or whose blotter access failed, is discarded and counted (R116, R429). -/
def tagFail (s : State) (h : Nat) (tag : W64) : State :=
  journal (bump s h R.TKCHK 31 0 1) h evCtrlCheck false noPart (detail [(16, 1, 1), (23, 8, tag.toNat)])

/-! ## Token validity (R118, R120) -/

/-- A codelet descriptor as read. -/
structure Desc where
  entry : Nat
  arity : Nat
  part  : Nat
  valid : Bool
  noaff : Bool
  nopre : Bool
  deriving DecidableEq, Repr

def cltBase (s : State) (h : Nat) : Nat := rdF s h R.CLTBASEHI 15 0 * 2 ^ 32 + (csr s h R.CLTBASELO).toNat

/-- Descriptor i of hub h; none when the read failed or CHK is wrong (R120, R429). -/
def readDesc (s : State) (h i : Nat) : State × Option Desc :=
  let a := cltBase s h + 16 * i
  let fail (s : State) : State × Option Desc :=
    (journal s h evCtrlCheck false noPart (detail [(16, 1, 2), (23, 8, a)]), none)
  match mrd s h a 16 with
  | (s, .ok, bs) =>
    if byteAt bs 15 = crc8 (bs.take 15).reverse then
      let v : W64 := BitVec.ofNat 64 (leAt bs 0 8)
      let w := leAt bs 8 8
      (s, some { entry := fld v 47 0, arity := fld v 50 48, part := fld v 53 51,
                 valid := fld v 54 54 == 1 && fld v 63 55 == 0 && fld v 1 0 == 0 &&
                   decide (1 ≤ fld v 50 48) && decide (fld v 50 48 ≤ 4),
                 noaff := w % 2 == 1, nopre := w / 2 % 2 == 1 })
    else fail s
  | (s, _, _) => fail s

/-- The checks of R118 in order: the reason of the first that fails, else the descriptor. `anyP0` lets a context of
P0 pass condition 4 (STALL tokens, R119). -/
def tokenCheck (s : State) (dst part : Nat) (anyP0 : Bool) (tag : W64) : State × (Nat ⊕ Desc) :=
  if fld tag 3 0 ≠ 0 then (s, .inl 1) else
  if !(hubInService s dst) then (s, .inl 2) else
  let x := getCtx s dst (tagCtx tag)
  if x.state ≠ .live then (s, .inl 3) else
  if !(x.part == part || (anyP0 && x.part == 0)) then (s, .inl 4) else
  if rdF s dst R.CLTSIZE 20 0 ≤ tagCodelet tag then (s, .inl 5) else
  match readDesc s dst (tagCodelet tag) with
  | (s, none) => (s, .inl 6)
  | (s, some d) =>
    if !d.valid || d.part ≠ x.part then (s, .inl 7) else
    if d.arity ≤ tagPort tag then (s, .inl 8) else (s, .inr d)

/-! ## The token path (R117, R128, R135) -/

/-- The bank queue of a matched token has room, on chip or in its spill FIFO (R128, R135). -/
def queueRoom (s : State) (h p b : Nat) (t : Tok) : Bool :=
  if (getSpill s h b).isEmpty && (getAq s h b).length < aqMax then true
  else !(bltServes s h p) || poolFits (setSpill s h b (getSpill s h b ++ [t])) h p

/-- The token path of hub `h` accepts a token now: false only while its bank's queue cannot spill (R135). -/
def pathAccepts (s : State) (h : Nat) (t : Tok) : Bool :=
  match keyBank s h (tagPart s h t.tag) (tagKey t.tag) with
  | none => true
  | some b => queueRoom s h (tagPart s h t.tag) b t

/-- Send a token into the path; to a hub that the link does not reach it is absorbed (R117, R249). -/
def inject (s : State) (eh : Nat) (t : Tok) : State :=
  if reach s eh t.dst.val then { s with tok := { s.tok with transit := s.tok.transit ++ [t] } }
  else bump s eh R.NISODISC 31 0 1

/-- An SVC operation on a resource ends with a result (0 done, 1 failed): its completion token, when TOK was 1, enters
the token path of the hub whose mailbox took the command, as a mailbox token for P0 (R355). -/
def svcEnd (s : State) (op h index result : Nat) : State :=
  match s.svc.svcs.find? (fun v => v.op == op && v.hub == h && v.index == index) with
  | none => s
  | some v =>
    let s := { s with svc := { s.svc with svcs := s.svc.svcs.filter (fun w => decide (w ≠ v)) } }
    match v.tok with
    | none => s
    | some t => inject s v.box.val (mkTok t (BitVec.ofNat 64 (index * 2 ^ 16 + op * 2 ^ 8 + result)) v.box.val .mailbox 0)

/-- The drain marker of p has met something: p is not quiet (R137). -/
def unquiet (s : State) (p : Nat) : State :=
  (List.range 2).foldl (fun s h =>
    match tget (fun _ => none) s.tok.marker (8 * h + p) with
    | some true => { s with tok := { s.tok with marker := tset (fun _ => none) s.tok.marker (8 * h + p) (some false) } }
    | _ => s) s

def sameSrc (a b : TokSrc) : Bool := decide (a = b)

/-- The first token on the path to hub h from a source, and the others. -/
def takeTransit (h : Nat) (src : TokSrc) : List Tok → Option (Tok × List Tok)
  | [] => none
  | t :: l => if t.dst.val = h && t.src = src then some (t, l) else
    (takeTransit h src l).map (fun r => (r.1, t :: r.2))

/-- Put a ready instance at the dispatch unit of hub h (R129, R122). -/
def toDispatch (s : State) (h : Nat) (i : Inst) : State :=
  let q := tget (fun _ => []) s.dsp.inbox h ++ [i]
  { s with dsp := { s.dsp with inbox := tset (fun _ => []) s.dsp.inbox h q } }

/-- Queue a token for its bank, on chip or in the spill FIFO (R128, R429). -/
def enqueue (s : State) (h p b : Nat) (t : Tok) : State :=
  if (getSpill s h b).isEmpty && (getAq s h b).length < aqMax then setAq s h b (getAq s h b ++ [t])
  else if bltServes s h p then
    trace (setSpill s h b (getSpill s h b ++ [t])) h p 5 t.tag (16 * b) noCore
  else tagFail s h t.tag

/-- A token rejected by R119. -/
def reject (s : State) (h : Nat) (t : Tok) (reason : Nat) : State :=
  let s := bump s h R.TKREJ 27 0 1
  let s := setCsr64 (wrF s h R.TKREJ 31 28 reason) h R.TKREJTAGLO R.TKREJTAGHI t.tag
  trace s h (tagPart s h t.tag) 7 t.tag (2 * 4096 + reason) noCore

/-- A token discarded in PURGE or by a sweep: counted in its context's LATE, or in CANSTAT.LATE (R125, R156). -/
def lateToken (s : State) (h : Nat) (tag : W64) : State :=
  let c := tagCtx tag
  let x := getCtx s h c
  let s := if x.state = .purge then
      setCtx s h c { x with late := if x.late = 0xFFFFFFFF then x.late else x.late + 1 }
    else bump s h R.CANLATE 31 0 1
  trace s h x.part 7 tag (3 * 4096) noCore

/-- The arrival stage takes one token (R116, R119, R122, R125, R128). -/
def arrive (s : State) (h : Nat) (t : Tok) : State :=
  if t.chk ≠ tagCheck t.tag then tagFail s h t.tag else
  let x := getCtx s h (tagCtx t.tag)
  if x.state = .purge then lateToken s h t.tag else
  let part := match t.src with | .core _ => x.part | _ => t.part
  match tokenCheck s h part (t.src == .stall) t.tag with
  | (s, .inl r) => reject s h t r
  | (s, .inr d) =>
    let s := unquiet s x.part
    if d.arity = 1 then
      let i : Inst := { hub := hubFin h, key := tagKey t.tag, cls := tagClass t.tag, arity := 1, vals := [t.value],
                        entry := BitVec.ofNat 48 d.entry, part := x.part, noaff := d.noaff, nopre := d.nopre,
                        frame := none, bank := 0 }
      toDispatch (trace s h x.part 1 (keyTag i.key i.cls) 16 noCore) h i
    else
      match keyBank s h x.part (tagKey t.tag) with
      | none => reject s h t 4
      | some b => settle (enqueue s h x.part b t) h

/-! ## Lookup (R129 to R133) -/

def presence (vals : List (Option W64)) : Nat :=
  (List.range 4).foldl (fun a i => if (vals.getD i none).isSome then a + 2 ^ i else a) 0

/-- The instance that an entry with all its ports makes. -/
def entryInst (e : Entry) (d : Desc) : Inst :=
  { hub := e.hub, key := e.key, cls := e.cls, arity := e.arity,
    vals := (e.vals.take e.arity).map (fun v => v.getD 0), entry := BitVec.ofNat 48 d.entry, part := e.part,
    noaff := d.noaff, nopre := d.nopre, frame := none, bank := e.bank }

/-- Same instance, same hub. -/
def isEntry (h : Nat) (k : BitVec 56) (e : Entry) : Bool := e.hub.val == h && e.key == k

/-- Fill a port of the entry of key k (R129, R130). -/
def fillEntry (s : State) (h b : Nat) (t : Tok) (e : Entry) : State :=
  let k := tagKey t.tag
  let inBlt := e.place != .way
  let port := tagPort t.tag
  if (e.vals.getD port none).isSome then
    trace (bump s h R.MSDUP 31 0 1) h e.part 0 t.tag (b + 16 * presence e.vals + 256 * b2n inBlt) noCore
  else
    let e' := { e with vals := e.vals.set port (some t.value), cls := max e.cls (tagClass t.tag) }
    let s := trace s h e.part 0 t.tag (b + 16 * presence e'.vals + 256 * b2n inBlt) noCore
    if presence e'.vals = 2 ^ e.arity - 1 then
      let s := setEntries s (s.tok.entries.filter (fun x => !(isEntry h k x)))
      match readDesc s h (tagCodelet t.tag) with
      | (s, none) => s
      | (s, some d) => toDispatch (trace s h e.part 1 (keyTag k e'.cls) b noCore) h (entryInst e' d)
    else setEntries s (s.tok.entries.map (fun x => if isEntry h k x then e' else x))

/-- Place a new entry holding t by the first rule of R131 that applies. -/
def newEntry (s : State) (h b : Nat) (t : Tok) : State :=
  let k := tagKey t.tag
  let x := getCtx s h (tagCtx t.tag)
  let set := keySet k
  match readDesc s h (tagCodelet t.tag) with
  | (s, none) => s
  | (s, some d) =>
    let e (p : Place) : Entry :=
      { hub := hubFin h, bank := b, set := set, key := k, arity := d.arity,
        vals := (List.range 4).map (fun i => if i = tagPort t.tag then some t.value else none),
        cls := tagClass t.tag, part := x.part, place := p, chk := tagCheck (keyTag k 0) }
    let put (p : Place) : State := setEntries s (s.tok.entries ++ [e p])
    let matched (s : State) (inBlt : Bool) : State :=
      trace s h x.part 0 t.tag (b + 16 * 2 ^ tagPort t.tag + 256 * b2n inBlt) noCore
    let toBlt (s' : State) : State :=
      if bltServes s h x.part then trace (matched s' true) h x.part 5 (keyTag k 0) (1 + 16 * b) noCore
      else tagFail s h t.tag
    if waysUsed s h b set < 8 then matched (put .way) false
    else if usedBy s h (tagCtx t.tag) < 16 then toBlt (put .reserve)
    else if poolFits (put .page) h x.part then toBlt (put .page)
    else bump (setAq s h b (getAq s h b ++ [t])) h R.MBRECIRC 31 0 1

/-- Look up a token: `blt` when the blotter has been read for it (R129, R132). -/
def lookup (s : State) (h b : Nat) (t : Tok) (blt : Bool) : State :=
  let k := tagKey t.tag
  let x := getCtx s h (tagCtx t.tag)
  if x.state ≠ .live || sweeping s h (tagCtx t.tag) then lateToken s h t.tag else
  match s.tok.entries.find? (fun e => isEntry h k e && (blt || e.place == .way)) with
  | some e =>
    if e.place != .way && (e.chk ≠ tagCheck (keyTag k 0) || !(bltServes s h e.part)) then
      tagFail (setEntries s (s.tok.entries.filter (fun y => !(isEntry h k y)))) h t.tag
    else fillEntry s h b t e
  | none =>
    if !blt && 0 < ovf s h b (keySet k) then setBlook s h b (getBlook s h b ++ [t])
    else newEntry s h b t

/-- The bank looks up the token at the head of its queue. It waits while 32 blotter lookups are outstanding
and this one would be another; a token whose key has one outstanding waits behind it (R132). -/
def lookupStep (s : State) (h b : Nat) : State :=
  match getAq s h b with
  | [] => s
  | t :: l =>
    let k := tagKey t.tag
    let bl := getBlook s h b
    let behind := bl.any (fun u => tagKey u.tag == k)
    let inStore := s.tok.entries.any (fun e => isEntry h k e && e.place == .way)
    if (behind || (!inStore && 0 < ovf s h b (keySet k))) && 32 ≤ bl.length then s else
    let s := setAq s h b l
    if behind then setBlook s h b (bl ++ [t]) else settle (lookup s h b t false) h

/-- Main memory answers the bank's oldest blotter lookup (R129, R132). -/
def blookStep (s : State) (h b : Nat) : State :=
  match getBlook s h b with
  | [] => s
  | t :: l => settle (lookup (setBlook s h b l) h b t true) h

/-- SPILL_REFILL: at 512 tokens or fewer the bank takes up to 64 from its spill FIFO, oldest first; each must pass
its tag check (R116, R128, R429). -/
def execSpillRefill (h : Hub) (b : Fin 16) (s : State) : Out :=
  let q := getSpill s h.val b.val
  if !(live s h.val) || q.isEmpty || aqLow < (getAq s h.val b.val).length then .next s else
  let p := bankOwner s h.val b.val
  let s := setSpill s h.val b.val (q.drop aqBatch)
  .next (settle ((q.take aqBatch).foldl (fun s t =>
    if t.chk = tagCheck t.tag && bltServes s h.val p then
      setAq (trace s h.val p 6 t.tag (16 * b.val) noCore) h.val b.val (getAq s h.val b.val ++ [t])
    else tagFail s h.val t.tag) s) h.val)

/-- WAY_REFILL: a free way takes the oldest blotter entry of its set (R133). -/
def execWayRefill (h : Hub) (b : Fin 16) (set : BitVec 11) (s : State) : Out :=
  if !(live s h.val) || 8 ≤ waysUsed s h.val b.val set.toNat then .next s else
  match s.tok.entries.find? (fun e =>
      e.hub == h && e.bank == b.val && e.set == set.toNat && e.place != .way) with
  | none => .next s
  | some e =>
    if e.chk = tagCheck (keyTag e.key 0) && bltServes s h.val e.part then
      let s := setEntries s (s.tok.entries.map (fun x =>
        if isEntry h.val e.key x then { x with place := .way } else x))
      .next (settle (trace s h.val e.part 6 (keyTag e.key 0) (1 + 16 * b.val) noCore) h.val)
    else
      .next (settle (tagFail (setEntries s (s.tok.entries.filter (fun x => !(isEntry h.val e.key x))))
        h.val (keyTag e.key 0)) h.val)

/-! ## Tokens that leave the ruling unit -/

/-- First token of a hub in a list, and the others. -/
def takeHub (h : Nat) : List Tok → Option (Tok × List Tok)
  | [] => none
  | t :: l => if t.dst.val = h then some (t, l) else (takeHub h l).map (fun r => (r.1, t :: r.2))

/-- MARK_TOKEN_EMIT: the next fired mark's token enters the token path when it accepts it (R46, R48, R135). -/
def execMarkTokenEmit (h : Hub) (s : State) : Out :=
  if !(live s h.val) then .next s else
  match takeHub h.val s.rul.fired with
  | none => .next s
  | some (t, l) =>
    if pathAccepts s h.val t then .next (inject { s with rul := { s.rul with fired := l } } h.val t)
    else .next (settle s h.val)

/-- LOSS_TOKEN_EMIT: a monitor's held token enters the token path (R50, R135). -/
def execLossTokenEmit (h : Hub) (n : Fin 64) (s : State) : Out :=
  if !(live s h.val) then .next s else
  match tget (fun _ => none) s.rul.lmTok (lmKey h.val n.val) with
  | none => .next s
  | some v =>
    let t := mkTok (csr64 s h.val (R.LMTAGLO n.val) (R.LMTAGHI n.val)) v h.val .loss (rdF s h.val (R.LMON n.val) 29 27)
    if pathAccepts s h.val t then
      .next (inject { s with rul := { s.rul with
        lmTok := tset (fun _ => none) s.rul.lmTok (lmKey h.val n.val) none } } h.val t)
    else .next (settle s h.val)

/-! ## Registers of the matching block -/

/-- CLTBASE by P0 empties the descriptor cache, and with it the affinity records (R121, R145). -/
def dropAffinity (s : State) (h : Nat) : State :=
  { s with tok := { s.tok with affin := s.tok.affin.filter (fun e => e.1 / 0x100000 != h) } }
def writeCltbase (s : State) (m : Master) (h : Nat) (hi : Bool) (v : W32) : State :=
  if !(asP0 s m) then s else
  dropAffinity (if hi then setCsr s h R.CLTBASEHI (v &&& 0xFFFF) else setCsr s h R.CLTBASELO (v &&& 0xFFFFFFF0)) h
def writeCltsize (s : State) (m : Master) (h : Nat) (v : W32) : State :=
  if !(asP0 s m) || 1048576 < fld v 20 0 then s else dropAffinity (setCsr s h R.CLTSIZE (v &&& 0x1FFFFF)) h

/-- BLTCTL[p] by P0: setting EN formats the region; SIZE is 16 to 4,096 and fixed while EN is 1 (R134, R427, R428). -/
def writeBltctl (s : State) (m : Master) (h p : Nat) (v : W32) : State :=
  let sz := fld v 12 0
  if !(asP0 s m) || sz < 16 || 4096 < sz || (rdB s h (R.BLTCTL p) 31 && sz ≠ rdF s h (R.BLTCTL p) 12 0) then s else
  let was := rdB s h (R.BLTCTL p) 31
  let s := setCsr s h (R.BLTCTL p) (v &&& 0x80001FFF)
  if !was && fld v 31 31 = 1 then
    let s := setEntries s (s.tok.entries.filter (fun e => !(e.hub.val == h && e.part == p && e.place != .way)))
    let s := (bankList s h p).foldl (fun s b => setSpill s h b []) s
    settle (setBacklog s h p []) h
  else settle s h

/-- CLTBASE_WRITE (R121). -/
def execCltbaseWrite (m : Master) (h : Hub) (hi : Bool) (v : W32) (s : State) : Out :=
  .next (if live s h.val then writeCltbase s m h.val hi v else s)
/-- CLTSIZE_WRITE (R121). -/
def execCltsizeWrite (m : Master) (h : Hub) (v : W32) (s : State) : Out :=
  .next (if live s h.val then writeCltsize s m h.val v else s)
/-- BLTCTL_ENABLE (R134). -/
def execBltctlEnable (m : Master) (h : Hub) (p : Part) (v : W32) (s : State) : Out :=
  .next (if live s h.val then writeBltctl s m h.val p.val v else s)

end Sys2Proof.Machine
end

