-- ==== Sys2Proof/Machine/Scheduling.lean ====
section
/-! DEFINITION. Dispatch, frames, cancellation, ordered flows and the structural-deadlock detector
(R137 to R139, R142 to R165). -/
namespace Sys2Proof.Machine

/-! ## Candidate cores (R143, R144) -/

/-- Under MCAUTO the cores of a cluster that wakes stay at RSTATE 4 until the loader has reloaded them (R403). -/
def wakingOut (s : State) (i : Nat) : Bool :=
  tget (fun _ => false) s.boot.mcauto (i / 32) && domOf s (64 * (i / 32) + 36 + i % 32 / 8) == .waking

/-- Cores of partition p on hub h that are in service and not draining. -/
def candidates (s : State) (h p : Nat) : List Nat :=
  if !(hubInService s h) then [] else
  ((List.range 32).filter (fun c => rdB s h (R.PCORES p) c && corePart s (32 * h + c) == p &&
    (getCore s (32 * h + c)).rstate != .out && !((getCore s (32 * h + c)).drain) && !(wakingOut s (32 * h + c)))).map (fun c => 32 * h + c)

/-- Candidates of an instance of partition p whose context is on hub h: on its own hub, else on the other. -/
def candsFor (s : State) (h p : Nat) : List Nat :=
  let l := candidates s h p
  if l.isEmpty && reach s h (1 - h) then candidates s (1 - h) p else l

/-- The core runs nothing and waits for dispatch (R151). -/
def Core.isIdle (c : Core) : Bool := c.rstate == .idle && c.running.isNone && !c.bare

/-- Load of a core (R144). -/
def coreLoad (s : State) (i : Nat) : Nat :=
  (readyOf s i).len + b2n ((getCore s i).running.isSome)

/-- The running instance may be pre-empted (R151). -/
def preemptible (s : State) (i : Nat) : Bool :=
  match (getCore s i).running with
  | some r => decide (r.cls ≤ 1) && !r.nopre && rdB s (i / 32) (R.DCPREEMPT (i % 32)) 0
  | none => false

/-- The least-loaded core of a list, ties broken at or after core number `rr` with wrap (R144). -/
def leastLoaded (s : State) (rr : Nat) (l : List Nat) : Option Nat :=
  (l.foldl (fun (b : Option (Nat × Nat)) i =>
    let k := coreLoad s i * 32 + (i % 32 + 32 - rr) % 32
    match b with
    | none => some (k, i)
    | some (k', i') => if k < k' then some (k, i) else some (k', i')) none).map (·.2)

/-- The affinity record of a codelet (R145). -/
def affinityOf (s : State) (h codelet : Nat) : Option Nat :=
  (s.tok.affin.find? (fun e => e.1 == 0x100000 * h + codelet)).map (·.2)

/-- Record a placement. The cache keeps 8,192 descriptors; which one it replaces the spec does not say. -/
def recordAffinity (s : State) (h codelet core : Nat) : State :=
  let k := 0x100000 * h + codelet
  let l := s.tok.affin.filter (fun e => e.1 != k)
  let mine := l.filter (fun e => e.1 / 0x100000 == h)
  if mine.length < 8192 then { s with tok := { s.tok with affin := l ++ [(k, core)] } } else
  match pick s mine with
  | (s, some v) => { s with tok := { s.tok with affin := l.filter (fun e => e.1 != v.1) ++ [(k, core)] } }
  | (s, none) => s

def instCodelet (i : Inst) : Nat := fld i.key 43 24
def instCtx (i : Inst) : Nat := keyCtx i.key
def instTag (i : Inst) : W64 := keyTag i.key i.cls

/-- A core taken out of service is removed from every record that names it (R145). -/
def forgetCores (s : State) (gone : Nat → Bool) : State :=
  { s with tok := { s.tok with affin := s.tok.affin.filter (fun e => !(gone e.2)) } }

/-- The core a ready instance goes to, with the step of R144 that chose it. One with a frame stays on the hub that
holds it (R152). -/
def chooseCore (s : State) (i : Inst) : Option (Nat × Nat) :=
  let h := i.hub.val
  let cands := if i.frame.isSome then candidates s i.fhub i.part else candsFor s h i.part
  let rr := rdF s h (R.RRPTR i.part) 4 0
  let lim := rdF s h (R.AFFLIM i.part) 8 0
  let aff := match affinityOf s h (instCodelet i) with
    | some a => if !i.noaff && cands.contains a && (readyOf s a).len < lim then some a else none
    | none => none
  match aff with
  | some a => some (a, 0)
  | none =>
    let idle := cands.filter (fun c => (getCore s c).isIdle)
    let pre := cands.filter (fun c => preemptible s c)
    let g := if i.cls = 3 then (if idle.isEmpty then pre else idle) else []
    match leastLoaded s rr g with
    | some c => some (c, 1)
    | none => (leastLoaded s rr cands).map (fun c => (c, 2))

/-! ## Ready lists (R146 to R148) -/

/-- Bring an overlong ready list's instance into its blotter, or lose it where the blotter does not answer (R429). -/
def spillReady (s : State) (i : Nat) (x : Inst) (front : Bool) : State :=
  let r := readyOf s i
  let h := i / 32
  let p := corePart s i
  if bltServes s h p then
    let q := if front then x :: r.spill x.cls else r.spill x.cls ++ [x]
    trace (setReady s i (r.setSpill x.cls q)) h x.part 5 (instTag x) (2 + 16 * x.cls) noCore
  else tagFail s h (instTag x)

/-- Join at the tail of the class; none while neither the list nor the pool has room. -/
def joinTail (s : State) (i : Nat) (x : Inst) : Option State :=
  let r := readyOf s i
  let h := i / 32
  let p := corePart s i
  if r.on.length < 256 && (r.spill x.cls).isEmpty then some (setReady s i { r with on := r.on ++ [x] })
  else if !(bltServes s h p) || poolFits (setReady s i (r.setSpill x.cls (r.spill x.cls ++ [x]))) h p then
    some (spillReady s i x false)
  else none

/-- Put x before the first entry of its class. -/
def headOfClass (x : Inst) : List Inst → List Inst
  | [] => [x]
  | y :: l => if y.cls = x.cls then x :: y :: l else y :: headOfClass x l

/-- The lowest class on chip, its last entry, and the list without it. -/
def dropYoungest (l : List Inst) : Option (Inst × List Inst) :=
  let low := l.foldl (fun a x => min a x.cls) 3
  let rec go : List Inst → Option (Inst × List Inst)
    | [] => none
    | y :: ys => if y.cls = low then some (y, ys) else (go ys).map (fun r => (r.1, y :: r.2))
  (go l.reverse).map (fun r => (r.1, r.2.reverse))

/-- A pre-empted instance rejoins at the head of its class, always on chip (R148). -/
def joinHead (s : State) (i : Nat) (x : Inst) : State :=
  let r := readyOf s i
  if r.on.length < 256 then setReady s i { r with on := headOfClass x r.on } else
  match dropYoungest r.on with
  | none => s
  | some (y, l) => settle (spillReady (setReady s i { r with on := headOfClass x l }) i y true) (i / 32)

/-- A frame of partition p on hub h is free (R152). -/
def frameKey (h p f : Nat) : Nat := (8 * h + p) * 1024 + f
def frameUsed (s : State) (h p f : Nat) : Bool := tget (fun _ => false) s.dsp.frames (frameKey h p f)
def frameCount (s : State) (h p : Nat) : Nat := rdF s h (R.FRCOUNT p) 10 0
def freeFrames (s : State) (h p : Nat) : List Nat :=
  (List.range (frameCount s h p)).filter (fun f => !(frameUsed s h p f))
def setFrame (s : State) (h p f : Nat) (u : Bool) : State :=
  { s with dsp := { s.dsp with frames := tset (fun _ => false) s.dsp.frames (frameKey h p f) u } }
/-- Free the frame an instance holds in the pool of hub h. -/
def dropFrame (s : State) (h : Nat) (x : Inst) : State :=
  match x.frame with
  | some f => setFrame s h x.part f false
  | none => s

/-- What a placement asks of its core: a class-3 instance asks for a pre-emption (R151). -/
def notifyCore (s : State) (i : Nat) (x : Inst) : State :=
  if x.cls = 3 && preemptible s i && !(freeFrames s (i / 32) x.part).isEmpty then
    updCore s i (fun c => { c with preempt := true })
  else s

/-- Place a ready instance by R144, `step` overriding the trace's step; none while it must be held (R148). -/
def place (s : State) (x : Inst) (fromBacklog : Bool) : Option State :=
  let h := x.hub.val
  match chooseCore s x with
  | none =>
    if fromBacklog then none else
    let q := backlogOf s h x.part ++ [x]
    if !(bltServes s h x.part) then some (tagFail s h (instTag x))
    else if poolFits (setBacklog s h x.part q) h x.part then some (settle (setBacklog s h x.part q) h) else none
  | some (i, step) =>
    match (if x.frame.isSome then some (joinHead s i x) else joinTail s i x) with
    | none => none
    | some s =>
      let s := if step = 0 then bump s h (R.AFFHIT x.part) 31 0 1 else s
      let s := if step = 2 then wrF s h (R.RRPTR x.part) 4 0 ((i + 1) % 32) else s
      let s := recordAffinity s h (instCodelet x) i
      let n := (readyOf s i).on.length
      let aux := x.cls + 4 * (if fromBacklog then 3 else step) + 16 * n
      some (settle (notifyCore (trace s h x.part 2 (instTag x) aux (i % 32)) i x) (i / 32))

/-- Place the backlog of p on hub h, oldest first, when a core of p enters service (R143). -/
def placeBacklog (s : State) (h p : Nat) : State :=
  (backlogOf s h p).foldl (fun s x =>
    match place s x true with
    | some t => setBacklog t h p ((backlogOf t h p).drop 1)
    | none => s) s

/-- Tokens naming the instance's context are being discarded: it is not LIVE, or a sweep runs (R125, R156). -/
def deadInst (s : State) (x : Inst) : Bool :=
  (getCtx s x.hub.val (instCtx x)).state != .live || sweeping s x.hub.val (instCtx x)

def inboxOf (s : State) (h : Nat) : List Inst := tget (fun _ => []) s.dsp.inbox h
def setInbox (s : State) (h : Nat) (l : List Inst) : State :=
  { s with dsp := { s.dsp with inbox := tset (fun _ => []) s.dsp.inbox h l } }

/-- The instance of partition p that the dispatch unit of hub h holds because nothing has room for it (R148). -/
def dispHeld (s : State) (h p : Nat) : Option Inst :=
  match (inboxOf s h).find? (fun x => x.part == p) with
  | none => none
  | some x => if !(deadInst s x) && (place s x false).isNone then some x else none

/-- Deal with the first instance at the dispatch unit whose partition is not held up. -/
def dispatchStep (s : State) (h : Nat) (before : List Inst) (held : List Nat) : List Inst → State
  | [] => s
  | x :: l =>
    if held.contains x.part then dispatchStep s h (before ++ [x]) held l else
    let t := setInbox s h (before ++ l)
    if deadInst s x then lateToken t h (instTag x) else
    match place t x false with
    | some t => t
    | none => dispatchStep s h (before ++ [x]) (x.part :: held) l

/-- DISPATCH_PLACE: the oldest ready instance that can be placed is placed (R144, R148, R149). -/
def execDispatchPlace (h : Hub) (s : State) : Out :=
  .next (if serving s h.val then dispatchStep s h.val [] [] (inboxOf s h.val) else s)

/-- Move up to 16 entries from the highest spill FIFO onto the list (R146); a record that the blotter does not give
back is lost (R429). -/
def readyRefill (s : State) (i : Nat) : State :=
  let r := readyOf s i
  let h := i / 32
  if 128 < r.on.length then s else
  match [3, 2, 1, 0].find? (fun k => !(r.spill k).isEmpty) with
  | none => s
  | some k =>
    let q := r.spill k
    let s := setReady s i (r.setSpill k (q.drop 16))
    settle ((q.take 16).foldl (fun s x =>
      if bltServes s h (corePart s i) then
        let r := readyOf s i
        trace (setReady s i { r with on := r.on ++ [x] }) h x.part 6 (instTag x) (2 + 16 * k) noCore
      else tagFail s h (instTag x)) s) h

/-- READY_REFILL (R146). -/
def execReadyRefill (c : CoreId) (s : State) : Out :=
  .next (if live s c.hub.val then readyRefill s (coreIx c) else s)

/-! ## Lookups and arrivals, held up by the dispatch unit (R148) -/

/-- `t` follows `s` unless it hands the dispatch unit an instance that it cannot accept. -/
def unlessHeld (s t : State) (h p : Nat) (own : Option Nat) : State :=
  match dispHeld s h p with
  | none => t
  | some x =>
    if (own == some x.bank && x.arity != 1) || (inboxOf s h).length < (inboxOf t h).length then s else t

/-- LOOKUP (R129 to R133). -/
def execLookup (h : Hub) (b : Fin 16) (s : State) : Out :=
  .next (if live s h.val then
      unlessHeld s (lookupStep s h.val b.val) h.val (bankOwner s h.val b.val) (some b.val) else s)

/-- BLOTTER_LOOKUP_DONE (R129, R132). -/
def execBlotterLookupDone (h : Hub) (b : Fin 16) (s : State) : Out :=
  .next (if live s h.val then
      unlessHeld s (blookStep s h.val b.val) h.val (bankOwner s h.val b.val) (some b.val) else s)

/-- TOKEN_ARRIVAL: the next token of a source reaches the arrival stage of hub h; it waits on the path while its
queue, or the dispatch unit, cannot take it (R119, R135, R148). -/
def execTokenArrival (h : Hub) (src : TokSrc) (s : State) : Out :=
  if !(live s h.val) then .next s else
  match takeTransit h.val src s.tok.transit with
  | none => .next s
  | some (t, l) =>
    if pathAccepts s h.val t then
      .next (unlessHeld s (arrive { s with tok := { s.tok with transit := l } } h.val t) h.val
        (tagPart s h.val t.tag) none)
    else .next (settle s h.val)

/-! ## Frames and taking an instance (R150 to R152) -/

/-- Bytes 0 to 639 of a core's frame. -/
def frameBytes (c : Core) (x : Inst) (i : Nat) (yield : Bool) : Bytes :=
  let head := natLe 8 c.pc.toNat ++ natLe 8 c.pstat.toNat ++ natLe 8 c.cnt.toNat ++ natLe 4 c.fpcr.toNat ++
    natLe 4 c.fpsr.toNat ++ natLe 8 c.ctx.toNat ++ natLe 8 c.tag.toNat ++ natLe 8 c.epc.toNat ++
    natLe 8 c.trapc.toNat ++ natLe 8 c.trapv.toNat ++ natLe 1 (x.cls + 4 * b2n yield) ++ natLe 1 (i % 64) ++ zeros 5
  head ++ [crc8 head.reverse] ++
    (List.range 31).flatMap (fun r => natLe 8 (c.gr (r + 1)).toNat) ++
    (List.range 32).flatMap (fun r => natLe 8 (c.fr r).toNat) ++ zeros 56

/-- Address of frame f of partition p in hub h's own view. -/
def frameAddr (s : State) (h p f : Nat) : Nat :=
  0x010000000000 + rdF s h (R.FRBASE p) 23 6 * 64 + 640 * f

/-- Save the running instance of core i to frame f, which replaces the frame it was resumed from; the instance as
it rejoins (R151, R152, R429). -/
def saveFrame (s : State) (i : Nat) (x : Inst) (f : Nat) (yield : Bool) : State × Inst :=
  let h := i / 32
  let c := getCore s i
  let s := setFrame (dropFrame s h x) h x.part f true
  let (s, st) := mwr s h none (frameAddr s h x.part f) (frameBytes c x i yield)
  let s := trace s h x.part 3 (instTag x) (f + 1024 * x.cls + 4096 * b2n yield) (i % 32)
  let s := updCore s i (fun c => { c with running := none, lladdr := 0, rstate := .idle, sent := 0 })
  (s, { x with frame := some f, fhub := h, lost := st != .ok })

/-- Load a core from frame bytes. -/
def loadFrame (c : Core) (b : Bytes) : Core :=
  let q (n : Nat) : W64 := BitVec.ofNat 64 (leAt b n 8)
  let c := { c with
    pc := BitVec.ofNat 48 (leAt b 0 8), pstat := BitVec.ofNat 32 (leAt b 8 8) &&& pstatMask, cnt := q 16,
    fpcr := fpcrPut c.fpcr (BitVec.ofNat 32 (leAt b 24 4)), fpsr := BitVec.ofNat 32 (leAt b 28 4) &&& fpsrMask, ctx := q 32, tag := q 40,
    epc := q 48, trapc := q 56, trapv := q 64 }
  let c := (List.range 31).foldl (fun c r => c.setG (r + 1) (q (80 + 8 * r))) c
  (List.range 32).foldl (fun c r => c.setFr r (q (328 + 8 * r))) c

/-- Preload of a fresh instance (R150). -/
def preload (c : Core) (x : Inst) : Core :=
  let c := { c with pc := x.entry, ctx := handle x.hub.val (instCtx x), tag := instTag x }
  let c := (c.setG 1 c.ctx).setG 2 c.tag
  (List.range 4).foldl (fun c k => c.setG (3 + k) (x.vals.getD k 0)) c

/-- The first entry of the highest class on chip, and the rest (R147). -/
def takeReady (l : List Inst) : Option (Inst × List Inst) :=
  let top := l.foldl (fun a x => max a x.cls) 0
  let rec go : List Inst → Option (Inst × List Inst)
    | [] => none
    | y :: ys => if y.cls = top then some (y, ys) else (go ys).map (fun r => (r.1, y :: r.2))
  go l

/-- A core that has nothing to run becomes idle, or leaves service when it is draining (R151, R153). -/
def coreIdle (c : Core) : Core :=
  { c with running := none, rstate := if c.drain then .out else .idle, drain := false, bare := false,
           sleep := false, sent := 0, preempt := false }

/-- The core takes its next instance, or becomes idle. A frame that fails its check is freed and passed over
(R150 to R152); `fuel` bounds how many. -/
def takeNext (s : State) (i : Nat) : Nat → State
  | 0 => s
  | fuel + 1 =>
    let h := i / 32
    let c := getCore s i
    let r := readyOf s i
    if c.drain then svcEnd (forgetCores (setCore s i (coreIdle c)) (· == i)) 5 h (i % 32) 0 else
    match takeReady r.on with
    | none =>
      if r.spilled = 0 then setCore s i (coreIdle c)
      else takeNext (readyRefill s i) i fuel
    | some (x, l) =>
      let s := setReady s i { r with on := l }
      let start (s : State) (f : Core → Core) : State :=
        let s := bump s h (R.DISPCNT (i % 32)) 31 0 1
        let s := updCore s i (fun c => { (f c) with
          running := some x, rstate := .running, lladdr := 0, sent := 0, sleep := false, bare := false, preempt := false })
        if l.any (fun y => y.cls == 3) then notifyCore s i { x with cls := 3 } else s
      match x.frame with
      | none => start s (fun c => preload c x)
      | some f =>
        let a := frameAddr s h x.part f
        let (s, st, b) := mrd s h a 640
        if st = .ok && !x.lost && byteAt b 79 = crc8 (b.take 79).reverse then start s (fun c => loadFrame c b)
        else
          let s := dropFrame s h x
          let s := journal s h evCtrlCheck false x.part (detail [(16, 1, 3), (23, 8, a)])
          takeNext (trace s h x.part 7 (keyTag x.key 0) (4 * 4096) (i % 32)) i fuel

/-- Entries a core can pass over: what its ready list holds, and one refill for each 16. -/
def takeFuel (s : State) (i : Nat) : Nat := 2 * (readyOf s i).len + 2

def coreNext (s : State) (i : Nat) : State := takeNext s i (takeFuel s i)

/-- The running instance ends (R151 DONE): its frame is freed, a COMPLETE record is written, the core takes its
next. -/
def endInstance (s : State) (i : Nat) : State :=
  match (getCore s i).running with
  | none => coreNext s i
  | some x =>
    let s := dropFrame s (i / 32) x
    coreNext (trace s (i / 32) x.part 4 (instTag x) (min (getCore s i).sent 0xFFFF) (i % 32)) i

/-- Move the ready list of core i to other cores by R144 when it drains (R153): each instance in its order, those
with frames at the head of their class; what no core takes goes to the backlog. -/
def moveReady (s : State) (i : Nat) : State :=
  let r := readyOf s i
  let all := r.on ++ r.s3 ++ r.s2 ++ r.s1 ++ r.s0
  let s := setReady s i ⟨[], [], [], [], []⟩
  let framed := (all.filter (fun x => x.frame.isSome)).reverse
  let plain := all.filter (fun x => x.frame.isNone)
  (framed ++ plain).foldl (fun s x =>
    match place s x false with
    | some t => t
    | none => setInbox s x.hub.val (inboxOf s x.hub.val ++ [x])) s

/-- Core i leaves service at once: its running instance is abandoned without a frame, its ready list moves (R52, R217,
R360). -/
def abandon (s : State) (i : Nat) : State :=
  let s := match (getCore s i).running with
    | some x => dropFrame s (i / 32) x
    | none => s
  let s := updCore s i (fun c => { c with
    running := none, rstate := .out, drain := false, bare := false, sleep := false, sent := 0, preempt := false,
    fpu := none, lladdr := 0, portWait := false, ports := [], micro := none })
  svcEnd (moveReady (forgetCores s (· == i)) i) 5 (i / 32) (i % 32) 0

/-! ## Cancellation (R154 to R157, R162) -/

/-- Does a key or context selection of hub h match? -/
def selKey (ctx : BitVec 12) (key : Option (BitVec 56)) (k : BitVec 56) : Bool :=
  match key with
  | some k' => k == k'
  | none => keyCtx k == ctx.toNat

/-- Remove matching instances of hub h from a list; the frames of those removed are freed. -/
def cutInsts (s : State) (h : Nat) (sel : BitVec 56 → Bool) (l : List Inst) : State × List Inst :=
  let hit (x : Inst) : Bool := x.hub.val == h && sel x.key
  ((l.filter hit).foldl (fun s x => dropFrame s x.fhub x) s, l.filter (fun x => !(hit x)))

/-- Remove matching ready entries of every core. -/
def cutReady (s : State) (h : Nat) (sel : BitVec 56 → Bool) : State :=
  (s.dsp.ready.map (·.1)).foldl (fun s i =>
    let r := readyOf s i
    let (s, on) := cutInsts s h sel r.on
    let (s, s0) := cutInsts s h sel r.s0
    let (s, s1) := cutInsts s h sel r.s1
    let (s, s2) := cutInsts s h sel r.s2
    let (s, s3) := cutInsts s h sel r.s3
    setReady s i ⟨on, s0, s1, s2, s3⟩) s

/-- Remove matching backlog entries. -/
def cutBacklog (s : State) (h : Nat) (sel : BitVec 56 → Bool) : State :=
  (List.range 8).foldl (fun s p =>
    let (s, l) := cutInsts s h sel (backlogOf s h p)
    setBacklog s h p l) s

/-- A matching instance at the dispatch unit loses to the cancel: CANARR (R157). -/
def cutInbox (s : State) (h : Nat) (sel : BitVec 56 → Bool) : State :=
  let l := inboxOf s h
  let s := setInbox s h (l.filter (fun x => !(x.hub.val == h && sel x.key)))
  (l.filter (fun x => x.hub.val == h && sel x.key)).foldl
    (fun s x => trace (dropFrame s x.fhub x) h x.part 9 (instTag x) x.bank noCore) s

/-- Remove matching queued tokens and waiting entries. -/
def cutStore (s : State) (h : Nat) (sel : BitVec 56 → Bool) : State :=
  let keep (l : List Tok) : List Tok := l.filter (fun t => !(sel (tagKey t.tag)))
  let s := (List.range 16).foldl (fun s b =>
    setBlook (setSpill (setAq s h b (keep (getAq s h b))) h b (keep (getSpill s h b))) h b (keep (getBlook s h b))) s
  setEntries s (s.tok.entries.filter (fun e => !(e.hub.val == h && sel e.key)))

/-- Delete matching marks; a fired mark whose token the blocked path keeps back is still a mark (R49, R135). -/
def cutMarks (s : State) (h : Nat) (sel : BitVec 56 → Bool) : State :=
  let s := ((marksOf s h).filter (fun e => sel (tagKey e.2.tag))).foldl (fun s e => cancelMark s h e.1) s
  { s with rul := { s.rul with
    fired := s.rul.fired.filter (fun t => !(t.dst.val == h && sel (tagKey t.tag) && !(pathAccepts s h t))) } }

/-- Turn matching ligature entries into skips (R162). -/
def cutLigs (s : State) (h : Nat) (ctx : BitVec 12) (key : Option (BitVec 56)) : State :=
  let named (e : Lig) : Bool := match e.fill with
    | some (some t) => t.dst.val == h && selKey ctx key (tagKey t.tag)
    | _ => false
  let owned (e : Lig) : Bool := key.isNone && e.owner.toNat == 4096 * h + ctx.toNat &&
    e.fill != some none
  let hits := s.dsp.ligs.filter (fun e => named e || owned e)
  let s := { s with dsp := { s.dsp with
    ligs := s.dsp.ligs.map (fun e => if named e || owned e then { e with fill := some none } else e) } }
  hits.foldl (fun s e => match e.fill with
    | some (some t) => trace s e.hub.val e.part 7 (keyTag (tagKey t.tag) 0) (5 * 4096) noCore
    | _ => s) s

/-- A cancel takes effect at its destination hub. -/
def cancelNow (s : State) (c : Cancel) : State :=
  let h := c.dst.val
  let sel := selKey c.ctx c.key
  let part := (getCtx s h c.ctx.toNat).part
  let s := cutLigs (cutMarks (cutStore (cutInbox (cutBacklog (cutReady s h sel) h sel) h sel) h sel) h sel)
    h c.ctx c.key
  let s := match c.key with
    | some k => trace s h part 7 (keyTag k 0) 0 noCore
    | none =>
      let s := trace s h part 7 (BitVec.ofNat 64 (c.ctx.toNat * 2 ^ 52)) 4096 noCore
      { s with tok := { s.tok with sweeps := s.tok.sweeps ++ [(c.dst, c.ctx, c.purge)] } }
  settle s h

/-- Sweeps held on a hub. -/
def sweepsOf (s : State) (h : Nat) : List (Hub × BitVec 12 × Bool) := s.tok.sweeps.filter (fun e => e.1.val == h)

/-- A cancel may take effect: its core's earlier tokens have arrived, and a context cancel finds fewer than 16
sweeps held (R154, R156). -/
def cancelReady (s : State) (c : Cancel) : Bool :=
  !(s.tok.transit.any (fun t => t.dst == c.dst && t.src == .core (coreOf c.src))) &&
  (c.key.isSome || decide ((sweepsOf s c.dst.val).length < 16))

/-- The first cancel for hub h that may take effect, with no earlier one of its core before it, and the others. -/
def takeCancel (s : State) (h : Nat) (passed : List Nat) : List Cancel → Option (Cancel × List Cancel)
  | [] => none
  | c :: l =>
    if c.dst.val = h && cancelReady s c && !(passed.contains c.src) then some (c, l) else
    (takeCancel s h (if c.dst.val = h then c.src :: passed else passed) l).map (fun r => (r.1, c :: r.2))

/-- CANCEL_POINT: the engine of hub h applies a cancel (R154 to R157). -/
def execCancelPoint (h : Hub) (s : State) : Out :=
  if !(live s h.val) then .next s else
  match takeCancel s h.val [] s.tok.cancels with
  | none => .next s
  | some (c, l) => .next (cancelNow { s with tok := { s.tok with cancels := l } } c)

/-- SWEEP_END: the oldest sweep of hub h ends. Ready entries of its context that rejoined while it ran go (R157). -/
def execSweepEnd (h : Hub) (s : State) : Out :=
  if !(live s h.val) then .next s else
  match sweepsOf s h.val with
  | [] => .next s
  | (_, ctx, _) :: _ =>
    let sel := selKey ctx none
    let s := cutBacklog (cutReady s h.val sel) h.val sel
    let rec drop1 : List (Hub × BitVec 12 × Bool) → List (Hub × BitVec 12 × Bool)
      | [] => []
      | e :: l => if e.1 = h then l else e :: drop1 l
    .next (settle { s with tok := { s.tok with sweeps := drop1 s.tok.sweeps } } h.val)

/-- A running instance of context x of hub h. -/
def runsCtx (s : State) (h x : Nat) : Bool :=
  s.cpu.cores.any (fun e => match e.2.running with
    | some i => i.hub.val == h && instCtx i == x
    | none => false)

/-- Something on either hub still names context x of hub h. -/
def ctxNamed (s : State) (h x : Nat) : Bool :=
  let tk (t : Tok) : Bool := t.dst.val == h && tagCtx t.tag == x
  let inst (i : Inst) : Bool := i.hub.val == h && instCtx i == x
  s.tok.transit.any tk || s.rul.fired.any tk ||
  (List.range 16).any (fun b => (getAq s h b).any tk || (getSpill s h b).any tk || (getBlook s h b).any tk) ||
  s.tok.entries.any (fun e => e.hub.val == h && keyCtx e.key == x) ||
  (inboxOf s h).any inst ||
  s.dsp.ready.any (fun e => e.2.on.any inst || e.2.s0.any inst || e.2.s1.any inst || e.2.s2.any inst || e.2.s3.any inst) ||
  (List.range 8).any (fun p => (backlogOf s h p).any inst) ||
  (marksOf s h).any (fun e => tagCtx e.2.tag == x) ||
  s.dsp.ligs.any (fun e => match e.fill with | some (some t) => tk t | _ => false) ||
  s.tok.cancels.any (fun c => c.dst.val == h && c.ctx.toNat == x) || sweeping s h x || runsCtx s h x

/-- CONTEXT_RETURN_FREE: a context in PURGE that nothing names returns to FREE (R125). -/
def execContextReturnFree (h : Hub) (x : BitVec 12) (s : State) : Out :=
  let c := getCtx s h.val x.toNat
  if !(live s h.val) || c.state ≠ .purge || ctxNamed s h.val x.toNat then .next s else
  let n := s.tok.freeSeq + 1
  .next (setCtx { s with tok := { s.tok with freeSeq := n } } h.val x.toNat { c with state := .free, freed := n })

/-! ## Ordered flows (R158 to R162) -/

def flowOf (s : State) (h f : Nat) : FlowSt := tget (fun _ => ⟨0, 0⟩) s.dsp.flows (4096 * h + f)
def setFlow (s : State) (h f : Nat) (x : FlowSt) : State :=
  { s with dsp := { s.dsp with flows := tset (fun _ => ⟨0, 0⟩) s.dsp.flows (4096 * h + f) x } }
def flowPending (x : FlowSt) : Nat := (x.alloc - x.rel).toNat
def flowEn (s : State) (h f : Nat) : Bool := rdB s h (R.FLOW f) 31
def flowPart (s : State) (h f : Nat) : Nat := rdF s h (R.FLOW f) 30 28

def isLig (h f : Nat) (q : W32) (e : Lig) : Bool := e.hub.val == h && e.flow == f && e.seq == q
def ligAt (s : State) (h f : Nat) (q : W32) : Option Lig := s.dsp.ligs.find? (isLig h f q)
def setLigs (s : State) (l : List Lig) : State := { s with dsp := { s.dsp with ligs := l } }
/-- Entries of p on chip (LIGU). -/
def ligUsed (s : State) (h p : Nat) : Nat :=
  (s.dsp.ligs.filter (fun e => e.hub.val == h && e.part == p && e.onchip)).length
def ligShare (s : State) (h p : Nat) : Nat := rdF s h (R.LIGQ p) 16 0

/-- The entry at NEXTREL of a flow, when it is filled. -/
def headFilled (s : State) (h f : Nat) : Option Lig :=
  if !(flowEn s h f) then none else
  match ligAt s h f (flowOf s h f).rel with
  | some e => if e.fill.isSome then some e else none
  | none => none

/-- The flows of hub h that hold entries, each once. -/
def ligFlows (s : State) (h : Nat) : List Nat :=
  (s.dsp.ligs.filter (fun e => e.hub.val == h)).foldl (fun l e => if l.contains e.flow then l else l ++ [e.flow]) []

/-- The releasable flow next after the one served last, in order of flow number with wrap. -/
def nextFlow (s : State) (h : Nat) : Option Nat :=
  let last := tget (fun _ => 4095) s.dsp.rr h
  ((ligFlows s h).foldl (fun (b : Option (Nat × Nat)) f =>
    if (headFilled s h f).isNone then b else
    let k := (f + 4096 - (last + 1)) % 4096
    match b with
    | none => some (k, f)
    | some (k', f') => if k < k' then some (k, f) else some (k', f')) none).map (·.2)

/-- LIGATURE_RELEASE: the next filled head leaves, its token into the token path; a head still in a blotter that
does not answer is lost (R160, R161, R429). -/
def execLigatureRelease (h : Hub) (s : State) : Out :=
  if !(live s h.val) then .next s else
  match nextFlow s h.val with
  | none => .next s
  | some f =>
    match headFilled s h.val f with
    | none => .next s
    | some e =>
      let x := flowOf s h.val f
      let go (s : State) : State :=
        setFlow { s with dsp := { s.dsp with
            ligs := s.dsp.ligs.filter (fun y => !(isLig h.val f x.rel y)),
            rr := tset (fun _ => 4095) s.dsp.rr h.val f } } h.val f { x with rel := x.rel + 1 }
      match e.fill with
      | some (some t) =>
        if !e.onchip && !(bltServes s h.val e.part) then .next (settle (tagFail (go s) h.val t.tag) h.val) else
        if !(pathAccepts s t.dst.val t) then .next (settle s t.dst.val) else
        .next (settle (trace (inject (go s) h.val { t with src := .ligature }) h.val e.part 8 t.tag f noCore) h.val)
      | _ =>
        .next (settle (trace (go s) h.val e.part 8 (BitVec.ofNat 64 (e.owner.toNat % 4096 * 2 ^ 52)) (f + 4096) noCore)
          h.val)

/-- LIGATURE_REFILL: the flow's spilled entries within 16 of its head come back on chip while the share has room
(R161). -/
def execLigatureRefill (h : Hub) (f : BitVec 12) (s : State) : Out :=
  if !(live s h.val) then .next s else
  let x := flowOf s h.val f.toNat
  .next (settle ((List.range 16).foldl (fun s k =>
    let q := x.rel + BitVec.ofNat 32 k
    match ligAt s h.val f.toNat q with
    | none => s
    | some e =>
      if e.onchip || ligShare s h.val e.part ≤ ligUsed s h.val e.part then s else
      let tag : W64 := match e.fill with | some (some t) => t.tag | _ => 0
      if bltServes s h.val e.part then
        trace (setLigs s (s.dsp.ligs.map (fun y =>
          if isLig h.val f.toNat q y then { y with onchip := true } else y))) h.val e.part 6 tag 3 noCore
      else
        tagFail (setLigs s (s.dsp.ligs.map (fun y =>
          if isLig h.val f.toNat q y then { y with onchip := true, fill := some none } else y))) h.val tag) s) h.val)

/-- FLOW[f] by P0 (R158): setting EN sets both counts to 0; clearing it while entries are pending is discarded, and
PART stands while EN is 1. -/
def writeFlow (s : State) (m : Master) (h f : Nat) (v : W32) : State :=
  if !(asP0 s m) then s else
  let en := flowEn s h f
  if en then
    if fld v 30 28 ≠ flowPart s h f then s
    else if fld v 31 31 = 0 && flowPending (flowOf s h f) ≠ 0 then s
    else setCsr s h (R.FLOW f) (v &&& 0xF0000000)
  else
    let s := setCsr s h (R.FLOW f) (v &&& 0xF0000000)
    if fld v 31 31 = 1 then setFlow s h f ⟨0, 0⟩ else s

/-- FLOW_ENABLE (R158). -/
def execFlowEnable (m : Master) (h : Hub) (f : BitVec 12) (v : W32) (s : State) : Out :=
  .next (if live s h.val then writeFlow s m h.val f.toNat v else s)

/-! ## The structural-deadlock detector (R137 to R139) -/

/-- A tag names a context of p on hub h. -/
def tagOf (s : State) (h p : Nat) (t : W64) : Bool :=
  (getCtx s h (tagCtx t)).state != .free && tagPart s h t == p

/-- The tags, with their hubs, of the tokens that a rung mailbox command will end in: TOKEN, SVC with TOK, and
CHOPREQ whose request has TOK. -/
def bellTags (s : State) (h : Nat) (x : Bell) : List (Nat × W64) :=
  let w (k : Nat) : Nat := (csr s h (R.MBCMD x.slot k)).toNat
  let pair (k : Nat) : Nat := w (k + 1) * 2 ^ 32 + w k
  match w 0 % 256 with
  | 0x40 => [(w 6 % 256, BitVec.ofNat 64 (pair 2))]
  | 0x11 => if w 3 % 2 = 1 then [(h, BitVec.ofNat 64 (pair 4))] else []
  | 0x30 =>
    let b := rbs s (pair 2) 64
    if (byteAt b 1).getLsbD 0 then [(w 4 % 256, BitVec.ofNat 64 (leAt b 24 8))] else []
  | _ => []

/-- A request that will end in a token for p. -/
def pendingReq (s : State) (p : Nat) : Bool :=
  let tk (t : Tok) : Bool := tagOf s t.dst.val p t.tag
  s.evi.queue.any (fun e => e.2.any (fun r => r.tok.any tk)) ||
  s.evi.reserved.any (fun e => e.2.any (fun r => r.tok.any tk)) ||
  s.evi.signer.any (fun r => r.tok.any tk) ||
  s.svc.svcs.any (fun v => match v.tok with | some t => tagOf s v.box.val p t | none => false) ||
  s.lan.bells.any (fun e => e.2.any (fun x => (bellTags s e.1 x).any (fun t => tagOf s t.1 p t.2)))

/-- Array work that a core of p has commanded. -/
def pendingWords (s : State) (p : Nat) : Bool :=
  let item : QItem → Bool | .word q => q.part == p | .change _ => false
  let run (r : Run) : Bool := corePart s r.core == p
  s.arr.gangs.any (fun e => e.2.queue.any item ||
    (e.2.body.any (fun q => q.part == p) && !e.2.loops.isEmpty) ||
    (e.2.btoks ++ e.2.ctoks).any (fun t => tagOf s t.dst.val p t.tag)) ||
  s.arr.sheets.any (fun e => e.2.inQ.any run || e.2.outQ.any run)

/-- Partition p is quiet as the detector of hub h sees it (R137). -/
def quiet (s : State) (h p : Nat) : Bool :=
  let inst (i : Inst) : Bool := i.part == p
  let tk (t : Tok) : Bool := tagOf s t.dst.val p t.tag
  (List.range 64).all (fun i =>
    !(hubOk s (i / 32)) || !(rdB s (i / 32) (R.PCORES p) (i % 32)) || (getCore s i).rstate == .out ||
    (getCore s i).isIdle) &&
  !(s.dsp.ready.any (fun e => e.2.on.any inst || e.2.s0.any inst || e.2.s1.any inst || e.2.s2.any inst || e.2.s3.any inst)) &&
  !(s.dsp.inbox.any (fun e => e.2.any inst)) &&
  !(s.dsp.backlog.any (fun e => e.2.any inst)) &&
  !(s.tok.aq.any (fun e => e.2.any tk)) && !(s.tok.spill.any (fun e => e.2.any tk)) &&
  !(s.tok.blook.any (fun e => e.2.any tk)) && !(s.tok.transit.any tk) && !(s.rul.fired.any tk) &&
  !(pendingWords s p) && !(pendingReq s p) &&
  (!(rdB s h (R.SDCTL p) 30) ||
    !((List.range 2).any (fun g => (marksOf s g).any (fun e => tagOf s g p e.2.tag))))

/-- Waiting entries of p on hub h. -/
def waiting (s : State) (h p : Nat) : List Entry :=
  s.tok.entries.filter (fun e => e.hub.val == h && e.part == p)

def setMarker (s : State) (h p : Nat) (v : Option Bool) : State :=
  { s with tok := { s.tok with marker := tset (fun _ => none) s.tok.marker (8 * h + p) v } }

/-- DRAIN_MARKER_LAUNCH: p is quiet and something of it waits on this hub (R137). -/
def execDrainMarkerLaunch (h : Hub) (p : Part) (s : State) : Out :=
  if live s h.val && rdB s h.val (R.SDCTL p.val) 31 && !(rdB s h.val (R.SDSTAT p.val) 31) &&
      quiet s h.val p.val && !(waiting s h.val p.val).isEmpty &&
      (tget (fun _ => none) s.tok.marker (8 * h.val + p.val)).isNone then
    .next (setMarker s h.val p.val (some true))
  else .next s

/-- The contexts with waiting entries, ascending. -/
def waitingCtxs (s : State) (h p : Nat) : List Nat :=
  sortKey id ((waiting s h p).foldl (fun l e => if l.contains (keyCtx e.key) then l else l ++ [keyCtx e.key]) [])

/-- A snapshot record (R139). -/
def snapRecord (s : State) (h c : Nat) : Bytes :=
  let l := ctxEntries s h c
  let blt := (l.filter (fun e => e.place != .way)).length
  let (tag, b20) := match l with
    | [] => (0, 0)
    | e :: _ => ((keyTag e.key 0).toNat, presence e.vals + 16 * (e.arity - 1))
  natLe 2 c ++ zeros 2 ++ natLe 4 l.length ++ natLe 4 blt ++ natLe 8 tag ++ natLe 1 b20 ++ zeros 11

/-- The report of a stall (R138, R139). -/
def reportStall (s : State) (h p : Nat) : State :=
  let ctxs := waitingCtxs s h p
  let n := min ctxs.length (rdF s h (R.SDCTL p) 15 0)
  let base := rdF s h (R.SNAPHI p) 15 0 * 2 ^ 32 + (csr s h (R.SNAPLO p)).toNat
  let head := natLe 8 (refPos s h).toNat ++ natLe 1 p ++ natLe 1 h ++ natLe 2 n ++ natLe 2 ctxs.length ++ zeros 2 ++
    natLe 4 (storeUsed s h p) ++ natLe 4 (poolPages s h p) ++ zeros 40
  let (s, st) := mwr s h none base head
  let (s, bad) := (ctxs.take n).foldl (fun (r : State × Nat × Bool) c =>
      let (s, k, bad) := r
      let (s, st) := mwr s h none (base + 64 + 32 * k) (snapRecord s h c)
      (s, k + 1, bad || st != .ok)) (s, 0, st != .ok) |> (fun r => (r.1, r.2.2))
  let s := bump (wrB s h (R.SDSTAT p) 31 true) h (R.SDSTAT p) 15 0 1
  let s := journal s h evStall false p (detail [(16, 1, 1), (17, 1, p), (18, 2, n), (20, 2, ctxs.length)])
  if rdB s h (R.SDCTL p) 29 then
    let v := n + ctxs.length * 2 ^ 16 + b2n (decide (n < ctxs.length)) * 2 ^ 32 + b2n bad * 2 ^ 33
    inject s h (mkTok (csr64 s h (R.STALLTAGLO p) (R.STALLTAGHI p)) (BitVec.ofNat 64 v) h .stall p)
  else s

/-- STALL_DETECT: the drain marker returns; p is stalled when it has been quiet throughout (R137, R138). -/
def execStallDetect (h : Hub) (p : Part) (s : State) : Out :=
  if !(live s h.val) then .next s else
  match tget (fun _ => none) s.tok.marker (8 * h.val + p.val) with
  | none => .next s
  | some q =>
    let s := setMarker s h.val p.val none
    if q && quiet s h.val p.val && !(waiting s h.val p.val).isEmpty && rdB s h.val (R.SDCTL p.val) 31 &&
        !(rdB s h.val (R.SDSTAT p.val) 31) then
      .next (reportStall s h.val p.val)
    else .next s

end Sys2Proof.Machine
end

