-- ==== Sys2Proof/Machine/Reservoir.lean ====
section
/-! DEFINITION. Seal chains as the state holds them, the occupancy of the reservoir and the priority flow control
that it orders (R298, R318, R324). -/
namespace Sys2Proof.Machine

/-! ## Chains (R278, R287) -/

def chainDflt : Chain :=
  { state := .free, h := 0, cnt := 0, next := 0, ring := 0, src1 := false, rid := 0x7FF, part := 0, rate := 0,
    sealb := 0, sealr := 0, sealrid := 0, ns := 0, sealPos := 0, bandmax := 0, lost := 0, seq := 0, band := [],
    broken := none, half := 0 }
def chainKey (h c : Nat) : Nat := 1024 * h + c
def getChain (s : State) (h c : Nat) : Chain := tget (fun _ => chainDflt) s.evi.chains (chainKey h c)
def setChain (s : State) (h c : Nat) (x : Chain) : State :=
  { s with evi := { s.evi with chains := tset (fun _ => chainDflt) s.evi.chains (chainKey h c) x } }
def updChain (s : State) (h c : Nat) (f : Chain → Chain) : State := setChain s h c (f (getChain s h c))
/-- Chains of hub h that are not FREE, by number. -/
def chainsOf (s : State) (h : Nat) : List (Nat × Chain) :=
  ((s.evi.chains.filter (fun e => e.1 / 1024 == h && e.2.state != .free))).map (fun e => (e.1 % 1024, e.2))
/-- Those that are OPEN. -/
def openChains (s : State) (h : Nat) : List Nat :=
  ((chainsOf s h).filter (fun e => e.2.state == .opened)).map (·.1)

def ringKey (h r : Nat) : Nat := 4 * h + r
def ringQ (s : State) (h r : Nat) : List Req := tget (fun _ => []) s.evi.queue (ringKey h r)
def setRingQ (s : State) (h r : Nat) (l : List Req) : State :=
  { s with evi := { s.evi with queue := tset (fun _ => []) s.evi.queue (ringKey h r) l } }

/-! ## Occupancy (R324) -/

/-- A line channel is an IN channel in the reservoir, in half `half`. -/
def reservoirIn (s : State) (h c half : Nat) : Bool :=
  rdB s h (R.LCH c) 31 && !(rdB s h (R.LCH c) 30) && rdB s h (R.LCH c) 29 &&
  (csr s h (R.LCHBASELO c)).toNat / 0x1000000 % 2 == half

/-- Bytes of open and waiting SRC 1 bands in a half. A band waits beyond the 64 places of its ring's queue. -/
def bandBytes (s : State) (h half : Nat) : Nat :=
  let openB := (chainsOf s h).foldl (fun a e => if e.2.half = half then a + e.2.band.length else a) 0
  (List.range 4).foldl (fun a r =>
    ((ringQ s h r).drop 64).foldl (fun a q =>
      if q.kind == .band && (getChain s h q.chain).src1 && (getChain s h q.chain).half == half then a + q.body.length
      else a) a) openB

/-- Bytes of the reservoir in use in a half. -/
def occBytes (s : State) (h half : Nat) : Nat :=
  (List.range 64).foldl (fun a c =>
    if reservoirIn s h c half then a + 512 * (csr s h (R.LCHWR c) - csr s h (R.LCHRD c)).toNat else a)
    (bandBytes s h half)

/-! ## Priority flow control (R298, R318) -/

/-- Lane n is the first lane of an Ethernet MAC in use. -/
def isMac (s : State) (h n : Nat) : Bool :=
  laneOk s h n && rdB s h (R.LCTL n) 31 && rdF s h (R.LCTL n) 3 0 ≠ 4 &&
  decide (1 ≤ rdF s h (R.LCTL n) 27 24) && decide (rdF s h (R.LCTL n) 27 24 ≤ 6)
/-- A MAC that paces the evidence priority: of a partition with the E plane, with flow control on. -/
def pacesE (s : State) (h n : Nat) : Bool :=
  isMac s h n && rdB s h (R.PFC n) 31 && partPlane s h (rdF s h (R.LCTL n) 22 20) == 0

/-- Send the PFC frame with a pause time on one lane. -/
def sendPfc (s : State) (h n time : Nat) : State :=
  { s with lan := { s.lan with pfcOut := (16 * h + n, time) :: s.lan.pfcOut } }
def orderPfc (s : State) (h time : Nat) : State :=
  (List.range 16).foldl (fun s n => if pacesE s h n then sendPfc s h n time else s) s

def xoffNow (s : State) (h : Nat) : Bool := tget (fun _ => false) s.lan.xoff h
def setXoff (s : State) (h : Nat) (v : Bool) : State :=
  { s with lan := { s.lan with xoff := tset (fun _ => false) s.lan.xoff h v } }

/-- Occupancy at RSVXOFF orders XOFF, at RSVXON orders XON (R298). -/
def settleXoff (s : State) (h : Nat) : State :=
  let occ := occBytes s h 0 + occBytes s h 1
  if !(xoffNow s h) && rdF s h R.RSVX 15 0 * 1024 ≤ occ then orderPfc (setXoff s h true) h 0xFFFF
  else if xoffNow s h && occ ≤ rdF s h R.RSVX 31 16 * 1024 then orderPfc (setXoff s h false) h 0
  else s

end Sys2Proof.Machine
end

