-- ==== Sys2Proof/Machine/Array.lean ====
section
/-! DEFINITION. Sheets, gangs and array words (R54 to R114). A gang's members run in step: each executes every
word of the stream at the same moment (assumption 21). -/
namespace Sys2Proof.Machine

/-! ## Sheets and gangs -/

/-- A sheet after POR_N: OFF, a gang of one (R84). Its latches and planes, which are lost with power, read 0. -/
def sheetDflt (sh : Nat) : SheetSt :=
  { state := .off, before := .off, x := 0, y := 0, c := 0, m := 0, t := 0, stack := [], inQ := [], outQ := [],
    gid := sh, gw := 1, gh := 1, gx := 0, gy := 0, inRuns := 0, outRuns := 0 }
def getSheet (s : State) (sh : Nat) : SheetSt := tget sheetDflt s.arr.sheets sh
def setSheet (s : State) (sh : Nat) (x : SheetSt) : State :=
  { s with arr := { s.arr with sheets := tset sheetDflt s.arr.sheets sh x } }
def updSheet (s : State) (sh : Nat) (f : SheetSt → SheetSt) : State := setSheet s sh (f (getSheet s sh))

def gangDflt : GangSt :=
  { queue := [], claim := none, body := [], lpos := 0, loops := [], skip := 0, blots := [], blot := false,
    finder := 0, btoks := [], ctoks := [], flt0 := 0, flt1 := 0, halted := false, haltReq := false, step := false }
def getGang (s : State) (g : Nat) : GangSt := tget (fun _ => gangDflt) s.arr.gangs g
def setGang (s : State) (g : Nat) (x : GangSt) : State :=
  { s with arr := { s.arr with gangs := tset (fun _ => gangDflt) s.arr.gangs g x } }
def updGang (s : State) (g : Nat) (f : GangSt → GangSt) : State := setGang s g (f (getGang s g))

/-- Sheet g is present and is the identity of its gang (R67). -/
def isGang (s : State) (g : Nat) : Bool := sheetOk s g && (getSheet s g).gid == g
/-- Members of gang g, ascending. -/
def members (s : State) (g : Nat) : List Nat :=
  (List.range 24).filter (fun sh => sheetOk s sh && (getSheet s sh).gid == g)
/-- The member at a gang position. -/
def memberAt (s : State) (g gx gy : Nat) : Option Nat :=
  (members s g).find? (fun sh => (getSheet s sh).gx == gx && (getSheet s sh).gy == gy)
/-- SHCFG.PART. -/
def sheetPart (s : State) (sh : Nat) : Nat := rdF s (sheetHome s sh) (R.SHCFG sh) 26 24
/-- More than one die in the gang. -/
def crossDie (s : State) (g : Nat) : Bool := (members s g).any (fun sh => sh / 4 != g / 4)

/-! ## Planes (R58 to R61) -/

def allNibs : Plane := BitVec.allOnes 16384
/-- New value where `m` is 1, old elsewhere. -/
def sel (m new old : Plane) : Plane := (new &&& m) ||| (old &&& ~~~m)
def maj (a b c : Plane) : Plane := (a &&& b) ||| (a &&& c) ||| (b &&& c)
def plane (s : State) (sh p : Nat) : Plane := tget (fun _ => 0) s.arr.planes (4096 * sh + p)
/-- A row slice: logical columns 0 to 127 from bit 0 (R60). -/
def rowSlice (v : Plane) (row : Nat) : BitVec 128 := v.extractLsb' (128 * row) 128
def putRow (v : Plane) (row : Nat) (b : BitVec 128) : Plane :=
  sel ((BitVec.allOnes 128).setWidth 16384 <<< (128 * row)) (b.setWidth 16384 <<< (128 * row)) v

def sliceKey (sh p row : Nat) : Nat := (4096 * sh + p) * 128 + row
def sliceBad (s : State) (sh p row : Nat) : BitVec 20 := tget (fun _ => 0) s.arr.bad (sliceKey sh p row)
def setSliceBad (s : State) (sh p row : Nat) (m : BitVec 20) : State :=
  { s with arr := { s.arr with bad := tset (fun _ => 0) s.arr.bad (sliceKey sh p row) m } }
/-- Write a whole plane, with valid check symbols. -/
def setPlane (s : State) (sh p : Nat) (v : Plane) : State :=
  { s with arr := { s.arr with
      planes := tset (fun _ => 0) s.arr.planes (4096 * sh + p) v
      bad := tkeep (fun k => k / 128 != 4096 * sh + p) s.arr.bad } }
/-- Write one row slice, with valid check symbols. -/
def setSlice (s : State) (sh p row : Nat) (b : BitVec 128) : State :=
  let bad := tset (fun _ => 0) s.arr.bad (sliceKey sh p row) 0
  { s with arr := { s.arr with
      planes := tset (fun _ => 0) s.arr.planes (4096 * sh + p) (putRow (plane s sh p) row b), bad := bad } }

/-- Record an error found in a row slice (R61, R270, R271): port 0 compute, 1 I/O. -/
def planeErr (s : State) (sh p row sym port src : Nat) (unc : Bool) : State :=
  let h := sheetHome s sh
  let loc := csr s h (R.SHECCLOC sh)
  let valid := fld loc 29 29 == 1
  let same := valid && fld loc 27 16 == p && fld loc 14 8 == row
  let det := detail [(16, 1, 0x20 + sh), (17, 1, sym), (18, 1, src), (24, 2, p), (26, 1, row)]
  let s := if unc then journal (bump s h (R.SHECC sh) 15 0 1) h evMemUncorr false noPart det
    else
      let s := bump s h (R.SHECC sh) 31 16 1
      if same then s else journal s h evMemCorr false noPart det
  if valid && fld loc 31 31 = 1 then s else
  setCsr s h (R.SHECCLOC sh) (BitVec.ofNat 32
    (b2n unc * 2 ^ 31 + port * 2 ^ 30 + 2 ^ 29 + p * 2 ^ 16 + row * 2 ^ 8 + sym))

/-- Data of a row slice as the decoder passes it wrongly (R268). -/
def sliceScramble (s : State) (sh p row : Nat) : State :=
  let b := (Config.freeBits 128 s.fresh)
  let pl := putRow (plane s sh p) row b
  drawn { s with arr := { s.arr with planes := tset (fun _ => 0) s.arr.planes (4096 * sh + p) pl } }

/-- Read one row slice: true when it is uncorrectable (R61, R268; four or more wrong symbols: assumption 6). -/
def readSlice (s : State) (sh p row port src : Nat) : State × Bool :=
  let n := symCount (sliceBad s sh p row)
  if n = 0 then (s, false)
  else if n = 1 then (planeErr s sh p row (symLow (sliceBad s sh p row)) port src false, false)
  else if n < 4 then (planeErr s sh p row 0x1F port src true, true)
  else
    let v := Config.freeNat s.fresh % 3
    let s := drawn s
    if v = 0 then (sliceScramble s sh p row, false)
    else if v = 1 then
      let sym := Config.freeNat s.fresh % 20
      (planeErr (sliceScramble (drawn s) sh p row) sh p row sym port src false, false)
    else (planeErr s sh p row 0x1F port src true, true)

/-- Read the row slices of a plane that `rows` names. -/
def readPlane (s : State) (sh p : Nat) (rows : Nat → Bool) (port : Nat) : State × Bool :=
  if s.arr.bad.isEmpty then (s, false) else
  (List.range 128).foldl (fun r row =>
    if rows row then
      let q := readSlice r.1 sh p row port 0
      (q.1, r.2 || q.2)
    else r) (s, false)

/-! ## BIT cycles (R56, R57, R59) -/

/-- What one cycle does in a sheet: the plane written with its value and the nibs that act on it, and the latches
and mask stack afterwards. -/
structure CycOut where
  d  : Option (Nat × Plane × Plane)
  st : SheetSt

/-- A cycle: planes read, and its effect given the state before it, the sheet and the activity of the word. -/
structure Cyc where
  reads : List Nat
  go : State → Nat → Plane → CycOut

/-- The row slice is written whole: every nib of it acts. -/
def rowFull (m : Plane) (row : Nat) : Bool := rowSlice m row == BitVec.allOnes 128

/-- One cycle in every member: all reads see the state before it, and when one fails the cycle has no effect
(R57, R61, R95). Answers the sheets at which it failed. -/
def runCyc (s : State) (ms : List (Nat × Plane)) (k : Cyc) : State × List Nat :=
  let (s, bad) := ms.foldl (fun (r : State × List Nat) m =>
    let (s, b) := k.reads.foldl (fun (q : State × Bool) p =>
      let (s, b) := readPlane q.1 m.1 p (fun _ => true) 0
      (s, q.2 || b)) (r.1, false)
    let (s, b) := match (k.go s m.1 m.2).d with
      | some (p, _, a) =>
        let (s, b') := readPlane s m.1 p (fun row => !(rowFull a row) && !(k.reads.contains p)) 0
        (s, b || b')
      | none => (s, b)
    (s, if b then r.2 ++ [m.1] else r.2)) (s, [])
  if !bad.isEmpty then (s, bad) else
  (ms.foldl (fun t m =>
    let o := k.go s m.1 m.2
    let t := setSheet t m.1 o.st
    match o.d with
    | some (p, v, a) => setPlane t m.1 p (sel a v (plane s m.1 p))
    | none => t) s, [])

/-- Run cycles until one fails; answers how many took effect and where one failed. -/
def runCycs (s : State) (ms : List (Nat × Plane)) : List Cyc → Nat → State × Nat × List Nat
  | [], n => (s, n, [])
  | k :: ks, n =>
    match runCyc s ms k with
    | (s, []) => runCycs s ms ks (n + 1)
    | (s, bad) => (s, n, bad)

/-- Column masks. -/
def colMask (c : Nat) : Plane := (List.range 128).foldl (fun v r => v ||| ((1 : Plane) <<< (128 * r + c))) 0

/-- The neighbours' T in direction `nsel` (0 north, 1 east, 2 south, 3 west) as each nib of sheet sh receives it;
`edge` beyond the gang (R65, R66). -/
def nbrT (s : State) (sh nsel : Nat) (edge : Bool) : Plane :=
  let x := getSheet s sh
  let fill : Plane := if edge then allNibs else 0
  let of (o : Option Nat) : Plane := match o with | some n => (getSheet s n).t | none => fill
  let at' (dx dy : Int) : Option Nat :=
    let gx := (x.gx : Int) + dx
    let gy := (x.gy : Int) + dy
    if gx < 0 || gy < 0 then none else memberAt s x.gid gx.toNat gy.toNat
  match nsel with
  | 0 => (x.t <<< 128) ||| (of (at' 0 (-1)) >>> (127 * 128))
  | 1 => sel (colMask 127) (of (at' 1 0) <<< 127) (x.t >>> 1)
  | 2 => (x.t >>> 128) ||| (of (at' 0 1) <<< (127 * 128))
  | _ => sel (colMask 0) (of (at' (-1) 0) >>> 127) (x.t <<< 1)

/-- The nibs that MASKMODE makes active. -/
def actOf (x : SheetSt) (mm : Nat) : Plane := if mm = 0 then allNibs else if mm = 1 then x.m else ~~~x.m
/-- The members with their activity. -/
def actives (s : State) (g mm : Nat) : List (Nat × Plane) :=
  (members s g).map (fun sh => (sh, actOf (getSheet s sh) mm))

/-- Truth table lookup: bit i = 4a + 2b + c of `tt`. -/
def table3 (tt : Nat) (a b c : Plane) : Plane :=
  (List.range 8).foldl (fun v i =>
    if tt / 2 ^ i % 2 = 1 then
      v ||| ((if i / 4 = 1 then a else ~~~a) &&& (if i / 2 % 2 = 1 then b else ~~~b) &&& (if i % 2 = 1 then c else ~~~c))
    else v) 0

/-- Result and new carry of a BIT word in a sheet (R56). -/
def bitResult (s : State) (sh : Nat) (w : AWord) : Plane × Plane :=
  let x := getSheet s sh
  let a := match fld w 39 38 with
    | 0 => plane s sh (fld w 91 80)
    | 1 => x.x
    | 2 => nbrT s sh (fld w 35 34) (fld w 24 24 == 1)
    | _ => x.y
  let b := match fld w 37 36 with
    | 0 => plane s sh (fld w 79 68)
    | 1 => x.y
    | 2 => x.m
    | _ => 0
  let c := match fld w 33 32 with
    | 0 => x.c
    | 1 => 0
    | 2 => allNibs
    | _ => x.m
  (table3 (fld w 55 48) a b c, table3 (fld w 47 40) a b c)

/-- The cycle of a BIT word (R56, R89). -/
def bitCyc (w : AWord) : Cyc :=
  { reads := (if fld w 39 38 = 0 then [fld w 91 80] else []) ++
      (if fld w 37 36 = 0 && !(fld w 39 38 == 0 && fld w 91 80 == fld w 79 68) then [fld w 79 68] else [])
    go := fun s sh act =>
      let x := getSheet s sh
      let (r, c) := bitResult s sh w
      let x1 := if fld w 30 30 = 1 then { x with x := sel act r x.x, y := sel act x.x x.y } else x
      let x2 := if fld w 29 29 = 1 then { x1 with t := sel act r x.t } else x1
      { d := if fld w 31 31 = 1 then some (fld w 67 56, r, act) else none
        st := if fld w 28 28 = 1 then { x2 with c := sel act c x.c } else x2 } }

/-! ## FIELD words (R90 to R95) -/

/-- k = ceil(log2(n + 1)): the bits of n. -/
def bitLen (n : Nat) : Nat := if n = 0 then 0 else Nat.log2 n + 1
/-- Destination width of a FIELD operation. -/
def fieldWidth (op n : Nat) : Nat :=
  if op = 8 || op = 9 then 1 else if op = 0xD || op = 0xE then 2 * n else if op = 0x10 then bitLen n else n
/-- The operation reads field b. -/
def readsB (op : Nat) : Bool := decide (2 ≤ op) && decide (op ≤ 0xE)
/-- The operation holds a mask-stack entry while it runs (R91). -/
def usesStack (op n : Nat) : Bool := op == 0xA || op == 0xE || (op == 0xD && decide (1 < n))

/-- Two planes that a cycle reads, named once when they are one. -/
def both (a b : Nat) : List Nat := if a = b then [a] else [a, b]

/-- A cycle that writes plane d from a function of the planes read and the latches. -/
def cPut (reads : List Nat) (d : Nat) (f : State → Nat → SheetSt → Plane) : Cyc :=
  { reads := reads, go := fun s sh act => ⟨some (d, f s sh (getSheet s sh), act), getSheet s sh⟩ }
/-- A cycle that sets C in the active nibs. -/
def cSetC (v : Plane) : Cyc :=
  { reads := [], go := fun s sh act =>
      let x := getSheet s sh
      ⟨none, { x with c := sel act v x.c }⟩ }
/-- Adder step: d, when given, takes a xor b xor C; C the carry; `inv` inverts b, `sgn` a and b in the carry. -/
def cAdd (a b : Nat) (d : Option Nat) (inv sgn : Bool) : Cyc :=
  { reads := both a b
    go := fun s sh act =>
      let x := getSheet s sh
      let va := plane s sh a
      let vb := if inv then ~~~(plane s sh b) else plane s sh b
      let f (v : Plane) : Plane := if sgn then ~~~v else v
      ⟨d.map (fun d => (d, va ^^^ vb ^^^ x.c, act)), { x with c := sel act (maj (f va) (f vb) x.c) x.c }⟩ }
/-- Row step of MUL and MULACC: where G (the temporary M), d takes d xor a xor C. -/
def cAcc (a d : Nat) : Cyc :=
  { reads := [a, d]
    go := fun s sh _ =>
      let x := getSheet s sh
      let va := plane s sh a
      let vd := plane s sh d
      ⟨some (d, va ^^^ vd ^^^ x.c, x.m), { x with c := sel x.m (maj va vd x.c) x.c }⟩ }
/-- Carry step: d takes d xor C and C takes old d and C, where G (`temp`) or in the active nibs. -/
def cInc (d : Nat) (temp : Bool) : Cyc :=
  { reads := [d]
    go := fun s sh act =>
      let x := getSheet s sh
      let g := if temp then x.m else act
      let vd := plane s sh d
      ⟨some (d, vd ^^^ x.c, g), { x with c := sel g (vd &&& x.c) x.c }⟩ }
/-- Push M when asked; M takes S and plane b; C takes 0. -/
def cRow (b : Nat) (push : Bool) : Cyc :=
  { reads := [b]
    go := fun s sh act =>
      let x := getSheet s sh
      ⟨none, { x with stack := if push then x.m :: x.stack else x.stack, m := act &&& plane s sh b,
                      c := sel act 0 x.c }⟩ }
/-- M takes the top entry of the mask stack. -/
def popM (x : SheetSt) : SheetSt := { x with m := x.stack.headD x.m, stack := x.stack.drop 1 }

def evenOp (op : Nat) (x y : Plane) : Plane :=
  match op with
  | 0 => x
  | 1 => ~~~x
  | 2 => x &&& y
  | 3 => x ||| y
  | _ => x ^^^ y

def upTo (n : Nat) (f : Nat → Cyc) : List Cyc := (List.range n).map f

/-- Subtract planes `y` where `m` from `x`, least significant first. -/
def subPlanes (m : Plane) : List Plane → List Plane → Plane → List Plane
  | x :: xs, y :: ys, bor =>
    let v := y &&& m
    (x ^^^ v ^^^ bor) :: subPlanes m xs ys ((~~~x &&& (v ||| bor)) ||| (v &&& bor))
  | xs, _, _ => xs

/-- The last cycle of MUL and MULACC: M returns and C takes 0. The signed terms, which the hardware folds into its
rows, are taken off here; the planes in between are undefined where they could be seen (R95). -/
def cMulEnd (a b d n : Nat) (pushed sgn : Bool) : List Cyc :=
  let fin : Cyc :=
    { reads := [], go := fun s sh act =>
        let x := getSheet s sh
        let x := { x with c := sel act 0 x.c }
        ⟨none, if pushed then popM x else x⟩ }
  if !sgn then [fin] else
  -- the upper half of the product, corrected, is put back plane by plane after the end
  [fin] ++
  upTo n (fun j =>
    { reads := [], go := fun s sh act =>
        let pl (base : Nat) (k : Nat) : List Plane := (List.range k).map (fun i => plane s sh (base + i))
        let hi := pl (d + n) n
        let top (f : Nat) : Plane := plane s sh (f + n - 1)
        let full := subPlanes (top a) (subPlanes (top b) hi (pl a n) 0) (pl b n) 0
        -- plane j of the corrected half is fixed by planes 0 to j, so it is written last plane first
        ⟨some (d + n + (n - 1 - j), full.getD (n - 1 - j) 0, act), getSheet s sh⟩ })

/-- The cycles of a FIELD operation (R93). -/
def fieldCycs (op a b d n : Nat) (sgn : Bool) (nsel : Nat) (edge : Bool) : List Cyc :=
  if op ≤ 4 then
    upTo n (fun j => cPut (if op ≤ 1 then [a + j] else both (a + j) (b + j)) (d + j)
      (fun s sh _ => evenOp op (plane s sh (a + j)) (plane s sh (b + j))))
  else if op = 5 then cSetC 0 :: upTo n (fun j => cAdd (a + j) (b + j) (some (d + j)) false false)
  else if op = 6 then upTo n (fun j => cAdd (a + j) (b + j) (some (d + j)) false false)
  else if op = 7 then cSetC allNibs :: upTo n (fun j => cAdd (a + j) (b + j) (some (d + j)) true false)
  else if op = 8 then
    cSetC allNibs :: upTo n (fun j =>
      { reads := both (a + j) (b + j), go := fun s sh act =>
          let x := getSheet s sh
          ⟨none, { x with c := sel act (x.c &&& ~~~(plane s sh (a + j) ^^^ plane s sh (b + j))) x.c }⟩ }) ++
    [cPut [] d (fun _ _ x => x.c)]
  else if op = 9 then
    cSetC allNibs :: upTo n (fun j => cAdd (a + j) (b + j) none true (sgn && j == n - 1)) ++
    [{ reads := [], go := fun s sh act =>
         let x := getSheet s sh
         ⟨some (d, ~~~x.c, act), { x with c := sel act (~~~x.c) x.c }⟩ }]
  else if op = 0xA then
    cSetC allNibs :: upTo n (fun j => cAdd (a + j) (b + j) (some (d + j)) true (sgn && j == n - 1)) ++
    [{ reads := [], go := fun s sh act =>
         let x := getSheet s sh
         ⟨none, { x with stack := x.m :: x.stack, m := act &&& ~~~x.c, c := sel act 0 x.c }⟩ }] ++
    upTo n (fun j =>
      { reads := [d + j], go := fun s sh _ =>
          let x := getSheet s sh
          let v := plane s sh (d + j)
          ⟨some (d + j, v ^^^ x.c, x.m), { x with c := sel x.m (x.c ||| v) x.c }⟩ }) ++
    [{ reads := [], go := fun s sh _ => ⟨none, popM (getSheet s sh)⟩ }]
  else if op = 0xB || op = 0xC then
    cSetC allNibs :: upTo n (fun j => cAdd (a + j) (b + j) none true (sgn && j == n - 1)) ++
    upTo n (fun j => cPut (both (a + j) (b + j)) (d + j) (fun s sh x =>
      if op = 0xB then sel x.c (plane s sh (b + j)) (plane s sh (a + j))
      else sel x.c (plane s sh (a + j)) (plane s sh (b + j))))
  else if op = 0xD then
    upTo n (fun j => cPut (both (a + j) b) (d + j) (fun s sh _ => plane s sh (a + j) &&& plane s sh b)) ++
    [cPut [] (d + n) (fun _ _ _ => 0)] ++
    (List.range (n - 1)).flatMap (fun i =>
      cRow (b + i + 1) (i == 0) :: upTo n (fun j => cAcc (a + j) (d + i + 1 + j)) ++
      [cPut [] (d + i + 1 + n) (fun _ _ x => x.c)]) ++
    cMulEnd a b d n (decide (1 < n)) sgn
  else if op = 0xE then
    (List.range n).flatMap (fun i =>
      cRow (b + i) (i == 0) :: upTo n (fun j => cAcc (a + j) (d + i + j)) ++
      upTo (n - i) (fun m => cInc (d + i + n + m) true)) ++
    cMulEnd a b d n true sgn
  else if op = 0xF then
    (List.range n).flatMap (fun j =>
      [{ reads := [a + j], go := fun s sh act =>
           let x := getSheet s sh
           ⟨none, { x with t := sel act (plane s sh (a + j)) x.t }⟩ },
       cPut [] (d + j) (fun s sh _ => nbrT s sh nsel edge)])
  else
    let k := bitLen n
    { reads := [a], go := fun s sh act =>
        let x := getSheet s sh
        ⟨some (d, plane s sh a, act), { x with c := sel act 0 x.c }⟩ } ::
    upTo (k - 1) (fun m => cPut [] (d + m + 1) (fun _ _ _ => 0)) ++
    (List.range (n - 1)).flatMap (fun j =>
      { reads := [d, a + j + 1], go := fun s sh act =>
          let x := getSheet s sh
          let v := plane s sh d
          let va := plane s sh (a + j + 1)
          ⟨some (d, v ^^^ va, act), { x with c := sel act (v &&& va) x.c }⟩ } ::
      upTo (k - 1) (fun m => cInc (d + m + 1) false))

/-- Fields of a FIELD word. -/
structure FieldW where
  a : Nat
  b : Nat
  d : Nat
  n : Nat
  op : Nat
  sgn : Bool
  mm : Nat
  blot : Bool
  nsel : Nat
  edge : Bool

def fieldOf (w : AWord) : FieldW :=
  { a := fld w 91 80, b := fld w 79 68, d := fld w 67 56, n := fld w 55 50 + 1, op := fld w 49 44
    sgn := fld w 43 43 == 1, mm := fld w 42 41, blot := fld w 40 40 == 1, nsel := fld w 39 38, edge := fld w 37 37 == 1 }

/-- Blot value of each nib of a sheet after a FIELD word (R92). -/
def fieldBlot (s : State) (sh : Nat) (f : FieldW) : Plane :=
  let x := getSheet s sh
  if f.op = 5 || f.op = 6 || f.op = 8 || f.op = 9 then x.c
  else if f.op = 7 then ~~~x.c
  else (List.range (fieldWidth f.op f.n)).foldl (fun v j => v ||| plane s sh (f.d + j)) 0

/-! ## Blots (R70 to R72, R99) -/

/-- The first responder of the gang in row-major order, as a finder result (R72). -/
def finderOf (s : State) (g : Nat) (resp : Nat → Plane) : W32 :=
  let gh := (getSheet s g).gh
  let gw := (getSheet s g).gw
  let hits := (List.range gh).flatMap (fun gy => (List.range 128).flatMap (fun row =>
    (List.range gw).filterMap (fun gx => match memberAt s g gx gy with
      | none => none
      | some sh =>
        if resp sh == 0 then none else
        let b := rowSlice (resp sh) row
        if b = 0 then none else
        match (List.range 128).find? (fun c => b.getLsbD c) with
        | none => none
        | some col => some (BitVec.ofNat 32 (2 ^ 31 + sh * 2 ^ 24 + (128 * gy + row) * 2 ^ 12 + (128 * gx + col))))))
  hits.headD 0

/-- Put a blot in flight (R70). -/
def startBlot (s : State) (g core : Nat) (resp : Nat → Plane) : State :=
  let f := finderOf s g resp
  updGang s g (fun G => { G with blots := G.blots ++ [{ val := fld f 31 31 == 1, finder := f, core := core, toks := [] }] })

/-- Latest blot and finder result, those in flight included (R99). -/
def latestBlot (G : GangSt) : Bool × W32 :=
  match G.blots.getLast? with
  | some b => (b.val, b.finder)
  | none => (G.blot, G.finder)

/-- The value of a blot or completion token (R100). -/
def blotValue (code : Nat) (v : Bool) (f : W32) : W64 :=
  BitVec.ofNat 64 (code * 2 ^ 48 + b2n v * 2 ^ 32 + f.toNat)

/-- A token of the array, to the hub of the core that issued the word (R100). -/
def arrayTok (q : QWord) (tag value : W64) : Tok := mkTok tag value (q.core / 32) .array q.part

/-! ## Words: kinds and checks (R86, R87) -/

/-- Kind of a word: class and operation; 0xFFF for a reserved class or operation. -/
def wordKind (w : AWord) : Nat :=
  let c := fld w 95 92
  let o := fld w 91 88
  if c = 0 then (if o ≤ 1 then o else 0xFFF)
  else if c = 1 then 0x10
  else if c = 2 then (if fld w 49 44 ≤ 0x10 then 0x20 + fld w 49 44 else 0xFFF)
  else if c = 3 then (if o ≤ 1 then 0x40 + o else 0xFFF)
  else if c = 4 then (if o ≤ 1 then 0x48 + o else 0xFFF)
  else if c = 5 then (if o ≤ 5 then 0x50 + o else 0xFFF)
  else if c = 6 then (if o ≤ 7 then 0x60 + o else 0xFFF)
  else 0xFFF

/-- Two fields share a plane. -/
def overlap (p n q m : Nat) : Bool := decide (p < q + m) && decide (q < p + n)

/-- The lowest of the causes that hold; 0 for none. -/
def lowest (l : List (Nat × Bool)) : Nat := match l.find? (·.2) with | some (c, _) => c | none => 0

/-- Mask stacks of the members: some full, some empty. -/
def stackFull (s : State) (g : Nat) : Bool := (members s g).any (fun sh => decide (4 ≤ (getSheet s sh).stack.length))
def stackEmpty (s : State) (g : Nat) : Bool := (members s g).any (fun sh => (getSheet s sh).stack.isEmpty)

/-- A channel is unfit for a LINE word of sheet sh (R96). -/
def badChan (s : State) (sh c lop : Nat) : Bool :=
  let v := csr s (sheetHome s sh) (R.LCH c)
  fld v 31 31 == 0 || fld v 30 30 != lop || fld v 28 26 != sheetPart s sh

/-- The cause with which word w of gang g fails its check, 0 when it passes (R87). -/
def wordCheck (s : State) (g : Nat) (G : GangSt) (w : AWord) : Nat :=
  let c := fld w 95 92
  let o := fld w 91 88
  let nz (hi lo : Nat) : Bool := fld w hi lo != 0
  if 7 ≤ c then 1 else
  if c = 0 then lowest [(2, decide (1 < o)), (3, nz 87 0)]
  else if c = 1 then lowest [(2, fld w 27 26 == 3), (3, nz 23 0)]
  else if c = 2 then
    let f := fieldOf w
    let dw := fieldWidth f.op f.n
    let clash := if f.op = 0xD || f.op = 0xE then overlap f.a f.n f.d dw || overlap f.b f.n f.d dw
      else f.op == 0x10 && overlap f.a f.n f.d dw
    lowest [(2, decide (0x10 < f.op) || f.mm == 3 || clash), (3, nz 36 0),
      (4, decide (f.op ≤ 0x10) && (decide (4096 < f.a + f.n) || decide (4096 < f.d + dw) ||
        (readsB f.op && decide (4096 < f.b + f.n)))),
      (5, usesStack f.op f.n && stackFull s g)]
  else if c = 3 then
    let x := getSheet s g
    let mem := fld w 56 52
    let bad := match memberAt s g (mem % x.gw) (mem / x.gw) with
      | some sh => badChan s sh (fld w 51 46) o
      | none => true
    lowest [(2, decide (1 < o) || decide (x.gw * x.gh ≤ mem) || bad), (3, nz 45 0),
      (4, decide (4096 < fld w 80 69 + fld w 68 64 + 1))]
  else if c = 4 then
    if o = 0 then lowest [(3, nz 86 80 || nz 3 0)]
    else if o = 1 then lowest [(2, fld w 75 74 == 3), (3, nz 72 0)] else 2
  else if c = 5 then
    let inB := !G.loops.isEmpty
    let endB := match G.loops with | l :: _ => l.start + l.len | [] => 0
    let after := G.lpos + 1
    if o = 0 then lowest [(2, fld w 87 80 == 0 || fld w 79 56 == 0), (3, nz 55 0),
      (7, inB && (decide (4 ≤ G.loops.length) || decide (endB < after + fld w 87 80)))]
    else if o = 1 then lowest [(2, fld w 87 80 == 0), (3, nz 78 0), (7, inB && decide (endB < after + fld w 87 80))]
    else if o = 2 then lowest [(3, nz 87 80 || nz 78 0), (7, !inB)]
    else if o = 3 then lowest [(3, nz 87 0)]
    else if o = 4 then lowest [(2, fld w 87 86 == 0), (3, nz 85 0)]
    else if o = 5 then lowest [(3, nz 86 80 || (fld w 87 87 == 1 && nz 3 0)), (7, inB)]
    else 2
  else lowest [(2, decide (7 < o)), (3, nz 74 0), (5, o == 3 && stackFull s g), (6, o == 4 && stackEmpty s g)]

/-! ## The word stream (R104) -/

/-- The next word of the gang: from the body buffer on a replay, else from the head of its queue. -/
def headWord (G : GangSt) : Option QWord :=
  if !G.loops.isEmpty && G.lpos < G.body.length then G.body[G.lpos]? else
  match G.queue with
  | .word q :: _ => some q
  | _ => none

/-- Loop-buffer position of the next word. -/
def headPos (G : GangSt) : Nat := if G.loops.isEmpty then 0xFF else G.lpos

/-- Pass over the next word, recording it when it is part of a body on its first pass. -/
def takeHead (G : GangSt) : GangSt :=
  if G.loops.isEmpty then { G with queue := G.queue.drop 1 }
  else if G.lpos < G.body.length then { G with lpos := G.lpos + 1 }
  else match G.queue with
    | .word q :: l => { G with queue := l, body := G.body ++ [q], lpos := G.lpos + 1 }
    | _ => G

/-- End the loops whose body has just ended: loop back while passes are left (R104). -/
def closeLoops : Nat → GangSt → GangSt
  | 0, G => G
  | k + 1, G => match G.loops with
    | [] => { G with body := [], lpos := 0 }
    | l :: ls =>
      if G.lpos ≠ l.start + l.len then G
      else if 1 < l.left then { G with lpos := l.start, loops := { l with left := l.left - 1 } :: ls }
      else closeLoops k { G with loops := ls }

/-- Pass over the words that a branch leaves unexecuted, as far as they have arrived. -/
def drainSkip : Nat → GangSt → GangSt
  | 0, G => G
  | k + 1, G =>
    if G.skip = 0 then G else
    match headWord G with
    | none => G
    | some _ => drainSkip k (closeLoops 6 { takeHead G with skip := G.skip - 1 })
def settleGang (G : GangSt) : GangSt := drainSkip G.skip G

/-! ## Faults (R82, R112, R113) -/

/-- Words in a queue. -/
def wordsIn (l : List QItem) : Nat := (l.filter (fun i => match i with | .word _ => true | _ => false)).length

/-- Raise the pending ARRAY of core i; later faults set MORE (R112). -/
def raiseArray (s : State) (i : Nat) (v : W64) : State :=
  unquiet (updCore s i (fun c => { c with array := match c.array with
    | none => some v
    | some o => some (o ||| (1 : W64) <<< 32) })) (corePart s i)

/-- An array fault of gang g at word w: `own` are the sheets that detect it, all with `cause`; `check` is a failure
of R87, which counts once (R82, R95, R112, R113). A core of 64 or above stands for none: no trap is raised. -/
def gangFault (s : State) (g : Nat) (own : List Nat) (cause : Nat) (w : AWord) (core lb fcyc : Nat) (check : Bool) : State :=
  let ms := members s g
  let G := getGang s g
  let disc := min (wordsIn G.queue) 0xFF
  let cross := crossDie s g
  let s := ms.foldl (fun s sh =>
    let h := sheetHome s sh
    let mine := own.contains sh
    let c := if mine then cause else 0x20
    let s := setCsr s h (R.SHFAULT sh) (BitVec.ofNat 32 (2 ^ 31 + c * 2 ^ 16 + lb * 2 ^ 8 + disc))
    let s := setCsr (setCsr (setCsr s h (R.SHFW0 sh) (w.extractLsb' 0 32)) h (R.SHFW1 sh) (w.extractLsb' 32 32))
      h (R.SHFW2 sh) (w.extractLsb' 64 32)
    let s := if !mine && cross then setCsr s h (R.AIRUN sh) 0x80000000 else s
    updSheet s sh (fun x => { x with state := .fault, stack := [], inQ := [], outQ := [] })) s
  let low := own.headD g
  let more := !check && decide (1 < own.length)
  let old := G.flt0
  let f0 : W32 := if fld old 31 31 = 1 then setFld old 30 30 1 else
    BitVec.ofNat 32 (2 ^ 31 + b2n more * 2 ^ 30 + core % 32 * 2 ^ 24 + low * 2 ^ 16 + cause * 2 ^ 8 + lb)
  let f1 : W32 := if fld old 31 31 = 1 then G.flt1 else BitVec.ofNat 32 (min fcyc 0x1FFF)
  let s := updGang s g (fun G => { G with
    queue := G.queue.filter (fun i => match i with | .word _ => false | _ => true)
    body := [], lpos := 0, loops := [], skip := 0, flt0 := f0, flt1 := f1,
    halted := false, haltReq := false, step := false })
  if 64 ≤ core then s else
  raiseArray s core (BitVec.ofNat 64 (b2n more * 2 ^ 32 + cause * 2 ^ 24 + lb * 2 ^ 16 + low * 2 ^ 8 + g))

/-- A fault found aside from the word stream: W is the word the compute port executes next; where there is none the
spec names none, and SHFW takes a free value (R61, R429). -/
def asyncFault (s : State) (sh cause core : Nat) : State :=
  let g := (getSheet s sh).gid
  match headWord (getGang s g) with
  | some q => gangFault s g [sh] cause q.w q.core (headPos (getGang s g)) 0 false
  | none => gangFault (drawn s) g [sh] cause (Config.freeBits 96 s.fresh) core 0xFF 0 false

/-! ## Execution of one word -/

/-- The tokens of a gang that the token path keeps back hold up its words (R135). -/
def tokensClear (s : State) (G : GangSt) : Bool := (G.btoks ++ G.ctoks).all (fun t => pathAccepts s t.dst.val t)

/-- The gang can execute a word now: its members are IDLE or in RUN and no debug halt stops them (R80, R386). -/
def gangReady (s : State) (g : Nat) : Bool :=
  serving s (sheetHome s g) && isGang s g && !((getGang s g).halted) && !((getGang s g).haltReq) &&
  (members s g).all (fun sh => (getSheet s sh).state == .idle || (getSheet s sh).state == .run) &&
  tokensClear s (getGang s g)

/-- Runs commanded to a sheet's ports: bit 0 in, bit 1 out. -/
def runsLeft (s : State) (g port : Nat) : Bool :=
  (members s g).any (fun sh =>
    (port % 2 == 1 && !((getSheet s sh).inQ.isEmpty)) || (port / 2 == 1 && !((getSheet s sh).outQ.isEmpty)))

/-- Member sheet of a LINE word. -/
def lineMember (s : State) (g : Nat) (w : AWord) : Nat :=
  let x := getSheet s g
  (memberAt s g (fld w 56 52 % x.gw) (fld w 56 52 / x.gw)).getD g

/-- A word that passed its check waits (R97, R101, R103, R105). -/
def wordWaits (s : State) (g : Nat) (w : AWord) : Bool :=
  let G := getGang s g
  let k := wordKind w
  if k = 0x40 then decide (4 ≤ (getSheet s (lineMember s g w)).inQ.length)
  else if k = 0x41 then decide (4 ≤ (getSheet s (lineMember s g w)).outQ.length)
  else if k = 0x51 || k = 0x52 || k = 0x53 || k = 0x66 then !G.blots.isEmpty
  else if k = 0x54 then runsLeft s g (fld w 87 86)
  else if k = 0x55 then !G.blots.isEmpty || runsLeft s g 3
  else false

/-- Compute cycles of a word; on a failed read the array fault follows (R82, R95). -/
def wordCycs (s : State) (g : Nat) (q : QWord) (lb mm : Nat) (ks : List Cyc) (done : State → State) : State :=
  let before := (members s g).map (fun sh => (sh, getSheet s sh))
  match runCycs s (actives s g mm) ks 0 with
  | (s, _, []) => done s
  | (s, n, bad) =>
    let s := before.foldl (fun s b => updSheet s b.1 (fun x =>
      if b.2.stack.length < x.stack.length then { x with m := b.2.m } else x)) s
    gangFault s g bad 0x10 q.w q.core lb n false

/-- Free values in the destination and in C, in the active nibs, of a signed product that failed (R95). -/
def freeField (s : State) (f : FieldW) (acts : List (Nat × Plane)) : State :=
  acts.foldl (fun s a =>
    let s := (List.range (fieldWidth f.op f.n)).foldl (fun s j =>
      let v := Config.freeBits 16384 s.fresh
      let pl := sel a.2 v (plane s a.1 (f.d + j))
      drawn { s with arr := { s.arr with planes := tset (fun _ => 0) s.arr.planes (4096 * a.1 + f.d + j) pl } }) s
    let v := Config.freeBits 16384 s.fresh
    updSheet (drawn s) a.1 (fun x => { x with c := sel a.2 v x.c })) s

/-- A FIELD word (R90 to R95). -/
def fieldWord (s : State) (g : Nat) (q : QWord) (lb : Nat) : State :=
  let f := fieldOf q.w
  let acts := actives s g f.mm
  let t := wordCycs s g q lb f.mm (fieldCycs f.op f.a f.b f.d f.n f.sgn f.nsel f.edge) (fun t =>
    if f.blot then startBlot t g q.core (fun sh => fieldBlot t sh f &&& (match acts.find? (·.1 == sh) with
      | some a => a.2
      | none => 0)) else t)
  if f.sgn && (f.op == 0xD || f.op == 0xE) && (members t g).any (fun sh => (getSheet t sh).state == .fault) then
    freeField t f acts
  else t

/-- A BIT word (R56, R89). -/
def bitWord (s : State) (g : Nat) (q : QWord) (lb : Nat) : State :=
  let acts := actives s g (fld q.w 27 26)
  wordCycs s g q lb (fld q.w 27 26) [bitCyc q.w] (fun t =>
    if fld q.w 25 25 = 1 then startBlot t g q.core (fun sh => (bitResult s sh q.w).1 &&& (match acts.find? (·.1 == sh) with
      | some a => a.2
      | none => 0)) else t)

/-- A MASK word, in every nib whatever M holds (R101, R102). -/
def maskCyc (w : AWord) : Cyc :=
  let k := fld w 91 88
  let a := fld w 87 76
  let inv : Plane := if fld w 75 75 = 1 then allNibs else 0
  { reads := if k ≤ 2 then [a] else []
    go := fun s sh _ =>
      let x := getSheet s sh
      let v := plane s sh a ^^^ inv
      match k with
      | 0 => ⟨none, { x with m := v }⟩
      | 1 => ⟨none, { x with m := x.m &&& v }⟩
      | 2 => ⟨none, { x with m := x.m ||| v }⟩
      | 3 => ⟨none, { x with stack := x.m :: x.stack }⟩
      | 4 => ⟨none, popM x⟩
      | 5 => ⟨none, { x with m := ~~~inv }⟩
      | 7 => ⟨some (a, x.m ^^^ inv, allNibs), x⟩
      | _ => ⟨none, x⟩ }

/-- MCLRF: M takes 0 in the nib that the finder result names (R101). -/
def mclrf (s : State) (g : Nat) : State :=
  let f := (getGang s g).finder
  if fld f 31 31 = 0 then s else
  updSheet s (fld f 28 24) (fun x =>
    { x with m := x.m &&& ~~~((1 : Plane) <<< (128 * (fld f 23 12 % 128) + fld f 11 0 % 128)) })

/-- A run joins its port's queue; one that a debugger injected goes ahead of the runs that wait for the end of the
halt (R386). -/
def queueRun (l : List Run) (r : Run) : List Run :=
  if r.core < 64 then l ++ [r] else
  l.filter (fun x => decide (64 ≤ x.core)) ++ r :: l.filter (fun x => decide (x.core < 64))

/-- Effect of a word that passed its check and does not wait; the stream has already moved past it. -/
def wordEffect (s : State) (g : Nat) (q : QWord) (lb : Nat) : State :=
  let w := q.w
  let k := wordKind w
  let G := getGang s g
  if k = 0x10 then bitWord s g q lb
  else if 0x20 ≤ k && k ≤ 0x30 then fieldWord s g q lb
  else if k = 0x40 || k = 0x41 then
    let sh := lineMember s g w
    let r : Run := { row := fld w 87 81, base := fld w 80 69, w := fld w 68 64 + 1, len := fld w 63 57 + 1,
                     chan := fld w 51 46, core := q.core }
    updSheet s sh (fun x => if k = 0x40 then { x with inQ := queueRun x.inQ r } else { x with outQ := queueRun x.outQ r })
  else if k = 0x48 then
    let (v, f) := latestBlot G
    if fld w 87 87 = 1 && !v then s else
    let t := arrayTok q (w.extractLsb' 0 64) (blotValue (fld w 79 64) v f)
    updGang s g (fun G => match G.blots.reverse with
      | [] => { G with btoks := G.btoks ++ [t] }
      | b :: bs => { G with blots := (({ b with toks := b.toks ++ [t] }) :: bs).reverse })
  else if k = 0x49 then
    let a := fld w 87 76
    let inv : Plane := if fld w 73 73 = 1 then allNibs else 0
    let mm := fld w 75 74
    wordCycs s g q lb mm [{ reads := [a], go := fun s sh _ => ⟨none, getSheet s sh⟩ }] (fun t =>
      startBlot t g q.core (fun sh => (plane t sh a ^^^ inv) &&& actOf (getSheet t sh) mm))
  else if k = 0x50 then
    updGang s g (fun G =>
      let l : LoopSt := { start := G.lpos, len := fld w 87 80, left := fld w 79 56 }
      if G.loops.isEmpty then { G with loops := [{ l with start := 0 }], body := [], lpos := 0 }
      else { G with loops := l :: G.loops })
  else if k = 0x51 then
    if G.blot == (fld w 79 79 == 1) then updGang s g (fun G => { G with skip := fld w 87 80 }) else s
  else if k = 0x52 then
    if G.blot == (fld w 79 79 == 1) then
      updGang s g (fun G => match G.loops with
        | [] => G
        | l :: ls => { G with loops := { l with left := 1 } :: ls, skip := l.start + l.len - G.lpos })
    else s
  else if k = 0x55 then
    let s := if fld w 87 87 = 1 then
        let t := arrayTok q (w.extractLsb' 0 64) (blotValue (fld w 79 64) G.blot G.finder)
        updGang s g (fun G => { G with ctoks := G.ctoks ++ [t] })
      else s
    if wordsIn (getGang s g).queue = 0 then
      (members s g).foldl (fun s sh => updSheet s sh (fun x => { x with state := .idle })) s
    else s
  else if k = 0x66 then mclrf s g
  else if 0x60 ≤ k && k ≤ 0x67 then wordCycs s g q lb 0 [maskCyc w] id
  else s

/-! ## Debug halts of a gang (R386) -/

/-- Every member enters HALT once the halt is requested, every member is IDLE or in RUN and no blot is in flight. -/
def haltNow (s : State) (g : Nat) : State :=
  let G := getGang s g
  if !G.haltReq || !G.blots.isEmpty ||
      !((members s g).all (fun sh => (getSheet s sh).state == .idle || (getSheet s sh).state == .run)) then s else
  let s := (members s g).foldl (fun s sh => updSheet s sh (fun x => { x with before := x.state, state := .halt })) s
  updGang s g (fun G => { G with haltReq := false, halted := true })

/-- Every member returns to the state it held before HALT. -/
def unhalt (s : State) (g : Nat) : State :=
  let s := (members s g).foldl (fun s sh => updSheet s sh (fun x =>
    if x.state = .halt then { x with state := x.before } else x)) s
  updGang s g (fun G => { G with halted := false })

/-- The word that DGINJ of gang g holds waits to execute. -/
def injecting (s : State) (g : Nat) : Bool := tget (fun _ => false) s.dbg.stepping g
def setInjecting (s : State) (g : Nat) (v : Bool) : State :=
  { s with dbg := { s.dbg with stepping := tset (fun _ => false) s.dbg.stepping g v } }

/-- The 96-bit word in DGINJ. -/
def injWord (s : State) (g : Nat) : AWord :=
  let h := sheetHome s g
  (csr s h (R.DGINJ g 2)).setWidth 96 <<< 64 ||| (csr s h (R.DGINJ g 1)).setWidth 96 <<< 32 |||
    (csr s h (R.DGINJ g 0)).setWidth 96

/-- The injected word executes ahead of the issue queue while the gang is in HALT, and the gang stays there; a word
that must wait executes when it can. No core issued it. -/
def injectNow (s : State) (g : Nat) : State :=
  if !(injecting s g) then s else
  if !((getGang s g).halted) then setInjecting s g false else
  let q : QWord := { w := injWord s g, core := 64 + 32 * sheetHome s g, part := sheetPart s g }
  let line := wordKind q.w == 0x40 || wordKind q.w == 0x41
  if !line && wordWaits s g q.w then s else
  let s := unhalt (setInjecting s g false) g
  let c := wordCheck s g (getGang s g) q.w
  if c ≠ 0 then gangFault s g (members s g) c q.w q.core 0xFF 0 true else
  let s := wordEffect s g q 0xFF
  if !((members s g).all (fun sh => (getSheet s sh).state == .idle || (getSheet s sh).state == .run)) then s else
  let s := (members s g).foldl (fun s sh => updSheet s sh (fun x => { x with before := x.state, state := .halt })) s
  updGang s g (fun G => { G with halted := true })

/-- What a debugger's requests still owe gang g happens as soon as it can. -/
def settleDebug (s : State) (g : Nat) : State := injectNow (haltNow s g) g

/-- The next word of gang g executes, when it is of kind `k` and need not wait (R86, R87, R106). -/
def gangWord (s : State) (g k : Nat) : State :=
  if !(gangReady s g) then s else
  let G := getGang s g
  match headWord G with
  | none => s
  | some q =>
    if wordKind q.w ≠ k then s else
    let lb := headPos G
    let c := wordCheck s g G q.w
    if c ≠ 0 then gangFault (setGang s g (takeHead G)) g (members s g) c q.w q.core lb 0 true else
    if wordWaits s g q.w then s else
    let s := (members s g).foldl (fun s sh => updSheet s sh (fun x => { x with state := .run })) s
    let s := wordEffect (setGang s g (takeHead G)) g q lb
    let s := updGang s g (fun G => settleGang (closeLoops 6 G))
    settleDebug (if (getGang s g).step then updGang s g (fun G => { G with step := false, haltReq := true }) else s) g

/-! ## Commands: one for each kind of word -/

/-- SYNC NOP (R88). -/
def execSyncNop (g : Sheet) (s : State) : Out := .next (gangWord s g.val 0)
/-- GSYNC: the members run in step, so every earlier word has executed (R88). -/
def execGsync (g : Sheet) (s : State) : Out := .next (gangWord s g.val 1)
/-- BIT (R56, R89). -/
def execBitWord (g : Sheet) (s : State) : Out := .next (gangWord s g.val 0x10)
/-- FIELD MOV (R92, R93). -/
def execFieldMov (g : Sheet) (s : State) : Out := .next (gangWord s g.val 0x20)
/-- FIELD NOT. -/
def execFieldNot (g : Sheet) (s : State) : Out := .next (gangWord s g.val 0x21)
/-- FIELD AND. -/
def execFieldAnd (g : Sheet) (s : State) : Out := .next (gangWord s g.val 0x22)
/-- FIELD OR. -/
def execFieldOr (g : Sheet) (s : State) : Out := .next (gangWord s g.val 0x23)
/-- FIELD XOR. -/
def execFieldXor (g : Sheet) (s : State) : Out := .next (gangWord s g.val 0x24)
/-- FIELD ADD. -/
def execFieldAdd (g : Sheet) (s : State) : Out := .next (gangWord s g.val 0x25)
/-- FIELD ADDC. -/
def execFieldAddc (g : Sheet) (s : State) : Out := .next (gangWord s g.val 0x26)
/-- FIELD SUB. -/
def execFieldSub (g : Sheet) (s : State) : Out := .next (gangWord s g.val 0x27)
/-- FIELD CMPEQ. -/
def execFieldCmpeq (g : Sheet) (s : State) : Out := .next (gangWord s g.val 0x28)
/-- FIELD CMPLT. -/
def execFieldCmplt (g : Sheet) (s : State) : Out := .next (gangWord s g.val 0x29)
/-- FIELD ABSDIFF. -/
def execFieldAbsdiff (g : Sheet) (s : State) : Out := .next (gangWord s g.val 0x2A)
/-- FIELD MIN. -/
def execFieldMin (g : Sheet) (s : State) : Out := .next (gangWord s g.val 0x2B)
/-- FIELD MAX. -/
def execFieldMax (g : Sheet) (s : State) : Out := .next (gangWord s g.val 0x2C)
/-- FIELD MUL. -/
def execFieldMul (g : Sheet) (s : State) : Out := .next (gangWord s g.val 0x2D)
/-- FIELD MULACC. -/
def execFieldMulacc (g : Sheet) (s : State) : Out := .next (gangWord s g.val 0x2E)
/-- FIELD SHL (R94). -/
def execFieldShl (g : Sheet) (s : State) : Out := .next (gangWord s g.val 0x2F)
/-- FIELD POPCNT. -/
def execFieldPopcnt (g : Sheet) (s : State) : Out := .next (gangWord s g.val 0x30)
/-- LINE IN (R96). -/
def execLineIn (g : Sheet) (s : State) : Out := .next (gangWord s g.val 0x40)
/-- LINE OUT (R96). -/
def execLineOut (g : Sheet) (s : State) : Out := .next (gangWord s g.val 0x41)
/-- BLOT BTOK (R99). -/
def execBtok (g : Sheet) (s : State) : Out := .next (gangWord s g.val 0x48)
/-- BLOT BPLANE (R99). -/
def execBplane (g : Sheet) (s : State) : Out := .next (gangWord s g.val 0x49)
/-- MASK MSET (R101). -/
def execMset (g : Sheet) (s : State) : Out := .next (gangWord s g.val 0x60)
/-- MASK MAND. -/
def execMand (g : Sheet) (s : State) : Out := .next (gangWord s g.val 0x61)
/-- MASK MOR. -/
def execMor (g : Sheet) (s : State) : Out := .next (gangWord s g.val 0x62)
/-- MASK MPUSH (R102). -/
def execMpush (g : Sheet) (s : State) : Out := .next (gangWord s g.val 0x63)
/-- MASK MPOP (R102). -/
def execMpop (g : Sheet) (s : State) : Out := .next (gangWord s g.val 0x64)
/-- MASK MALL. -/
def execMall (g : Sheet) (s : State) : Out := .next (gangWord s g.val 0x65)
/-- MASK MCLRF. -/
def execMclrf (g : Sheet) (s : State) : Out := .next (gangWord s g.val 0x66)
/-- MASK MSAVE. -/
def execMsave (g : Sheet) (s : State) : Out := .next (gangWord s g.val 0x67)
/-- SEQ LOOP (R104). -/
def execLoop (g : Sheet) (s : State) : Out := .next (gangWord s g.val 0x50)
/-- SEQ SKIPB (R103). -/
def execSkipb (g : Sheet) (s : State) : Out := .next (gangWord s g.val 0x51)
/-- SEQ BREAKB (R104). -/
def execBreakb (g : Sheet) (s : State) : Out := .next (gangWord s g.val 0x52)
/-- SEQ WAITB. -/
def execWaitb (g : Sheet) (s : State) : Out := .next (gangWord s g.val 0x53)
/-- SEQ WAITLP. -/
def execWaitlp (g : Sheet) (s : State) : Out := .next (gangWord s g.val 0x54)
/-- SEQ KEND (R105). -/
def execKend (g : Sheet) (s : State) : Out := .next (gangWord s g.val 0x55)
/-- A word of a reserved class or operation: the array fault (R86, R87). -/
def execReservedArrayWord (g : Sheet) (s : State) : Out := .next (gangWord s g.val 0xFFF)

/-! ## Results that arrive later -/

/-- FINDER_RESULT: the oldest blot in flight and its finder result become available (R71, R72). -/
def execFinderResult (g : Sheet) (s : State) : Out :=
  let G := getGang s g.val
  match G.blots with
  | [] => .next s
  | b :: bs =>
    if !(live s (sheetHome s g.val)) then .next s else
    .next (settleDebug (setGang s g.val
      { G with blots := bs, blot := b.val, finder := b.finder, btoks := G.btoks ++ b.toks }) g.val)

/-- BLOT_TOKEN: the next blot token enters the token path of its core's hub (R100, R135). -/
def execBlotToken (g : Sheet) (s : State) : Out :=
  let G := getGang s g.val
  match G.btoks with
  | [] => .next s
  | t :: ts =>
    if !(live s t.dst.val) then .next s else
    if pathAccepts s t.dst.val t then .next (inject (setGang s g.val { G with btoks := ts }) t.dst.val t)
    else .next (settle s t.dst.val)

/-- COMPLETION_TOKEN: the token of a completed KEND enters the token path (R105, R135). -/
def execCompletionToken (g : Sheet) (s : State) : Out :=
  let G := getGang s g.val
  match G.ctoks with
  | [] => .next s
  | t :: ts =>
    if !(live s t.dst.val) then .next s else
    if pathAccepts s t.dst.val t then .next (inject (setGang s g.val { G with ctoks := ts }) t.dst.val t)
    else .next (settle s t.dst.val)

/-! ## Line ports (R74, R75, R97, R98) -/

/-- Bits a to a + 127 of the packed string of a run, taken w apart: plane j of its row. -/
def runPlane (v : Nat) (w len j : Nat) : BitVec 128 :=
  (List.range 128).foldl (fun b k => if k < len && v / 2 ^ (k * w + j) % 2 = 1 then b ||| ((1 : BitVec 128) <<< k) else b) 0

/-- The packed string of L words of w bits from the row slices of w planes. -/
def packRun (sl : List (BitVec 128)) (w len : Nat) : Nat :=
  (List.range len).foldl (fun v k =>
    (List.range w).foldl (fun v j => if (sl.getD j 0).getLsbD k then v + 2 ^ (k * w + j) else v) v) 0

/-- Address of slot i of a channel: absolute in the reservoir when SPACE is 1 (R98). -/
def slotAddr (s : State) (h c i : Nat) : Nat :=
  rdF s h (R.LCHBASEHI c) 15 0 * 2 ^ 32 + (csr s h (R.LCHBASELO c)).toNat + 512 * (i % rdF s h (R.LCHNSLOT c) 16 0)
def slotRead (s : State) (h c i : Nat) : State × Option Bytes :=
  let a := slotAddr s h c i
  if rdB s h (R.LCH c) 29 then
    if a + 512 ≤ 0x2000000 then (s, some (rbs s (rsvBase h + a) 512)) else (s, none)
  else match mrd s h a 512 with
    | (s, .ok, b) => (s, some b)
    | (s, _, _) => (s, none)
def slotWrite (s : State) (h c i : Nat) (b : Bytes) : State × Bool :=
  let a := slotAddr s h c i
  if rdB s h (R.LCH c) 29 then
    if a + 512 ≤ 0x2000000 then (wbs s (rsvBase h + a) b, true) else (s, false)
  else match mwr s h none a b with
    | (s, .ok) => (s, true)
    | (s, _) => (s, false)

/-- A port moves runs while its sheet is IDLE or in RUN; in HALT, those that a debugger injected (R386). -/
def portLive (x : SheetSt) (r : Run) : Bool :=
  x.state == .idle || x.state == .run || (x.state == .halt && decide (64 ≤ r.core))

/-- IN_RUN: the next run of the in port takes its slot and fills its row (R74, R97, R98). -/
def execInRun (sh : Sheet) (s : State) : Out :=
  let x := getSheet s sh.val
  let h := sheetHome s sh.val
  match x.inQ with
  | [] => .next s
  | r :: rs =>
    let rd := csr s h (R.LCHRD r.chan)
    if !(live s h) || !(portLive x r) || !(rdB s h (R.LCH r.chan) 31) || rdB s h (R.LCH r.chan) 30 ||
        csr s h (R.LCHWR r.chan) = rd then .next s else
    match slotRead s h r.chan rd.toNat with
    | (s, none) => .next (asyncFault s sh.val 0x12 r.core)
    | (s, some b) =>
      let v := leNat b
      let s := setCsr s h (R.LCHRD r.chan) (rd + 1)
      let s := (List.range r.w).foldl (fun s j => setSlice s sh.val (r.base + j) r.row (runPlane v r.w r.len j)) s
      .next (settleDebug (settleXoff (updSheet s sh.val (fun x => { x with inQ := rs, inRuns := x.inRuns + 1 })) h) x.gid)

/-- OUT_RUN: the next run of the out port is read and handed to its slot (R75, R97, R98). -/
def execOutRun (sh : Sheet) (s : State) : Out :=
  let x := getSheet s sh.val
  let h := sheetHome s sh.val
  match x.outQ with
  | [] => .next s
  | r :: rs =>
    let wr := csr s h (R.LCHWR r.chan)
    if !(live s h) || !(portLive x r) || !(rdB s h (R.LCH r.chan) 31) || !(rdB s h (R.LCH r.chan) 30) ||
        rdF s h (R.LCHNSLOT r.chan) 16 0 ≤ (wr - csr s h (R.LCHRD r.chan)).toNat then .next s else
    let (s, bad) := (List.range r.w).foldl (fun (q : State × Bool) j =>
      let (s, b) := readSlice q.1 sh.val (r.base + j) r.row 1 0
      (s, q.2 || b)) (s, false)
    if bad then .next (asyncFault s sh.val 0x11 r.core) else
    let sl := (List.range r.w).map (fun j => rowSlice (plane s sh.val (r.base + j)) r.row)
    match slotWrite s h r.chan wr.toNat (natLe 512 (packRun sl r.w r.len)) with
    | (s, false) => .next (asyncFault s sh.val 0x12 r.core)
    | (s, true) =>
      .next (settleDebug (updSheet (setCsr s h (R.LCHWR r.chan) (wr + 1)) sh.val
        (fun x => { x with outQ := rs, outRuns := x.outRuns + 1 })) x.gid)

/-! ## Gang changes (R69, R110) -/

/-- Sheets that a pending change names or moves. -/
def changeSheets (s : State) : GChange → List Nat
  | .form _ _ l => l
  | .dissolve g => members s g
  | .evac sh r => members s (getSheet s sh).gid ++ r.toList
/-- Old gangs of a change. -/
def changeGangs (s : State) (c : GChange) : List Nat :=
  (changeSheets s c).foldl (fun l sh =>
    let g := (getSheet s sh).gid
    if l.contains g then l else l ++ [g]) []
/-- Pending changes with their numbers. -/
def pendingChanges (s : State) : List (Nat × GChange) :=
  s.arr.changes.filterMap (fun e => e.2.map (fun c => (e.1, c)))
/-- Sheet sh is involved in a pending change. -/
def changing (s : State) (sh : Nat) : Bool := (pendingChanges s).any (fun e => (changeSheets s e.2).contains sh)

/-- Queue a change in every old gang involved, after the words already there. -/
def addChange (s : State) (c : GChange) : State :=
  let id := s.arr.nextChange
  let s := { s with arr := { s.arr with
    changes := tset (fun _ => none) s.arr.changes id (some c), nextChange := id + 1 } }
  (changeGangs s c).foldl (fun s g => updGang s g (fun G => { G with queue := G.queue ++ [.change id] })) s

/-- The change may take effect: it heads every queue it stands in, each sheet is IDLE or OFF, no blot is pending
(R69). An evacuated sheet may be in FAULT (R357). -/
def changeReady (s : State) (id : Nat) (c : GChange) : Bool :=
  (changeSheets s c).all (fun sh =>
    let st := (getSheet s sh).state
    st == .idle || st == .off || (st == .fault && (match c with | .evac e _ => e == sh | _ => false))) &&
  (changeGangs s c).all (fun g =>
    let G := getGang s g
    G.blots.isEmpty && (match G.queue with | .change i :: _ => i == id | _ => false))

/-- Give a sheet its place in a gang. -/
def seat (s : State) (sh gid gw gh gx gy : Nat) : State :=
  updSheet s sh (fun x => { x with gid := gid, gw := gw, gh := gh, gx := gx, gy := gy })

/-- Take the change out of the queues and clear the latest blots of the gangs before it (R99). -/
def unqueueChange (s : State) (id : Nat) (gs : List Nat) : State :=
  let s := gs.foldl (fun s g => updGang s g (fun G => { G with
    queue := G.queue.filter (fun i => decide (i ≠ .change id)), blot := false, finder := 0, claim := none })) s
  { s with arr := { s.arr with changes := tset (fun _ => none) s.arr.changes id none } }

/-- Dissolve a list of sheets into gangs of one. -/
def singles (s : State) (l : List Nat) : State := l.foldl (fun s sh => seat s sh sh 1 1 0 0) s

/-- The new gangs after a change start without a blot (R99). -/
def freshGangs (s : State) (l : List Nat) : State :=
  l.foldl (fun s g => updGang s g (fun G => { G with blot := false, finder := 0 })) s

/-- GANG_CHANGE_EFFECT: an accepted change at the head of gang g's queue takes effect (R69, R110). -/
def execGangChangeEffect (g : Sheet) (s : State) : Out :=
  if !(live s (sheetHome s g.val)) then .next s else
  match (getGang s g.val).queue with
  | .change id :: _ =>
    match tget (fun _ => none) s.arr.changes id with
    | some (.form gw gh l) =>
      if !(changeReady s id (.form gw gh l)) then .next s else
      let s := unqueueChange s id (changeGangs s (.form gw gh l))
      let gid := l.headD g.val
      let s := (l.zip (List.range l.length)).foldl (fun s e => seat s e.1 gid gw gh (e.2 % gw) (e.2 / gw)) s
      .next (freshGangs s l)
    | some (.dissolve d) =>
      if !(changeReady s id (.dissolve d)) then .next s else
      let l := members s d
      .next (freshGangs (singles (unqueueChange s id [d]) l) l)
    | _ => .next s
  | _ => .next s

/-! ## Waking, clearing, power (R81, R84) -/

/-- A word is queued for the sheet's gang. -/
def wordFor (s : State) (sh : Nat) : Bool := (headWord (getGang s (getSheet s sh).gid)).isSome

/-- SHEET_WAKE: PWREN, or a word held for an OFF sheet, starts its wake; a word wakes its die first (R80, R81, R84). -/
def execSheetWake (sh : Sheet) (s : State) : Out :=
  let h := sheetHome s sh.val
  let want := rdB s h (R.SHCFG sh.val) 31 || wordFor s sh.val || !((heldOf s (128 + sh.val)).isEmpty)
  if !(serving s h) || !(sheetOk s sh.val) || (getSheet s sh.val).state ≠ .off || !want then .next s else
  let d := 160 + sh.val / 4
  if domOf s d = .off && (wordFor s sh.val || !((heldOf s (128 + sh.val)).isEmpty)) then
    .next (wakeDie s (sh.val / 4))
  else if domOf s d ≠ .on then .next s else
  let s := wrB s h (R.SHCFG sh.val) 31 true
  let s := updGang s (getSheet s sh.val).gid (fun G => { G with blot := false, finder := 0 })
  .next (updSheet (setDom s (128 + sh.val) .waking) sh.val (fun x => { x with state := .clear }))

/-- Plane memory and latches as clearing leaves them (R84). -/
def clearSheet (s : State) (sh : Nat) : State :=
  let s := { s with arr := { s.arr with
    planes := tkeep (fun k => k / 4096 != sh) s.arr.planes
    bad := tkeep (fun k => k / (4096 * 128) != sh) s.arr.bad } }
  updSheet s sh (fun x => { x with x := 0, y := 0, c := 0, t := 0, m := allNibs, stack := [], inQ := [], outQ := [] })

/-- Clearing ends and the sheet is IDLE; held packets are delivered, and SVC RETURN ends (R84, R259, R358). -/
def clearDone (s : State) (sh : Nat) : State :=
  let h := sheetHome s sh
  if !(live s h) || (getSheet s sh).state ≠ .clear then s else
  let s := updSheet (deliverHeld (setDom (clearSheet s sh) (128 + sh) .on) (128 + sh)) sh (fun x => { x with state := .idle })
  svcEnd (settleDebug s (getSheet s sh).gid) 3 h sh 0

/-- CLEAR_COMPLETE (R84). -/
def execClearComplete (sh : Sheet) (s : State) : Out := .next (clearDone s sh.val)

/-- SHEET_POWER_OFF: an IDLE sheet with PWREN = 0 and no word for it is switched off (R81, R258). -/
def execSheetPowerOff (sh : Sheet) (s : State) : Out :=
  let h := sheetHome s sh.val
  let x := getSheet s sh.val
  if !(live s h) || x.state ≠ .idle || rdB s h (R.SHCFG sh.val) 31 || wordFor s sh.val ||
      !((getGang s x.gid).blots.isEmpty) || !x.inQ.isEmpty || !x.outQ.isEmpty then .next s else
  let s := { s with net := { s.net with emul := tset (fun _ => false) s.net.emul (128 + sh.val) (attached s h) } }
  .next (updSheet (setDom s (128 + sh.val) .off) sh.val (fun x => { x with state := .off }))

/-! ## Sheet control -/

/-- Fault records of gang g end with the last member that leaves FAULT, and the claim with them (R108, R113). -/
def faultOver (s : State) (g : Nat) : State :=
  if (members s g).any (fun sh => (getSheet s sh).state == .fault) then s else
  updGang s g (fun G => { G with flt0 := 0, flt1 := 0, claim := none })

/-- SHCTL by P0: CLRFAULT acts in FAULT, CLRPLANES in IDLE (R81, R84, R85). -/
def writeShctl (s : State) (m : Master) (sh : Nat) (v : W32) : State :=
  let h := sheetHome s sh
  let x := getSheet s sh
  if !(asP0 s m) then s else
  if x.state = .fault && fld v 0 0 = 1 then
    let s := setCsr (setCsr (setCsr (setCsr s h (R.SHFAULT sh) 0) h (R.SHFW0 sh) 0) h (R.SHFW1 sh) 0) h (R.SHFW2 sh) 0
    faultOver (updSheet s sh (fun x => { x with state := .idle })) x.gid
  else if x.state = .idle && fld v 1 1 = 1 then updSheet s sh (fun x => { x with state := .clear })
  else s

/-- CLRFAULT (R85). -/
def execClrfault (m : Master) (sh : Sheet) (v : W32) (s : State) : Out :=
  .next (if live s (sheetHome s sh.val) && sheetOk s sh.val then writeShctl s m sh.val v else s)
/-- CLRPLANES (R84). -/
def execClrplanes (m : Master) (sh : Sheet) (v : W32) (s : State) : Out :=
  .next (if live s (sheetHome s sh.val) && sheetOk s sh.val then writeShctl s m sh.val v else s)

/-- The lowest four failing columns as SHBISTCOL holds them. -/
def bistCols (bad : BitVec 132) : W32 :=
  let l := (List.range 132).filter (fun c => bad.getLsbD c)
  BitVec.ofNat 32 ((List.range 4).foldl (fun v k => v + (l.getD k 0xFF) * 2 ^ (8 * k)) 0)

/-- BIST_COMPLETE: the self-test ends with its findings (R83, R358). -/
def bistDone (s : State) (sh : Nat) (logicf : Bool) (bad : BitVec 132) : State :=
  let h := sheetHome s sh
  let n := ((List.range 132).filter (fun c => bad.getLsbD c)).length
  let pass := !logicf && decide (n ≤ 4)
  let s := setCsr s h (R.SHBIST sh) (BitVec.ofNat 32 (2 ^ 31 + b2n pass * 2 ^ 30 + b2n logicf * 2 ^ 29 + min n 0xFF))
  let s := setCsr s h (R.SHBISTCOL sh) (bistCols bad)
  let lost := { s with arr := { s.arr with
    planes := tkeep (fun k => k / 4096 != sh) s.arr.planes, bad := tkeep (fun k => k / (4096 * 128) != sh) s.arr.bad } }
  if pass then
    let s := if rdB s h (R.SHCFG sh) 30 then setCsr lost h (R.SHCOLREP sh) (bistCols bad) else lost
    updSheet s sh (fun x => { x with state := .clear, gid := sh, gw := 1, gh := 1, gx := 0, gy := 0 })
  else
    journal (updSheet lost sh (fun x => { x with state := .retired })) h evIsolate false noPart
      (detail [(16, 1, 2), (17, 1, sh), (18, 1, 4)])

/-! ## Line-channel registers (R98) -/

/-- P0 and the partition in PART may write a channel group. -/
def mayLch (s : State) (m : Master) (h c : Nat) : Bool :=
  asP0 s m || masterPart s m == rdF s h (R.LCH c) 28 26

/-- LCH +0: setting EN sets both counts to 0; DIR, SPACE and PART stand while EN is 1. -/
def writeLch (s : State) (m : Master) (h c : Nat) (v : W32) : State :=
  let old := csr s h (R.LCH c)
  if !(mayLch s m h c) then s else
  if fld old 31 31 = 1 then
    if fld v 30 26 ≠ fld old 30 26 then s else setCsr s h (R.LCH c) (v &&& 0xFC000000)
  else
    let s := setCsr s h (R.LCH c) (v &&& 0xFC000000)
    if fld v 31 31 = 1 then setCsr (setCsr s h (R.LCHWR c) 0) h (R.LCHRD c) 0 else s

/-- LCHWR: written by the producer of an IN channel, never beyond NSLOT runs ahead. -/
def writeLchwr (s : State) (m : Master) (h c : Nat) (v : W32) : State :=
  if !(mayLch s m h c) || rdB s h (R.LCH c) 30 || rdF s h (R.LCHNSLOT c) 16 0 < (v - csr s h (R.LCHRD c)).toNat then s
  else setCsr s h (R.LCHWR c) v

/-- LCHRD: written by the consumer of an OUT channel. -/
def writeLchrd (s : State) (m : Master) (h c : Nat) (v : W32) : State :=
  if !(mayLch s m h c) || !(rdB s h (R.LCH c) 30) || rdF s h (R.LCHNSLOT c) 16 0 < (csr s h (R.LCHWR c) - v).toNat then s
  else setCsr s h (R.LCHRD c) v

/-- LCH_ENABLE (R98). -/
def execLchEnable (m : Master) (h : Hub) (ch : Fin 64) (v : W32) (s : State) : Out :=
  .next (if live s h.val then writeLch s m h.val ch.val v else s)
/-- LCHWR_WRITE (R98). -/
def execLchwrWrite (m : Master) (h : Hub) (ch : Fin 64) (v : W32) (s : State) : Out :=
  .next (if live s h.val then writeLchwr s m h.val ch.val v else s)
/-- LCHRD_WRITE (R98). -/
def execLchrdWrite (m : Master) (h : Hub) (ch : Fin 64) (v : W32) (s : State) : Out :=
  .next (if live s h.val then writeLchrd s m h.val ch.val v else s)

/-! ## Issue by the cores (R107 to R111) -/

/-- A gang's member is out of use. -/
def deadState (x : ShState) : Bool := x == .fault || x == .evac || x == .test || x == .retired

/-- Queue one word for gang g; the claim ends when the core's KEND enters (R108, R109). -/
def issueWord (s : State) (g core part : Nat) (w : AWord) : State :=
  let s := updGang s g (fun G =>
    let kend := wordKind w == 0x55
    settleGang { G with queue := G.queue ++ [.word { w := w, core := core, part := part }]
                        claim := if kend then none else some core })
  (members s g).foldl (fun s sh => updSheet s sh (fun x => if x.state = .idle then { x with state := .run } else x)) s

/-- Words of core i still to execute in gang g: queued, or in a loop that can go on without new words. -/
def wordsLeft (G : GangSt) (i : Nat) : Bool :=
  G.queue.any (fun q => match q with | .word q => q.core == i | _ => false) ||
  (!G.loops.isEmpty && G.lpos < G.body.length && G.body.any (fun q => q.core == i))

/-- Runs of core i pending in gang g. -/
def coreRuns (s : State) (g i : Nat) : Bool :=
  (members s g).any (fun sh => ((getSheet s sh).inQ ++ (getSheet s sh).outQ).any (fun r => r.core == i))

/-- The value AWAIT and ABLOT write (R111). -/
def gangValue (G : GangSt) : W64 := blotValue 0 G.blot G.finder

/-- The status of an AGANG that need not wait (R110): 0 when it is accepted. -/
def agangStatus (s : State) (part gw gh : Nat) (l : List Nat) : Nat :=
  if gw = 0 || gh = 0 || 24 < gw * gh then 1
  else if l.any (fun sh => !(sheetOk s sh) || decide (23 < sh) || sheetPart s sh != part) then 2
  else if l.any (fun sh => decide (1 < (l.filter (· == sh)).length)) then 3
  else if l.any (fun sh => deadState (getSheet s sh).state || !(hubInService s (sheetHome s sh))) then 4
  else if l.any (fun sh => decide (1 < (members s (getSheet s sh).gid).length)) then 5
  else 0

/-- The same for a dissolve. -/
def dissolveStatus (s : State) (part gid : Nat) : Nat :=
  if 23 < gid || !(sheetOk s gid) || sheetPart s gid ≠ part then 2
  else if !(isGang s gid) || (members s gid).length ≤ 1 then 6 else 0

end Sys2Proof.Machine
end

