-- ==== Sys2Proof/Machine/Crypto.lean ====
section
/-! DEFINITION. SHA-256 (FIPS 180-4), ECDSA over P-256 (FIPS 186-5, byte strings as R426 gives) and AES-256 key wrap
(SP 800-38F KW), which the spec names by their standards (R278, R289, R426). -/
namespace Sys2Proof.Machine

/-! ## SHA-256 -/

def shaK : List W32 :=
  [0x428a2f98, 0x71374491, 0xb5c0fbcf, 0xe9b5dba5, 0x3956c25b, 0x59f111f1, 0x923f82a4, 0xab1c5ed5] ++
  [0xd807aa98, 0x12835b01, 0x243185be, 0x550c7dc3, 0x72be5d74, 0x80deb1fe, 0x9bdc06a7, 0xc19bf174] ++
  [0xe49b69c1, 0xefbe4786, 0x0fc19dc6, 0x240ca1cc, 0x2de92c6f, 0x4a7484aa, 0x5cb0a9dc, 0x76f988da] ++
  [0x983e5152, 0xa831c66d, 0xb00327c8, 0xbf597fc7, 0xc6e00bf3, 0xd5a79147, 0x06ca6351, 0x14292967] ++
  [0x27b70a85, 0x2e1b2138, 0x4d2c6dfc, 0x53380d13, 0x650a7354, 0x766a0abb, 0x81c2c92e, 0x92722c85] ++
  [0xa2bfe8a1, 0xa81a664b, 0xc24b8b70, 0xc76c51a3, 0xd192e819, 0xd6990624, 0xf40e3585, 0x106aa070] ++
  [0x19a4c116, 0x1e376c08, 0x2748774c, 0x34b0bcb5, 0x391c0cb3, 0x4ed8aa4a, 0x5b9cca4f, 0x682e6ff3] ++
  [0x748f82ee, 0x78a5636f, 0x84c87814, 0x8cc70208, 0x90befffa, 0xa4506ceb, 0xbef9a3f7, 0xc67178f2]
def shaH0 : List W32 := [0x6a09e667, 0xbb67ae85, 0x3c6ef372, 0xa54ff53a, 0x510e527f, 0x9b05688c, 0x1f83d9ab, 0x5be0cd19]

def rotr (x : W32) (n : Nat) : W32 := x.rotateRight n

/-- The 64 words of the message schedule, newest first, from the 16 of a block. -/
def shaSched : Nat → List W32 → List W32
  | 0, l => l
  | n + 1, l =>
    let w (k : Nat) : W32 := l.getD (k - 1) 0
    let a := w 15
    let b := w 2
    let s0 := rotr a 7 ^^^ rotr a 18 ^^^ (a >>> 3)
    let s1 := rotr b 17 ^^^ rotr b 19 ^^^ (b >>> 10)
    shaSched n ((w 16 + s0 + w 7 + s1) :: l)

/-- One round on the eight working variables. -/
def shaRound (v : List W32) (kw : W32 × W32) : List W32 :=
  match v with
  | [a, b, c, d, e, f, g, h] =>
    let t1 := h + (rotr e 6 ^^^ rotr e 11 ^^^ rotr e 25) + ((e &&& f) ^^^ (~~~e &&& g)) + kw.1 + kw.2
    let t2 := (rotr a 2 ^^^ rotr a 13 ^^^ rotr a 22) + ((a &&& b) ^^^ (a &&& c) ^^^ (b &&& c))
    [t1 + t2, a, b, c, d + t1, e, f, g]
  | _ => v

/-- The compression of one 64-byte block. -/
def shaBlock (h : List W32) (b : Bytes) : List W32 :=
  let w := (List.range 16).map (fun i => BitVec.ofNat 32 (beNat ((b.drop (4 * i)).take 4)))
  let v := (shaK.zip (shaSched 48 w.reverse).reverse).foldl shaRound h
  h.zipWith (· + ·) v

def shaBlocks : Nat → List W32 → Bytes → List W32
  | 0, h, _ => h
  | n + 1, h, b => shaBlocks n (shaBlock h (b.take 64)) (b.drop 64)

/-- SHA-256 as a number, most significant byte first. -/
def sha256 (m : Bytes) : BitVec 256 :=
  let pad := (119 - m.length % 64) % 64
  let b := m ++ [0x80] ++ zeros pad ++ natBe 8 (8 * m.length)
  (shaBlocks (b.length / 64) shaH0 b).foldl (fun (a : BitVec 256) x => (a <<< 32) ||| x.setWidth 256) 0

/-- A 256-bit value as 32 bytes, most significant first (R426); and back. -/
def be256 (v : BitVec 256) : Bytes := natBe 32 v.toNat
def of256 (b : Bytes) : BitVec 256 := BitVec.ofNat 256 (beNat b)

/-! ## ECDSA P-256 -/

def p256P : Nat := 0xFFFFFFFF00000001000000000000000000000000FFFFFFFFFFFFFFFFFFFFFFFF
def p256N : Nat := 0xFFFFFFFF00000000FFFFFFFFFFFFFFFFBCE6FAADA7179E84F3B9CAC2FC632551
def p256B : Nat := 0x5AC635D8AA3A93E7B3EBBD55769886BC651D06B0CC53B0F63BCE3C3E27D2604B
def p256G : Nat × Nat :=
  (0x6B17D1F2E12C4247F8BCE6E563A440F277037D812DEB33A0F4A13945D898C296,
   0x4FE342E2FE1A7F9B8EE7EB4A7C0F9E162BCE33576B315ECECBB6406837BF51F5)

/-- x to the power e modulo m, over the low `fuel` bytes of e. -/
def powMod (m x e : Nat) : Nat → Nat
  | 0 => 1 % m
  | k + 1 => powMod m x (e / 256) k ^ 256 * x ^ (e % 256) % m
/-- The inverse modulo the prime m: x to the power m - 2. -/
def invMod (m x : Nat) : Nat := powMod m (x % m) (m - 2) 32

/-- Point addition; `none` is the point at infinity. -/
def ecAdd : Option (Nat × Nat) → Option (Nat × Nat) → Option (Nat × Nat)
  | none, q => q
  | p, none => p
  | some (x1, y1), some (x2, y2) =>
    let m := p256P
    if x1 = x2 && (y1 + y2) % m = 0 then none else
    let l := if x1 = x2 then (3 * x1 * x1 + (m - 3)) * invMod m (2 * y1) % m
      else (y2 + m - y1) * invMod m (x2 + m - x1) % m
    let x3 := (l * l + 2 * m - x1 - x2) % m
    some (x3, (l * (x1 + m - x3) + m - y1) % m)

/-- k times a point, over the low `fuel` bits of k. -/
def ecMul (k : Nat) (p : Option (Nat × Nat)) : Nat → Option (Nat × Nat)
  | 0 => none
  | f + 1 =>
    let r := ecMul (k / 2) (ecAdd p p) f
    if k % 2 = 1 then ecAdd p r else r

/-- Public key of a private key. -/
def ecPublic (d : BitVec 256) : BitVec 256 × BitVec 256 :=
  match ecMul d.toNat (some p256G) 256 with
  | some (x, y) => (BitVec.ofNat 256 x, BitVec.ofNat 256 y)
  | none => (0, 0)

/-- A number 1 to N - 1 from a random value. -/
def ecScalar (v : BitVec 256) : Nat := v.toNat % (p256N - 1) + 1

/-- Signature (r, s) of a digest with nonce k. -/
def ecSign (d e : BitVec 256) (k : Nat) : BitVec 256 × BitVec 256 :=
  let r := match ecMul k (some p256G) 256 with | some (x, _) => x % p256N | none => 0
  (BitVec.ofNat 256 r, BitVec.ofNat 256 (invMod p256N k * (e.toNat + r * d.toNat) % p256N))

/-- The point lies on the curve. -/
def onCurve (x y : Nat) : Bool :=
  decide (x < p256P) && decide (y < p256P) && (y * y % p256P == (x * x * x + (p256P - 3) * x + p256B) % p256P)

/-- Verification of signature (r, s) of a digest under public key (x, y). -/
def ecVerify (x y e r s : BitVec 256) : Bool :=
  if !(onCurve x.toNat y.toNat) || r.toNat = 0 || s.toNat = 0 || p256N ≤ r.toNat || p256N ≤ s.toNat then false else
  let w := invMod p256N s.toNat
  match ecAdd (ecMul (e.toNat * w % p256N) (some p256G) 256)
      (ecMul (r.toNat * w % p256N) (some (x.toNat, y.toNat)) 256) with
  | some (px, _) => px % p256N == r.toNat
  | none => false

/-! ## AES-256 key wrap -/

def aesSbox : List Byte :=
  [0x63, 0x7c, 0x77, 0x7b, 0xf2, 0x6b, 0x6f, 0xc5, 0x30, 0x01, 0x67, 0x2b, 0xfe, 0xd7, 0xab, 0x76] ++
  [0xca, 0x82, 0xc9, 0x7d, 0xfa, 0x59, 0x47, 0xf0, 0xad, 0xd4, 0xa2, 0xaf, 0x9c, 0xa4, 0x72, 0xc0] ++
  [0xb7, 0xfd, 0x93, 0x26, 0x36, 0x3f, 0xf7, 0xcc, 0x34, 0xa5, 0xe5, 0xf1, 0x71, 0xd8, 0x31, 0x15] ++
  [0x04, 0xc7, 0x23, 0xc3, 0x18, 0x96, 0x05, 0x9a, 0x07, 0x12, 0x80, 0xe2, 0xeb, 0x27, 0xb2, 0x75] ++
  [0x09, 0x83, 0x2c, 0x1a, 0x1b, 0x6e, 0x5a, 0xa0, 0x52, 0x3b, 0xd6, 0xb3, 0x29, 0xe3, 0x2f, 0x84] ++
  [0x53, 0xd1, 0x00, 0xed, 0x20, 0xfc, 0xb1, 0x5b, 0x6a, 0xcb, 0xbe, 0x39, 0x4a, 0x4c, 0x58, 0xcf] ++
  [0xd0, 0xef, 0xaa, 0xfb, 0x43, 0x4d, 0x33, 0x85, 0x45, 0xf9, 0x02, 0x7f, 0x50, 0x3c, 0x9f, 0xa8] ++
  [0x51, 0xa3, 0x40, 0x8f, 0x92, 0x9d, 0x38, 0xf5, 0xbc, 0xb6, 0xda, 0x21, 0x10, 0xff, 0xf3, 0xd2] ++
  [0xcd, 0x0c, 0x13, 0xec, 0x5f, 0x97, 0x44, 0x17, 0xc4, 0xa7, 0x7e, 0x3d, 0x64, 0x5d, 0x19, 0x73] ++
  [0x60, 0x81, 0x4f, 0xdc, 0x22, 0x2a, 0x90, 0x88, 0x46, 0xee, 0xb8, 0x14, 0xde, 0x5e, 0x0b, 0xdb] ++
  [0xe0, 0x32, 0x3a, 0x0a, 0x49, 0x06, 0x24, 0x5c, 0xc2, 0xd3, 0xac, 0x62, 0x91, 0x95, 0xe4, 0x79] ++
  [0xe7, 0xc8, 0x37, 0x6d, 0x8d, 0xd5, 0x4e, 0xa9, 0x6c, 0x56, 0xf4, 0xea, 0x65, 0x7a, 0xae, 0x08] ++
  [0xba, 0x78, 0x25, 0x2e, 0x1c, 0xa6, 0xb4, 0xc6, 0xe8, 0xdd, 0x74, 0x1f, 0x4b, 0xbd, 0x8b, 0x8a] ++
  [0x70, 0x3e, 0xb5, 0x66, 0x48, 0x03, 0xf6, 0x0e, 0x61, 0x35, 0x57, 0xb9, 0x86, 0xc1, 0x1d, 0x9e] ++
  [0xe1, 0xf8, 0x98, 0x11, 0x69, 0xd9, 0x8e, 0x94, 0x9b, 0x1e, 0x87, 0xe9, 0xce, 0x55, 0x28, 0xdf] ++
  [0x8c, 0xa1, 0x89, 0x0d, 0xbf, 0xe6, 0x42, 0x68, 0x41, 0x99, 0x2d, 0x0f, 0xb0, 0x54, 0xbb, 0x16]
def subByte (b : Byte) : Byte := aesSbox.getD b.toNat 0
def invSubByte (b : Byte) : Byte := BitVec.ofNat 8 ((List.range 256).find? (fun i => aesSbox.getD i 0 == b)).get!
def xtime (b : Byte) : Byte := (b <<< 1) ^^^ (if b.getLsbD 7 then 0x1B else 0)
/-- Product in GF(2^8). -/
def gmul (a b : Byte) : Byte :=
  ((List.range 8).foldl (fun (r : Byte × Byte) i => (if b.getLsbD i then r.1 ^^^ r.2 else r.1, xtime r.2)) (0, a)).1

def xorB (a b : Bytes) : Bytes := a.zipWith (· ^^^ ·) b

/-- Words of the key schedule, newest first. -/
def aesExpand : Nat → Nat → Byte → List Bytes → List Bytes
  | 0, _, _, l => l
  | n + 1, i, rc, l =>
    let t := l.headD []
    let old := l.getD 7 []
    if i % 8 = 0 then
      let r := (t.drop 1 ++ t.take 1).map subByte
      aesExpand n (i + 1) (xtime rc) (xorB old (xorB r [rc, 0, 0, 0]) :: l)
    else if i % 8 = 4 then aesExpand n (i + 1) rc (xorB old (t.map subByte) :: l)
    else aesExpand n (i + 1) rc (xorB old t :: l)

/-- The 15 round keys of a 256-bit key. -/
def aesKeys (k : BitVec 256) : List Bytes :=
  let b := be256 k
  let w := (aesExpand 52 8 1 ((List.range 8).map (fun i => (b.drop (4 * i)).take 4)).reverse).reverse
  (List.range 15).map (fun r => ((w.drop (4 * r)).take 4).flatten)

def shiftRows (s : Bytes) (back : Bool) : Bytes :=
  (List.range 16).map (fun i =>
    let r := i % 4
    let c := i / 4
    s.getD (4 * ((if back then c + 4 - r else c + r) % 4) + r) 0)

def mixCols (s : Bytes) (m : List Byte) : Bytes :=
  (List.range 16).map (fun i =>
    let c := i / 4
    (List.range 4).foldl (fun v k => v ^^^ gmul (m.getD ((k + 4 - i % 4) % 4) 0) (s.getD (4 * c + k) 0)) 0)

def aesEnc (ks : List Bytes) (b : Bytes) : Bytes :=
  let s := (List.range 13).foldl (fun s r =>
    xorB (mixCols (shiftRows (s.map subByte) false) [2, 3, 1, 1]) (ks.getD (r + 1) [])) (xorB b (ks.getD 0 []))
  xorB (shiftRows (s.map subByte) false) (ks.getD 14 [])

def aesDec (ks : List Bytes) (b : Bytes) : Bytes :=
  let s := (shiftRows (xorB b (ks.getD 14 [])) true).map invSubByte
  let s := (List.range 13).foldl (fun s r =>
    (shiftRows (mixCols (xorB s (ks.getD (13 - r) [])) [0x0E, 0x0B, 0x0D, 0x09]) true).map invSubByte) s
  xorB s (ks.getD 0 [])

def kwIv : Bytes := List.replicate 8 0xA6

/-- Key wrap of a 32-byte key: 40 bytes. -/
def kwWrap (kek : BitVec 256) (p : Bytes) : Bytes :=
  let ks := aesKeys kek
  let r := (List.range 24).foldl (fun (q : Bytes × List Bytes) t =>
    let i := t % 4
    let b := aesEnc ks (q.1 ++ q.2.getD i [])
    (xorB (b.take 8) (natBe 8 (t + 1)), q.2.set i (b.drop 8)))
    (kwIv, (List.range 4).map (fun i => (p.drop (8 * i)).take 8))
  r.1 ++ r.2.flatten

/-- Unwrap of 40 bytes; none when the check fails. -/
def kwUnwrap (kek : BitVec 256) (c : Bytes) : Option Bytes :=
  let ks := aesKeys kek
  let r := (List.range 24).foldl (fun (q : Bytes × List Bytes) u =>
    let t := 23 - u
    let i := t % 4
    let b := aesDec ks (xorB q.1 (natBe 8 (t + 1)) ++ q.2.getD i [])
    (b.take 8, q.2.set i (b.drop 8)))
    (c.take 8, (List.range 4).map (fun i => (c.drop (8 * i + 8)).take 8))
  if r.1 = kwIv then some r.2.flatten else none

end Sys2Proof.Machine
end

