-- ==== Sys2Proof/Machine/Evidence.lean ====
section
/-! DEFINITION. Sealing, the evidence rings, drying, mirroring and the final stroke (R278 to R313, R430). -/
namespace Sys2Proof.Machine

/-! ## Rings (R290) -/

def ringEn (s : State) (h r : Nat) : Bool := rdB s h (R.ERCTL r) 31
def ringFailed (s : State) (h r : Nat) : Bool := rdB s h (R.ERCTL r) 27
def ringPart (s : State) (h r : Nat) : Nat := rdF s h (R.ERCTL r) 30 28
def ringSize (s : State) (h r : Nat) : Nat := rdF s h (R.ERCTL r) 12 0 * 0x100000
def ringBase (s : State) (h r : Nat) : Nat := rdF s h (R.ERBASEHI r) 15 0 * 2 ^ 32 + (csr s h (R.ERBASELO r)).toNat
def wseq (s : State) (h r : Nat) : Nat := (csr64 s h (R.WSEQLO r) (R.WSEQHI r)).toNat
def dseq (s : State) (h r : Nat) : Nat := (csr64 s h (R.DSEQLO r) (R.DSEQHI r)).toNat
def setWseq (s : State) (h r n : Nat) : State := setCsr64 s h (R.WSEQLO r) (R.WSEQHI r) (BitVec.ofNat 64 n)
def setDseq (s : State) (h r n : Nat) : State := setCsr64 s h (R.DSEQLO r) (R.DSEQHI r) (BitVec.ofNat 64 n)
def recsOf (s : State) (h r : Nat) : List RingRec := tget (fun _ => []) s.evi.recs (ringKey h r)
def setRecs (s : State) (h r : Nat) (l : List RingRec) : State :=
  { s with evi := { s.evi with recs := tset (fun _ => []) s.evi.recs (ringKey h r) l } }
def reservedOf (s : State) (h r : Nat) : List Req := tget (fun _ => []) s.evi.reserved (ringKey h r)
def setReserved (s : State) (h r : Nat) (l : List Req) : State :=
  { s with evi := { s.evi with reserved := tset (fun _ => []) s.evi.reserved (ringKey h r) l } }
def segsOf (s : State) (h r : Nat) : List Segment := tget (fun _ => []) s.evi.segs (ringKey h r)
def setSegs (s : State) (h r : Nat) (l : List Segment) : State :=
  { s with evi := { s.evi with segs := tset (fun _ => []) s.evi.segs (ringKey h r) l } }

/-- Bytes padded to a multiple of 64 (R279). -/
def pad64 (b : Bytes) : Bytes := b ++ zeros ((64 - b.length % 64) % 64)
/-- Ring bytes of a record of `len` body bytes. -/
def recSize (len : Nat) : Nat := 64 + (len + 63) / 64 * 64

def adoptedInk (s : State) (h : Nat) : Nat := tget (fun _ => 0) s.evi.mir.adopted h
/-- Wet ink of hub h, adopted ink with it, without the stroke reserve (R290, R312). -/
def wetBytes (s : State) (h : Nat) : Nat :=
  (List.range 4).foldl (fun a r => if ringEn s h r then a + (wseq s h r - dseq s h r) else a) (adoptedInk s h)
/-- The stroke reserve (R296). -/
def strokeReserve (s : State) (h : Nat) : Nat := 4096 + 320 * (chainsOf s h).length
def wetLim (s : State) (h : Nat) : Nat := rdF s h R.WETLIM 12 0 * 0x100000
/-- `n` more bytes stay within WETLIM (R296). -/
def roomFor (s : State) (h n : Nat) : Bool := decide (wetBytes s h + strokeReserve s h + n ≤ wetLim s h)
/-- The sum of the declared rates of the chains in use, ADMITTED (R299). -/
def admitted (s : State) (h : Nat) : Nat := (chainsOf s h).foldl (fun a e => a + e.2.rate) 0

def ancStateOf (s : State) (h : Nat) : Nat := tget (fun _ => 0) s.evi.ancState h
def setAncState (s : State) (h v : Nat) : State :=
  { s with evi := { s.evi with ancState := tset (fun _ => 0) s.evi.ancState h v } }
def setAncW (s : State) (h r v : Nat) : State :=
  { s with evi := { s.evi with ancW := tset (fun _ => 0) s.evi.ancW (ringKey h r) (BitVec.ofNat 64 v) } }
def setAncD (s : State) (h r v : Nat) : State :=
  { s with evi := { s.evi with ancD := tset (fun _ => 0) s.evi.ancD (ringKey h r) (BitVec.ofNat 64 v) } }

/-! ## Tokens of the chop unit (R286) -/

/-- A completion token leaves with its value. -/
def chopToken (s : State) (h n result : Nat) : Option Tok → State
  | none => s
  | some t => inject s h { t with value := BitVec.ofNat 64 (n % 2 ^ 32 * 2 ^ 32 + result) }

/-! ## A ring that fails (R430) -/

def failRing (s : State) (h r : Nat) : State :=
  if ringFailed s h r || !(ringEn s h r) then s else
  let s := wrB s h (R.ERCTL r) 27 true
  let lost := reservedOf s h r
  let mine (x : SealReq) : Bool := x.hub.val == h && (getChain s h x.chain).ring == r
  let seals := s.evi.signer.filter mine
  let s := setRingQ (setReserved s h r []) h r []
  let s := { s with evi := { s.evi with signer := s.evi.signer.filter (fun x => !(mine x)) } }
  let s := lost.foldl (fun s q => chopToken s h q.n 2 q.tok) s
  let s := seals.foldl (fun s x => x.tok.foldl (fun s t => chopToken s h x.n 2 (some t)) s) s
  let s := (chainsOf s h).foldl (fun s e =>
    if e.2.ring = r then updChain s h e.1 (fun c => { c with next := c.cnt, band := [] }) else s) s
  journal s h evIsolate false (ringPart s h r) (detail [(16, 1, 9), (17, 1, r), (18, 1, 5)])

/-- Every ring in use fails with the chain-state area. -/
def failHub (s : State) (h : Nat) : State := (List.range 4).foldl (fun s r => failRing s h r) s

/-! ## Mirroring (R310, R311) -/

/-- The mirror of hub h is up, and no stroke has stopped it. -/
def mirrorUp (s : State) (h : Nat) : Bool :=
  rdB s h R.MIRCTL 31 && rdF s h R.MIRCTL 27 25 == 2 && strokeOf s h == .none
/-- Where ring r's copy begins in the mirror region, by the sizes of its hub's rings. -/
def mirOffset (sizes : Nat → Nat) (r : Nat) : Nat :=
  0x20000 + (List.range r).foldl (fun a q => a + sizes q) 0
def mirBase (s : State) (h : Nat) : Nat := rdF s h R.MIRBASEHI 15 0 * 2 ^ 32 + (csr s h R.MIRBASELO).toNat
def setMseq (s : State) (h r n : Nat) : State :=
  if (csr64 s h (R.MSEQLO r) (R.MSEQHI r)).toNat < n then
    setCsr64 s h (R.MSEQLO r) (R.MSEQHI r) (BitVec.ofNat 64 n) else s
def setPeerDseq (s : State) (h r n : Nat) : State :=
  { s with evi := { s.evi with mir := { s.evi.mir with
    peerDseq := tset (fun _ => 0) s.evi.mir.peerDseq (ringKey h r) (BitVec.ofNat 64 n) } } }
def setPeerEnd (s : State) (h r n : Nat) : State :=
  { s with evi := { s.evi with mir := { s.evi.mir with
    peerEnd := tset (fun _ => 0) s.evi.mir.peerEnd (ringKey h r) (BitVec.ofNat 64 n) } } }

/-- The mirror goes down, recorded as EV_LANE_DOWN (R310). -/
def mirrorDown (s : State) (h kind : Nat) : State :=
  journal (wrF s h R.MIRCTL 27 25 3) h evLaneDown false noPart (detail [(16, 1, kind)])

/-- A mirror frame: header and payload. -/
def mirFrame (typ ring num off ack : Nat) (payload : Bytes) : Bytes :=
  let hd := natLe 1 typ ++ natLe 1 ring ++ natLe 2 payload.length ++ natLe 4 num ++ natLe 8 off ++ natLe 4 ack ++ zeros 8
  hd ++ natLe 4 (crc32c hd).toNat ++ payload

def sendOnMirror (s : State) (h : Nat) (b : Bytes) : State :=
  { s with lan := { s.lan with sent := (16 * h + rdF s h R.MIRCTL 3 0, b) :: s.lan.sent } }

def mirTxOf (s : State) (h : Nat) : W32 := tget (fun _ => 0) s.evi.mir.mirTx h
def mirRxOf (s : State) (h : Nat) : W32 := tget (fun _ => 0) s.evi.mir.mirSeq h
def mirOutOf (s : State) (h : Nat) : List MirFrame := tget (fun _ => []) s.evi.mir.mirOut h
def setMirOut (s : State) (h : Nat) (l : List MirFrame) : State :=
  { s with evi := { s.evi with mir := { s.evi.mir with mirOut := tset (fun _ => []) s.evi.mir.mirOut h l } } }

/-- Send one numbered frame and keep it until it is acknowledged. -/
def sendFrame (s : State) (h typ ring off : Nat) (payload : Bytes) (stop : Nat) : State :=
  let n := mirTxOf s h
  let b := mirFrame typ ring n.toNat off (mirRxOf s h - 1).toNat payload
  let s := setMirOut s h (mirOutOf s h ++ [{ num := n, data := b, ring := ring, stop := BitVec.ofNat 64 stop }])
  sendOnMirror { s with evi := { s.evi with mir := { s.evi.mir with
    mirTx := tset (fun _ => 0) s.evi.mir.mirTx h (n + 1) } } } h b

/-- Send bytes in frames of at most 4,096; `ringSeq` when they are ring data. -/
def sendChunks (s : State) (h typ ring off : Nat) (b : Bytes) (ringData : Bool) : State :=
  (List.range ((b.length + 4095) / 4096)).foldl (fun s i =>
    let p := (b.drop (4096 * i)).take 4096
    let o := off + 4096 * i
    sendFrame s h typ ring o p (if ringData then o + p.length else 0)) s

/-- With each copy the hub reports its DSEQ values (R310). -/
def mirrorDseq (s : State) (h : Nat) : State :=
  if !(mirrorUp s h) then s else
  (List.range 4).foldl (fun s r =>
    if !(ringEn s h r) then s else
    if rdB s h R.MIRCTL 29 then sendFrame s h 2 r (dseq s h r) [] 0
    else setPeerDseq s (1 - h) r (dseq s h r)) s

/-- Copy bytes of the chain-state area (kind 1) or of ring r (kind 0) to the peer. -/
def mirrorCopy (s : State) (h kind r off : Nat) (b : Bytes) : State :=
  if !(mirrorUp s h) then s else
  if rdB s h R.MIRCTL 29 then mirrorDseq (sendChunks s h kind r off b (kind == 0)) h else
  if !(hubLinkOk s) then mirrorDown s h 3 else
  let base := mirBase s (1 - h)
  let a := if kind = 1 then base + off else base + mirOffset (ringSize s h) r + off % ringSize s h r
  match mwr s (1 - h) none a b with
  | (s, .ok) =>
    mirrorDseq (if kind = 0 then setPeerEnd (setMseq s h r (off + b.length)) (1 - h) r (off + b.length) else s) h
  | (s, _) => journal s h evLaneDown false noPart (detail [(16, 1, 6)])

/-! ## The chain-state area (R291) -/

def csaBase (s : State) (h : Nat) : Nat := rdF s h R.CSABASEHI 15 0 * 2 ^ 32 + (csr s h R.CSABASELO).toNat
def keyId (s : State) : Nat := match s.evi.key with | some k => k.keyid.toNat | none => 0

def csaWrite (s : State) (h off : Nat) (b : Bytes) : State :=
  match mwr s h none (csaBase s h + off) b with
  | (s, .ok) => mirrorCopy s h 1 0 off b
  | (s, _) => failHub s h

/-- The header: the hub's ring, target and PCIe configuration as last written. -/
def csaHeader (s : State) (h : Nat) : Bytes :=
  let reg (off : Nat) (mask : W32) : Bytes := natLe 4 (csr s h off &&& mask).toNat
  let er := (List.range 4).flatMap (fun r => (List.range 16).flatMap (fun i =>
    reg (R.ERCTL r + 4 * i) (if i = 0 then 0xF7FFFFFF else if 6 ≤ i && i ≤ 12 then 0 else 0xFFFFFFFF)))
  let tg := (List.range 8).flatMap (fun t => (List.range 16).flatMap (fun i =>
    reg (R.TGT t + 4 * i) (if i = 0 then 0xFE7FFFFF else 0xFFFFFFFF)))
  let gl := (List.range 12).flatMap (fun i =>
    reg (R.ECTL + 4 * i) (if i = 0 then 0x40000000
      else if i = 4 || i = 5 || i = 8 || i = 9 || i = 10 || i = 11 then 0 else 0xFFFFFFFF))
  let b := natLe 4 0x4E435341 ++ natLe 1 1 ++ natLe 1 h ++ natLe 2 (keyId s) ++ er ++ tg ++ gl ++
    reg R.PCICFG 0xFFFFFFFF ++ (List.range 16).flatMap (fun n => reg (R.LCTL n) 0xFFFFFFF0) ++ zeros 3200
  b ++ natLe 4 (crc32c b).toNat

def writeCsaHeader (s : State) (h : Nat) : State := csaWrite s h 0 (csaHeader s h)

/-- State codes of a chain (R287). -/
def ChState.code : ChState → Nat
  | .free => 0 | .opened => 1 | .closing => 2

/-- Entry c: the chain as of its last committed record. -/
def writeCsaEntry (s : State) (h c : Nat) : State :=
  let x := getChain s h c
  let b := be256 x.h ++ natLe 8 (x.cnt - 1) ++ natLe 8 x.seq.toNat ++ natLe 1 x.state.code ++ natLe 1 x.ring ++
    natLe 1 x.part ++ zeros 1 ++ natLe 2 x.rid ++ zeros 6
  csaWrite s h (4096 + 64 * c) (b ++ natLe 4 (crc32c b).toNat)

/-! ## Records (R279 to R282) -/

def noChain : Nat := 0xFFFF

/-- Bytes 0 to 55 of a record header. -/
def recHead (s : State) (h ty flags chain n : Nat) (pos : W64) (len rid seq aux : Nat) : Bytes :=
  natLe 4 0x4E455652 ++ natLe 1 ty ++ natLe 1 flags ++ natLe 2 chain ++ natLe 8 n ++ natLe 8 pos.toNat ++
    natLe 8 (rulPos s h ridPtp).toNat ++ natLe 4 len ++ natLe 2 (rid % 2048 + 4096 * h) ++ natLe 2 (keyId s) ++
    natLe 8 seq ++ natLe 8 aux
/-- The whole header: COMMIT and the CRC over bytes 0 to 58. -/
def recSeal (b56 : Bytes) : Bytes :=
  let b := b56 ++ zeros 3
  b ++ [0xC5] ++ natLe 4 (crc32c b).toNat

/-- Write a record whose space is reserved at `seq`. -/
def storeRec (s : State) (h r seq chain : Nat) (hdr body : Bytes) : State × Bool :=
  let b := hdr ++ pad64 body
  match mwr s h none (ringBase s h r + seq % ringSize s h r) b with
  | (s, .ok) =>
    let s := setRecs s h r (recsOf s h r ++ [{ seq := seq, size := b.length, chain := chain }])
    (mirrorCopy s h 0 r seq b, true)
  | (s, _) => (failRing s h r, false)

/-- Position word for a record of chain c: its stream ruling's, 0 without one. -/
def chainPos (s : State) (h c : Nat) : W64 :=
  let x := getChain s h c
  if x.rid = 0x7FF then 0 else rulPos s h x.rid

/-- Space for a record of `size` bytes at the ring's end, after a PAD record where it would straddle (R290). The
anchor follows (R308). -/
def reserveAt (s : State) (h r size : Nat) : State × Nat :=
  let left := ringSize s h r - wseq s h r % ringSize s h r
  let s := if left < size then
      let q := wseq s h r
      let b := recSeal (recHead s h 8 0 noChain 0 0 (left - 64) 0x7FF q 0)
      let s := setWseq s h r (q + left)
      match mwr s h none (ringBase s h r + q % ringSize s h r) b with
      | (s, .ok) =>
        mirrorCopy (setRecs s h r (recsOf s h r ++ [{ seq := q, size := left, chain := noChain }])) h 0 r q b
      | (s, _) => failRing s h r
    else s
  let q := wseq s h r
  (setAncW (setWseq s h r (q + size)) h r (q + size), q)
/-- What `reserveAt` takes: the record, and the filler where it would straddle. -/
def needAt (s : State) (h r size : Nat) : Nat :=
  let left := ringSize s h r - wseq s h r % ringSize s h r
  if left < size then left + size else size

/-- The chain moves to record n (R281, R282), and its CSA entry with it. -/
def advanceChain (s : State) (h c n seq : Nat) (hdr body : Bytes) (hUnknown : Bool) : State :=
  let x := getChain s h c
  let prev := if hUnknown then zeros 32 else be256 x.h
  writeCsaEntry (setChain s h c { x with
    h := sha256 (prev ++ hdr ++ body), cnt := n + 1, next := max x.next (n + 1), seq := BitVec.ofNat 64 seq }) h c

/-- Type codes (R280). -/
def ReqKind.code : ReqKind → Nat
  | .opened => 1 | .band => 2 | .seal => 3 | .eor => 4 | .gap => 5 | .gbroken => 6 | .manifest => 7

/-- Commit a chained record at once in its chain's ring, within the stroke reserve. -/
def commitNow (s : State) (h c : Nat) (k : ReqKind) (foreign : Bool) (aux : Nat) (body : Bytes) : State :=
  let x := getChain s h c
  let r := x.ring
  if ringFailed s h r || !(ringEn s h r) then s else
  let (s, q) := reserveAt s h r (recSize body.length)
  let hdr := recSeal (recHead s h k.code (if foreign then 2 else 0) c x.cnt (chainPos s h c) body.length x.rid q aux)
  match storeRec s h r q c hdr body with
  | (s, true) => advanceChain s h c x.cnt q hdr body false
  | (s, false) => s

/-- A record of no chain committed at once: GAP with CHAIN 0xFFFF, or MANIFEST. -/
def commitFree (s : State) (h r : Nat) (ty : Nat) (foreign : Bool) (aux : Nat) (body : Nat → Bytes → Bytes)
    (len : Nat) : State :=
  if ringFailed s h r || !(ringEn s h r) then s else
  let (s, q) := reserveAt s h r (recSize len)
  let head := recHead s h ty (if foreign then 2 else 0) noChain 0 0 len 0x7FF q aux
  (storeRec s h r q noChain (recSeal head) (body q head)).1

/-! ## Seals (R283) -/

/-- Queue a seal of the chain's last committed record; one that the chain already has is replaced. -/
def queueSeal (s : State) (h c : Nat) (tok : Option Tok) (final : Bool) : State :=
  let x := getChain s h c
  let n := x.cnt - 1
  let same (e : SealReq) : Bool := e.hub.val == h && e.chain == c
  let s := updChain s h c (fun x => { x with ns := n, sealPos := rulPos s h x.sealrid })
  if s.evi.signer.any same then
    bump { s with evi := { s.evi with signer := s.evi.signer.map (fun e =>
      if same e then { e with n := n, h := x.h, tok := e.tok ++ tok.toList, final := e.final || final } else e) } }
      h R.SIGCOAL 31 0 1
  else { s with evi := { s.evi with signer := s.evi.signer ++
    [{ hub := hubFin h, chain := c, n := n, h := x.h, tok := tok.toList, final := final }] } }

/-- After a commit: a seal falls due by records or by the ruling. -/
def sealDue (s : State) (h c : Nat) : State :=
  let x := getChain s h c
  let byN := x.sealb ≠ 0 && decide (x.sealb ≤ x.cnt - 1 - x.ns)
  let byR := x.sealr ≠ 0 && decide (x.sealr ≤ unitAdvance s h x.sealrid x.sealPos (rulPos s h x.sealrid))
  if 1 < x.cnt && (byN || byR) then queueSeal s h c none false else s

/-- A signature by the seal key over a digest, with a fresh nonce. -/
def sealSign (s : State) (k : SealKey) (m : Bytes) : State × Bytes :=
  let sig := ecSign k.d (sha256 m) (ecScalar (Config.random s.fresh))
  (drawn s, be256 sig.1 ++ be256 sig.2)

/-- SIGN_COMPLETE: the signer serves its oldest entry of the hub and the SEAL record commits (R283, R286, R287). -/
def execSignComplete (h : Hub) (s : State) : Out :=
  if !(serving s h.val) then .next s else
  match s.evi.signer.find? (fun e => e.hub == h), s.evi.key with
  | some e, some k =>
    let c := e.chain
    let x := getChain s h.val c
    let r := x.ring
    if !(roomFor s h.val (needAt s h.val r (recSize 96))) then .next s else
    let s := { s with evi := { s.evi with signer := s.evi.signer.filter (fun y => !(y.hub == h && y.chain == c)) } }
    let (s, q) := reserveAt s h.val r (recSize 96)
    let head := recHead s h.val 3 0 c e.n (chainPos s h.val c) 96 x.rid q 0
    let (s, sig) := sealSign s k (head ++ be256 e.h)
    match storeRec s h.val r q c (recSeal head) (be256 e.h ++ sig) with
    | (s, false) => .next (e.tok.foldl (fun s t => chopToken s h.val e.n 2 (some t)) s)
    | (s, true) =>
      let s := if e.final then
          writeCsaEntry (updChain s h.val c (fun x => { x with state := .free, rate := 0 })) h.val c
        else s
      .next (e.tok.foldl (fun s t => chopToken s h.val e.n 0 (some t)) s)
  | _, _ => .next s

/-! ## Guarantees (R300 to R302) -/

/-- Rank kept and ranks broken by cause. -/
def rankKept (cause : Nat) : Nat := if cause = 4 then 3 else 2
def rankBroken (cause : Nat) : Nat := match cause with | 1 => 0x1C | 4 => 0x08 | _ => 0x04

def gbrokenBody (cause stop count : Nat) (pos : W64) : Bytes :=
  natLe 1 (rankKept cause) ++ natLe 1 (rankBroken cause) ++ natLe 1 cause ++ natLe 1 stop ++ zeros 4 ++
    natLe 8 pos.toNat ++ natLe 8 count ++ zeros 8
def evGuarantees (s : State) (h cause stop : Nat) : State :=
  journal s h evGuarantee false noPart
    (detail [(16, 1, cause), (17, 1, rankKept cause), (18, 1, rankBroken cause), (19, 1, stop)])

/-- Ask for a record of the chop unit's own in chain c, behind what its ring's queue holds. -/
def askRecord (s : State) (h c : Nat) (k : ReqKind) (aux : W64) (body : Bytes) : State :=
  let x := getChain s h c
  if x.state ≠ .opened || ringFailed s h x.ring then s else
  setRingQ s h x.ring (ringQ s h x.ring ++
    [{ kind := k, chain := c, body := body, pos := 0, aux := aux, foreign := false, adv := none, srcAddr := 0,
       len := body.length, tok := none, n := 0, seq := 0, badsrc := false }])

def borrowing (s : State) (h : Nat) : Option (Nat × W64) := tget (fun _ => none) s.evi.borrow h
def setBorrow (s : State) (h : Nat) (v : Option (Nat × W64)) : State :=
  { s with evi := { s.evi with borrow := tset (fun _ => none) s.evi.borrow h v } }
/-- OPEN chains of the partitions that own stroke targets. -/
def borrowChains (s : State) (h : Nat) : List Nat :=
  let ps := ((List.range 8).filter (fun t => rdB s h (R.TGT t) 31 && rdB s h (R.TGT t) 30)).map
    (fun t => rdF s h (R.TGT t) 29 27)
  (openChains s h).filter (fun c => ps.contains (getChain s h c).part)

/-- Borrowing starts when wet ink reaches BORROWAT and ends when it falls below half of it (R301, R302). -/
def settleBorrow (s : State) (h : Nat) : State :=
  if strokeOf s h ≠ .none then s else
  let at0 := rdF s h R.BORROWAT 12 0 * 0x100000
  let wet := wetBytes s h + strokeReserve s h
  match borrowing s h with
  | none =>
    if rdB s h R.ECTL 30 && at0 ≤ wet then
      let p := refPos s h
      let s := evGuarantees (setBorrow s h (some (0, p))) h 4 0
      (borrowChains s h).foldl (fun s c => askRecord s h c .gbroken 0 (gbrokenBody 4 0 0 p)) s
    else s
  | some (n, p) =>
    if 2 * wet < at0 then
      let s := evGuarantees (setBorrow s h none) h 4 1
      (borrowChains s h).foldl (fun s c => askRecord s h c .gbroken 0 (gbrokenBody 4 1 n p)) s
    else s

/-! ## Requests (R284 to R288) -/

/-- The source of a band: 16-byte codewords that do not answer are zeros (R286, R429). -/
def readSource (s : State) (h a n : Nat) : State × Bytes × Bool :=
  if s.mem.bad.isEmpty && rangeServes s h a n then (s, viewBytes s h a n, false) else
  let lo := a / 16
  (List.range ((a + n - 1) / 16 - lo + 1)).foldl (fun (q : State × Bytes × Bool) i =>
    let b := max a (16 * (lo + i))
    let e := min (a + n) (16 * (lo + i) + 16)
    match mrd q.1 h b (e - b) with
    | (s, .ok, d) => (s, q.2.1 ++ d, q.2.2)
    | (s, _, _) => (s, q.2.1 ++ zeros (e - b), true)) (s, [], false)

/-- LEN bytes from the slots of an OUT channel (R284). -/
def readSlots (s : State) (h ch nslots slotb len : Nat) : State × Bytes × Bool :=
  let rd := (csr s h (R.LCHRD ch)).toNat
  let q := (List.range nslots).foldl (fun (q : State × Bytes × Bool) i =>
    if len ≤ q.2.1.length then q else
    let idx := (BitVec.ofNat 32 (rd + i)).toNat
    if rdB s h (R.LCH ch) 29 then
      match slotRead q.1 h ch idx with
      | (s, some b) => (s, q.2.1 ++ b.take slotb, q.2.2)
      | (s, none) => (s, q.2.1 ++ zeros slotb, true)
    else
      let (s, b, bad) := readSource q.1 h (slotAddr q.1 h ch idx) slotb
      (s, q.2.1 ++ b, q.2.2 || bad)) (s, [], false)
  (q.1, q.2.1.take len, q.2.2)

/-- The head of ring r's queue may reserve now: what it waits for beside space (R284, R296). -/
def headReady (s : State) (h r : Nat) (q : Req) : Bool :=
  match q.adv with
  | none => true
  | some (ch, nslots, _) =>
    decide (nslots ≤ (csr s h (R.LCHWR ch) - csr s h (R.LCHRD ch)).toNat) &&
    !((List.range 4).any (fun r' => (reservedOf s h r').any (fun p => (p.adv.map (·.1)) == some ch))) &&
    ringEn s h r

def recoverOf (s : State) (h r : Nat) : Option (W64 × W64) := tget (fun _ => none) s.evi.recover (ringKey h r)

/-- RING_RESERVE: the head of the queue takes its ring space and index (R282, R284, R290, R296). After a hand-off
in RECOVER the ring's first record is a GAP of no chain (R309). -/
def execRingReserve (h : Hub) (r : Fin 4) (s : State) : Out :=
  let r := r.val
  let h := h.val
  if !(serving s h) || !(ringEn s h r) || ringFailed s h r then .next s else
  match ringQ s h r with
  | [] => .next s
  | q :: rest =>
    match recoverOf s h r with
    | some (lo, hi) =>
      if !(roomFor s h (needAt s h r 128)) then .next s else
      let body := natLe 8 (hi - lo).toNat ++ zeros 8 ++ natLe 8 lo.toNat ++ natLe 8 1
      let s := { s with evi := { s.evi with recover := tset (fun _ => none) s.evi.recover (ringKey h r) none } }
      let s := commitFree s h r 5 false 2 (fun _ _ => body) 32
      .next (if (List.range 4).any (fun k => ringEn s h k && (recoverOf s h k).isSome) then s
        else setAncState s h 1)
    | none =>
      if q.kind = .seal then
        let x := getChain s h q.chain
        if x.cnt ≠ x.next then .next s
        else .next (settleXoff (queueSeal (setRingQ s h r rest) h q.chain q.tok false) h)
      else
        let size := recSize q.len
        if !(roomFor s h (needAt s h r size)) || !(headReady s h r q) then .next (settleBorrow s h) else
        let (s, seq) := reserveAt (setRingQ s h r rest) h r size
        if ringFailed s h r then .next s else
        let x := getChain s h q.chain
        let n := if q.chain < 1024 then x.next else 0
        let s := if q.chain < 1024 then setChain s h q.chain { x with next := n + 1 } else s
        let pos := if q.kind = .band then q.pos else if q.chain < 1024 then chainPos s h q.chain else 0
        let s := setReserved s h r (reservedOf s h r ++ [{ q with n := n, seq := BitVec.ofNat 64 seq, pos := pos }])
        .next (settleXoff (settleBorrow s h) h)

/-- The body of a reserved record at its commit. -/
def reqBody (s : State) (h : Nat) (q : Req) : State × Bytes × Bool :=
  match q.kind with
  | .opened => (s, (match s.evi.key with | some k => be256 (sha256 (be256 k.x ++ be256 k.y)) | none => zeros 32), false)
  | .eor => (s, natLe 8 0 ++ natLe 8 (getChain s h q.chain).lost, false)
  | .band =>
    match q.adv with
    | some (ch, nslots, slotb) => readSlots s h ch nslots slotb q.len
    | none => if (getChain s h q.chain).src1 then (s, q.body, q.badsrc) else readSource s h q.srcAddr.toNat q.len
  | _ => (s, q.body, false)

/-- Commit the oldest reserved record of a ring (R279 to R283, R286). -/
def commitOldest (s : State) (h r : Nat) : State :=
  match reservedOf s h r with
  | [] => s
  | q :: rest =>
    let (s, body, bad) := reqBody s h q
    let s := setReserved s h r rest
    let x := getChain s h q.chain
    let rid := if q.chain < 1024 then x.rid else 0x7FF
    let flags := b2n (bad || q.badsrc) + 2 * b2n q.foreign
    let hdr := recSeal (recHead s h q.kind.code flags q.chain q.n q.pos body.length rid q.seq.toNat q.aux.toNat)
    match storeRec s h r q.seq.toNat q.chain hdr body with
    | (s, false) => chopToken s h q.n 2 q.tok
    | (s, true) =>
      let s := if q.chain < 1024 then advanceChain s h q.chain q.n q.seq.toNat hdr body false else s
      let s := match q.adv with
        | some (ch, nslots, _) => setCsr s h (R.LCHRD ch) (csr s h (R.LCHRD ch) + BitVec.ofNat 32 nslots)
        | none => s
      match q.kind with
      | .opened =>
        chopToken (updChain s h q.chain (fun x => { x with ns := 0, sealPos := rulPos s h x.sealrid })) h q.n
          (b2n bad) q.tok
      | .eor => queueSeal s h q.chain q.tok true
      | _ => sealDue (chopToken s h q.n (b2n (bad || q.badsrc)) q.tok) h q.chain

/-- RECORD_COMMIT (R282). -/
def execRecordCommit (h : Hub) (r : Fin 4) (s : State) : Out :=
  .next (if serving s h.val then commitOldest s h.val r.val else s)

/-- A request as CHOP hands it over. -/
structure ChopReq where
  op : Nat
  tok : Bool
  chain : Nat
  bytes : Bytes

/-- Bytes that an operation may set (R284). -/
def chopListed (op : Nat) (tok src1 adv : Bool) (i : Nat) : Bool :=
  let inR (a b : Nat) : Bool := decide (a ≤ i) && decide (i ≤ b)
  inR 0 3 || i == 63 || (tok && inR 24 31) ||
  (match op with
   | 1 => inR 4 21 || (src1 && inR 22 23)
   | 2 => inR 4 7 || (!adv && inR 8 15) || inR 16 23 || inR 32 33 || (adv && inR 34 37)
   | _ => false)

/-- The fields of a request are in range (status 2). -/
def chopFields (s : State) (h : Nat) (b : Bytes) : Bool :=
  let op := leAt b 0 1
  let tok := leAt b 1 1 % 2 == 1
  let src1 := leAt b 9 1 == 1
  let adv := leAt b 32 2 / 0x8000 == 1
  let len := leAt b 4 4
  decide (1 ≤ op) && decide (op ≤ 4) && decide (leAt b 1 1 ≤ 1) && decide (leAt b 2 2 < 1024) &&
  (List.range 64).all (fun i => chopListed op tok src1 adv i || byteAt b i == 0) &&
  (match op with
   | 1 => len != 0 && decide (leAt b 8 1 ≤ 3) && decide (leAt b 9 1 ≤ 1) &&
      (decide (leAt b 10 2 < 0x400) || leAt b 10 2 == 0x7FF) &&
      (leAt b 16 4 == 0 || ridOk (leAt b 20 2)) &&
      (!src1 || (decide (1 ≤ leAt b 22 2) && decide (leAt b 22 2 ≤ 4096)))
   | 2 => decide (1 ≤ len) && decide (len ≤ 4194304) && leAt b 32 2 / 64 % 512 == 0 &&
      decide (recSize len + strokeReserve s h ≤ wetLim s h) &&
      (!adv || (decide (1 ≤ leAt b 34 2) && decide (leAt b 34 2 ≤ 8192) && decide (1 ≤ leAt b 36 2) &&
        decide (leAt b 36 2 ≤ 512) && decide (len ≤ leAt b 34 2 * leAt b 36 2)))
   | _ => true)

/-- Ownership and state (status 3). -/
def chopState (s : State) (h part : Nat) (b : Bytes) : Bool :=
  let x := getChain s h (leAt b 2 2)
  let r := if leAt b 0 1 = 1 then leAt b 8 1 else x.ring
  ringEn s h r && !(ringFailed s h r) && ringPart s h r == part &&
  (match leAt b 0 1 with
   | 1 => x.state == .free
   | 2 => x.state == .opened && x.part == part && !x.src1 &&
      (leAt b 32 2 / 0x8000 == 0 ||
        (rdB s h (R.LCH (leAt b 32 2 % 64)) 31 && rdB s h (R.LCH (leAt b 32 2 % 64)) 30 &&
          rdF s h (R.LCH (leAt b 32 2 % 64)) 28 26 == part))
   | _ => x.state == .opened && x.part == part)

/-- The ring whose queue a request joins. -/
def chopRing (s : State) (h : Nat) (b : Bytes) : Nat :=
  if leAt b 0 1 = 1 then leAt b 8 1 % 4 else (getChain s h (leAt b 2 2 % 1024)).ring

/-- The status of a request (R285), with the reason when it is 7. -/
def chopStatus (s : State) (h part : Nat) (b : Bytes) : State × Nat × Nat :=
  if strokeOf s h ≠ .none then (s, 6, 0) else
  if byteAt b 63 ≠ crc8 (b.take 63).reverse then
    (journal s h evCtrlCheck false part (detail [(16, 1, 7), (17, 1, 1)]), 1, 0) else
  if !(chopFields s h b) then (s, 2, 0) else
  if !(chopState s h part b) then (s, 3, 0) else
  if leAt b 0 1 = 1 && rdF s h R.DRYRATE 23 0 * 1000 < admitted s h + leAt b 4 4 + rdF s h R.DRYMARGIN 23 0 * 1000 then
    (s, 4, 0) else
  if s.evi.key.isNone then (s, 5, 0) else
  if leAt b 1 1 % 2 = 1 then
    match tokenCheck s h part false (BitVec.ofNat 64 (leAt b 24 8)) with
    | (s, .inl reason) => (s, 7, reason)
    | (s, .inr _) => (s, 0, 0)
  else (s, 0, 0)

/-- ANCDIR holds CSABASE (R308). -/
def setAncDir (s : State) (h : Nat) : State :=
  { s with evi := { s.evi with ancDir := tset (fun _ => 0) s.evi.ancDir h (BitVec.ofNat 64 (csaBase s h)) } }

/-- An accepted request takes effect (R287). CLOSE discards what an open SRC 1 band holds, which EOR counts. -/
def chopAccept (s : State) (h part : Nat) (b : Bytes) : State :=
  let c := leAt b 2 2
  let tok := if leAt b 1 1 % 2 = 1 then some (mkTok (BitVec.ofNat 64 (leAt b 24 8)) 0 h .chop part) else none
  let r := chopRing s h b
  let base : Req :=
    { kind := .band, chain := c, body := [], pos := 0, aux := 0, foreign := false, adv := none, srcAddr := 0, len := 0,
      tok := tok, n := 0, seq := 0, badsrc := false }
  let put (s : State) (q : Req) : State := setRingQ s h r (ringQ s h r ++ [q])
  match leAt b 0 1 with
  | 1 =>
    let x : Chain := { chainDflt with
      state := .opened, ring := r, src1 := leAt b 9 1 == 1, rid := leAt b 10 2, part := part, rate := leAt b 4 4,
      sealb := leAt b 12 4, sealr := leAt b 16 4, sealrid := leAt b 20 2, bandmax := leAt b 22 2 * 1024 }
    let s := setChain s h c x
    let s := if ancStateOf s h = 3 then s else setAncState s h 1
    writeCsaHeader (put (setAncDir s h) { base with kind := .opened, len := 32 }) h
  | 2 =>
    let adv := leAt b 32 2 / 0x8000 == 1
    put s { base with
      len := leAt b 4 4, pos := BitVec.ofNat 64 (leAt b 16 8), srcAddr := BitVec.ofNat 48 (leAt b 8 8),
      adv := if adv then some (leAt b 32 2 % 64, leAt b 34 2, leAt b 36 2) else none }
  | 3 =>
    let x := getChain s h c
    if x.cnt = x.next && x.cnt ≠ 0 && !((ringQ s h r).any (fun q => q.chain == c)) then queueSeal s h c tok false
    else put s { base with kind := .seal }
  | _ =>
    settleXoff (put (updChain s h c (fun x =>
      { x with state := .closing, band := [], lost := x.lost + x.band.length })) { base with kind := .eor, len := 16 }) h

/-- The ring's queue is full: CHOP waits (R285). -/
def chopFull (s : State) (h : Nat) (b : Bytes) : Bool := decide (64 ≤ (ringQ s h (chopRing s h b)).length)

/-- What SEALQ writes (R287). -/
def sealqValue (s : State) (h part c : Nat) : W64 :=
  let x := getChain s h c
  if x.state = .free then 0 else
  if x.part ≠ part then BitVec.allOnes 64 else
  BitVec.ofNat 64 (x.state.code * 2 ^ 62 + x.ring * 2 ^ 60 + b2n x.src1 * 2 ^ 59 + (x.cnt - 1) % 2 ^ 48)

/-! ## The seal key (R289) -/

def skAddr (s : State) (h : Nat) : Nat := rdF s h R.SKADDRHI 15 0 * 2 ^ 32 + (csr s h R.SKADDRLO).toNat / 256 * 256

/-- The blob of a key. -/
def skBlob (s : State) (k : SealKey) : Bytes :=
  let b := natLe 4 0x4E534B31 ++ natLe 2 k.keyid.toNat ++ zeros 2 ++ kwWrap s.boot.wrapKey (be256 k.d) ++ zeros 16 ++
    be256 k.x ++ be256 k.y ++ zeros 124
  b ++ natLe 4 (crc32c b).toNat
def blobGood (b : Bytes) : Bool :=
  leAt b 0 4 == 0x4E534B31 && leAt b 252 4 == (crc32c (b.take 252)).toNat

/-- SKCTL of both hubs shows the key. -/
def showKey (s : State) (state : Nat) : State :=
  (List.range 2).foldl (fun s h => if hubOk s h then wrF (wrF s h R.SKCTL 29 28 state) h R.SKCTL 15 0 (keyId s) else s) s

/-- Load a blob into both signers; one that fails leaves them unloaded with STATE 3. -/
def loadBlob (s : State) (b : Bytes) : State :=
  match (if blobGood b then kwUnwrap s.boot.wrapKey ((b.drop 8).take 40) else none) with
  | some p =>
    let k : SealKey := { keyid := BitVec.ofNat 16 (leAt b 4 2), d := of256 p, x := of256 ((b.drop 64).take 32),
                         y := of256 ((b.drop 96).take 32) }
    showKey { s with evi := { s.evi with key := some k } } 1
  | none => showKey { s with evi := { s.evi with key := none } } 3

def genKey (s : State) (h : Nat) : State :=
  let (s, st, old) := mrd s h (skAddr s h) 256
  let base := match s.evi.key with
    | some k => k.keyid.toNat
    | none => if st = .ok && blobGood old then leAt old 4 2 else 0
  if 0xFFFF < base + 1 then s else
  let d := BitVec.ofNat 256 (ecScalar (Config.random s.fresh))
  let q := ecPublic d
  let s := drawn s
  let k : SealKey := { keyid := BitVec.ofNat 16 (base + 1), d := d, x := q.1, y := q.2 }
  let (s, _) := mwr s h none (skAddr s h) (skBlob s k)
  showKey { s with evi := { s.evi with key := some k } } 1

def anyOpen (s : State) : Bool := (List.range 2).any (fun h => !(openChains s h).isEmpty)

/-- SKCTL by P0: GEN while no chain is OPEN, or LOAD. -/
def writeSkctl (s : State) (m : Master) (h : Nat) (v : W32) : State :=
  if !(asP0 s m) then s else
  if fld v 31 31 = 1 then (if anyOpen s then s else genKey s h)
  else if fld v 30 30 = 1 then
    let (s, st, b) := mrd s h (skAddr s h) 256
    loadBlob s (if st = .ok then b else zeros 256)
  else s

/-- SEAL_KEY_GEN (R289). -/
def execSealKeyGen (m : Master) (h : Hub) (v : W32) (s : State) : Out :=
  .next (if live s h.val then writeSkctl s m h.val v else s)
/-- SEAL_KEY_LOAD (R289). -/
def execSealKeyLoad (m : Master) (h : Hub) (v : W32) (s : State) : Out :=
  .next (if live s h.val then writeSkctl s m h.val v else s)

/-! ## Ring and target registers -/

/-- ER[r] +0 by P0 (R290, R427, R428): PART and SIZE stand while EN is 1; EN is set only with SIZE ≥ WETLIM + 8. -/
def writeErctl (s : State) (m : Master) (h r : Nat) (v : W32) : State :=
  let old := csr s h (R.ERCTL r)
  let sz := fld v 12 0
  if !(asP0 s m) || sz % 2 = 1 || sz < 16 || 4096 < sz then s else
  let en := fld old 31 31 = 1
  if en && (fld v 30 28 ≠ fld old 30 28 || sz ≠ fld old 12 0) then s else
  if !en && fld v 31 31 = 1 && sz < rdF s h R.WETLIM 12 0 + 8 then s else
  let s := setCsr s h (R.ERCTL r) ((v &&& 0xF0FF1FFF) ||| (old &&& 0x08000000))
  let s := if !en && fld v 31 31 = 1 then
      setSegs (setRecs (setCsr64 (setDseq (setWseq s h r 0) h r 0) h (R.MSEQLO r) (R.MSEQHI r) 0) h r []) h r []
    else s
  writeCsaHeader s h

/-- ER_ENABLE (R290). -/
def execErEnable (m : Master) (h : Hub) (r : Fin 4) (v : W32) (s : State) : Out :=
  .next (if live s h.val then writeErctl s m h.val r.val v else s)

/-- A target register: all but TAIL stand while EN is 1, EN itself excepted (R294, R428). -/
def writeTgt (s : State) (m : Master) (h t i : Nat) (v : W32) : State :=
  let off := R.TGT t + 4 * i
  let en := rdB s h (R.TGT t) 31
  if !(asP0 s m) then s else
  if i = 0 then
    let old := csr s h off
    if fld v 11 0 < 2 then s else
    if en && (v &&& 0x7E000FFF) ≠ (old &&& 0x7E000FFF) then s else
    let s := setCsr s h off ((v &&& 0xFE000FFF) ||| (old &&& 0x01800000))
    writeCsaHeader (if !en && fld v 31 31 = 1 then wrF s h off 24 23 0 else s) h
  else if i = 12 || !en then
    let mask : W32 := match i with
      | 1 => 0xFFFFF000 | 2 => 0xFFFF | 3 => 0xFFFFF000 | 4 => 0xFFFF | 5 => 0xFFFFFFFC
      | 11 => 0 | _ => 0xFFFFFFFF
    if 12 < i || i = 11 then s else writeCsaHeader (setCsr s h off (v &&& mask)) h
  else s

/-! ## Drying (R292 to R295) -/

def lbaBytes (s : State) (h t : Nat) : Nat := if rdB s h (R.TGT t) 25 then 4096 else 512
/-- Free blocks of the log area. -/
def tgtFree (s : State) (h t : Nat) : Nat :=
  let cnt := (csr s h (R.LBACNT t)).toNat
  let hd := (csr s h (R.TGTHEAD t)).toNat
  let tl := (csr s h (R.TGTTAIL t)).toNat
  if cnt = 0 then 0 else cnt - (hd + cnt - tl % cnt) % cnt
/-- A target is FULL for a ring: less than SEGMAX is free. -/
def tgtFull (s : State) (h r t : Nat) : Bool :=
  decide (tgtFree s h t * lbaBytes s h t < rdF s h (R.SEGMAX r) 10 0 * 1024)
/-- Target t dries ring r now: an ordinary target of TMASK, or a stroke target during a stroke or a borrowing. -/
def tgtServes (s : State) (h r t : Nat) : Bool :=
  rdB s h (R.TGT t) 31 && rdF s h (R.TGT t) 24 23 ≠ 2 &&
  (if rdB s h (R.TGT t) 30 then strokeOf s h != .none || (borrowing s h).isSome
   else rdB s h (R.ERCTL r) (16 + t))

/-- A target fails: EV_ISOLATE, and its segments wait for another (R294). -/
def failTarget (s : State) (h t : Nat) : State :=
  if rdF s h (R.TGT t) 24 23 = 2 then s else
  let s := wrF s h (R.TGT t) 24 23 2
  let s := journal s h evIsolate false (rdF s h (R.TGT t) 29 27) (detail [(16, 1, 3), (17, 1, t), (18, 1, 5)])
  (List.range 4).foldl (fun s r => setSegs s h r ((segsOf s h r).map (fun g =>
    if g.target = t && !g.done then { g with target := 8, retried := false } else g))) s

/-- The end of the committed records that follow `pos` without a gap. -/
def committedTo (l : List RingRec) : Nat → Nat → Nat
  | 0, pos => pos
  | fuel + 1, pos =>
    match l.find? (fun e => decide (e.seq ≤ pos) && decide (pos < e.seq + e.size)) with
    | some e => committedTo l fuel (e.seq + e.size)
    | none => pos

/-- The next segment of ring r that is not issued: its start and end. -/
def nextSegment (s : State) (h r : Nat) : Nat × Nat :=
  let start := match (segsOf s h r).getLast? with | some g => g.stop.toNat | none => dseq s h r
  let lim := committedTo (recsOf s h r) (recsOf s h r).length start
  let sz := ringSize s h r
  (start, min lim (min (start + rdF s h (R.SEGMAX r) 10 0 * 1024) ((start / sz + 1) * sz)))

/-- The segment is to be issued (R292). -/
def segmentDue (s : State) (h r start stop : Nat) : Bool :=
  let last := tget (fun _ => 0) s.evi.lastIssue (ringKey h r)
  let rid := rdF s h (R.ERDRY r) 26 16
  let dryr := (csr s h (R.DRYR r)).toNat
  decide (start < stop) &&
  (decide (rdF s h (R.ERDRY r) 15 0 * 1024 ≤ stop - start) || strokeOf s h != .none ||
    (dryr != 0 && decide (dryr ≤ unitAdvance s h rid last (rulPos s h rid))))

/-- Codewords of a segment's pages that cannot be read, by ring position (R295, R429). -/
def lostCodewords (s : State) (h r start stop : Nat) : State × List Nat :=
  let lo := start / 4096 * 4096
  let n := (stop + 4095) / 4096 * 4096 - lo
  let a := ringBase s h r + lo % ringSize s h r
  if s.mem.bad.isEmpty && rangeServes s h a n then (s, []) else
  (List.range (n / 16)).foldl (fun q i =>
    match mrd q.1 h (a + 16 * i) 16 with
    | (s, .ok, _) => (s, q.2)
    | (s, _, _) => (s, q.2 ++ [lo + 16 * i])) (s, [])

/-- A GAP for each record that the lost codewords touch, with EV_SEAL_GAP (R295). -/
def damageGaps (s : State) (h r : Nat) (lost : List Nat) : State :=
  (recsOf s h r).foldl (fun s e =>
    let n := 16 * (lost.filter (fun p => decide (e.seq ≤ p) && decide (p < e.seq + e.size))).length
    if n = 0 then s else
    let x := getChain s h e.chain
    let inChain := e.chain < 1024 && x.state != .free
    let part := if inChain then x.part else noPart
    let s := journal s h evSealGap false part (detail [(16, 2, e.chain), (18, 1, 3), (23, 8, n)])
    let body := natLe 8 n ++ zeros 8 ++ natLe 8 e.seq ++ natLe 8 4
    if ringFailed s h r then s else
    setRingQ s h r (ringQ s h r ++
      [{ kind := .gap, chain := if inChain then e.chain else noChain, body := body, pos := 0, aux := 3,
         foreign := false, adv := none, srcAddr := 0, len := 32, tok := none, n := 0, seq := 0, badsrc := false }])) s

/-- The engine hands a segment to target t: a submission-queue entry and a PRP list, both written to main memory, and
HEAD moves (R291 to R294, R429). The NVMe contents of the two are not the spec's: free bytes. -/
def issueTo (s : State) (h t pages : Nat) : State × Bool :=
  let tail := tget (fun _ => 0) s.evi.sqTail (8 * h + t)
  let qs := rdF s h (R.TGT t) 11 0
  let sq := rdF s h (R.SQBASEHI t) 15 0 * 2 ^ 32 + (csr s h (R.SQBASELO t)).toNat + 64 * tail
  let prp := rdF s h (R.CQBASEHI t) 15 0 * 2 ^ 32 + (csr s h (R.CQBASELO t)).toNat + 16 * qs
  let (s, st1) := mwr s h none sq (natLe 64 (Config.freeBits 512 s.fresh).toNat)
  let s := drawn s
  let (s, st2) := if pages ≤ 1 then (s, MStat.ok) else
    mwr s h none prp (natLe (8 * pages) (Config.freeBits (64 * pages) s.fresh).toNat)
  let s := drawn s
  if st1 = .ok && st2 = .ok then
    let cnt := (csr s h (R.LBACNT t)).toNat
    let blocks := 4096 * pages / lbaBytes s h t
    let s := { s with evi := { s.evi with sqTail := tset (fun _ => 0) s.evi.sqTail (8 * h + t) ((tail + 1) % qs) } }
    let s := setCsr s h (R.TGTHEAD t) (BitVec.ofNat 32 (((csr s h (R.TGTHEAD t)).toNat + blocks) % cnt))
    (writeCsaHeader s h, true)
  else (s, false)

/-- Adopted ink goes to a target of the hub as soon as one takes it (R312). -/
def dryAdopted (s : State) (h t : Nat) : State :=
  let n := adoptedInk s h
  if n = 0 then s else
  match issueTo s h t ((n + 4095) / 4096) with
  | (s, false) => failTarget s h t
  | (s, true) =>
    let d := csr64 s h R.DRYBYTESLO R.DRYBYTESHI
    setCsr64 { s with evi := { s.evi with mir := { s.evi.mir with
      adopted := tset (fun _ => 0) s.evi.mir.adopted h 0 } } } h R.DRYBYTESLO R.DRYBYTESHI (d + BitVec.ofNat 64 n)

/-- Pages of a segment. -/
def segPages (start stop : Nat) : Nat := (stop + 4095) / 4096 - start / 4096

/-- Namespaces written since a stroke began. -/
def noteFlush (s : State) (h t : Nat) : State :=
  let l := tget (fun _ => []) s.evi.flush h
  if strokeOf s h = .none || l.contains t then s else
  { s with evi := { s.evi with flush := tset (fun _ => []) s.evi.flush h (l ++ [t]) } }

/-- Ring r's next segment, or one whose target failed, goes to target t (R292, R294, R295). -/
def segmentIssue (s : State) (h r t : Nat) : State :=
  if !(live s h) || strokeOf s h = .finished || !(ringEn s h r) || !(tgtServes s h r t) then s else
  let s := dryAdopted s h t
  if tgtFull s h r t then (wrF s h (R.TGT t) 24 23 1) else
  let s := wrF s h (R.TGT t) 24 23 0
  let gs := segsOf s h r
  match gs.find? (fun g => g.target == 8) with
  | some g =>
    match issueTo s h t (segPages g.start.toNat g.stop.toNat) with
    | (s, false) => (failTarget s h t)
    | (s, true) => (noteFlush (setSegs s h r ((segsOf s h r).map (fun x =>
        if x.start = g.start then { x with target := t, retried := false } else x))) h t)
  | none =>
    let (start, stop) := nextSegment s h r
    if 16 ≤ (gs.filter (fun g => !g.done)).length || !(segmentDue s h r start stop) then s else
    let (s, lost) := lostCodewords s h r start stop
    let s := damageGaps s h r lost
    let rid := rdF s h (R.ERDRY r) 26 16
    let s := { s with evi := { s.evi with lastIssue := tset (fun _ => 0) s.evi.lastIssue (ringKey h r) (rulPos s h rid) } }
    let g : Segment := { ring := r, target := t, start := BitVec.ofNat 64 start, stop := BitVec.ofNat 64 stop,
                         retried := false, done := false }
    match issueTo s h t (segPages start stop) with
    | (s, false) => (failTarget (setSegs s h r (segsOf s h r ++ [{ g with target := 8 }])) h t)
    | (s, true) => (noteFlush (setSegs s h r (segsOf s h r ++ [g])) h t)

/-- DSEQ advances over the segments that are done, in order (R292, R308). -/
def settleDseq (s : State) (h r : Nat) : Nat → State
  | 0 => s
  | fuel + 1 =>
    match segsOf s h r with
    | g :: gs =>
      if !g.done then s else
      let d := csr64 s h R.DRYBYTESLO R.DRYBYTESHI + (g.stop - g.start)
      let s := setCsr64 (setAncD (setDseq (setSegs s h r gs) h r g.stop.toNat) h r g.stop.toNat) h
        R.DRYBYTESLO R.DRYBYTESHI d
      let s := setRecs s h r ((recsOf s h r).filter (fun e => decide (g.stop.toNat < e.seq + e.size)))
      settleDseq s h r fuel
    | [] => s

/-- SEGMENT_COMPLETE: the oldest write of ring r at target t ends; an error is retried once (R292, R294). A
completion that cannot be read fails the target (R429). -/
def execSegmentComplete (h : Hub) (r : Fin 4) (t : Fin 8) (ok : Bool) (s : State) : Out :=
  let h := h.val
  let r := r.val
  let t := t.val
  if !(live s h) || strokeOf s h = .finished then .next s else
  match (segsOf s h r).find? (fun g => g.target == t && !g.done) with
  | none => .next s
  | some g =>
    let upd (f : Segment → Segment) (s : State) : State :=
      setSegs s h r ((segsOf s h r).map (fun x => if x.start = g.start then f x else x))
    let cq := rdF s h (R.CQBASEHI t) 15 0 * 2 ^ 32 + (csr s h (R.CQBASELO t)).toNat
    if !(memServes s h cq) then .next (failTarget s h t) else
    if ok then
      let s := upd (fun x => { x with done := true }) s
      let s := match borrowing s h with
        | some (n, p) => if rdB s h (R.TGT t) 30 then setBorrow s h (some (n + (g.stop - g.start).toNat, p)) else s
        | none => s
      let s := settleDseq s h r (segsOf s h r).length
      .next (settleBorrow (mirrorDseq s h) h)
    else if g.retried then .next (failTarget s h t)
    else .next (upd (fun x => { x with retried := true }) s)

/-- Everything committed in the hub's rings is dry, and no adopted ink is left (R304 step 5). -/
def allDry (s : State) (h : Nat) : Bool :=
  adoptedInk s h == 0 &&
  (List.range 4).all (fun r => !(ringEn s h r) ||
    ((segsOf s h r).isEmpty && (nextSegment s h r).1 == (nextSegment s h r).2))

/-! ## The final stroke (R303 to R307) -/

/-- The MANIFEST of hub h (R280, R304): an entry for each chain in use, signed where a key is loaded. -/
def manifest (s : State) (h : Nat) (entries : Bytes) (foreign : Bool) : State :=
  match (List.range 4).find? (fun r => ringEn s h r && !(ringFailed s h r)) with
  | none => s
  | some r =>
    let k := Config.random s.fresh
    let key := s.evi.key
    let s := drawn s
    commitFree s h r 7 foreign 0 (fun _ head => entries ++ (match key with
      | some x =>
        let sig := ecSign x.d (sha256 (head ++ entries)) (ecScalar k)
        be256 sig.1 ++ be256 sig.2
      | none => zeros 64)) (entries.length + 64)

def manifestEntry (c n : Nat) (h : BitVec 256) : Bytes := natLe 2 c ++ zeros 6 ++ natLe 8 n ++ be256 h
def manifestEntries (s : State) (h : Nat) : Bytes :=
  (chainsOf s h).flatMap (fun e => manifestEntry e.1 (e.2.cnt - 1) e.2.h)

/-- Commit every record that holds a reservation. -/
def commitAll (s : State) (h : Nat) : State :=
  (List.range 4).foldl (fun s r => (reservedOf s h r).foldl (fun s _ => commitOldest s h r) s) s

/-- Step 1: queued requests without reservation go, and open bands with them; their bytes are for the EOR. -/
def dropRequests (s : State) (h : Nat) : State :=
  let s := (List.range 4).foldl (fun s r =>
    let l := ringQ s h r
    let s := setRingQ s h r []
    l.foldl (fun s q =>
      if q.kind = .band then updChain s h q.chain (fun x => { x with lost := x.lost + q.len }) else s) s) s
  (chainsOf s h).foldl (fun s e => updChain s h e.1 (fun x => { x with lost := x.lost + x.band.length, band := [] })) s

/-- Step 2: the array dies of the hub are switched off, their sheets with them. -/
def darken (s : State) (h : Nat) : State :=
  (List.range 24).foldl (fun s sh =>
    if sheetOk s sh && sheetHome s sh = h then
      let g := (getSheet s sh).gid
      let st := (getSheet s sh).state
      let s := setGang s g gangDflt
      let s := clearSheet s sh
      setDom (setDom (updSheet s sh (fun x => { x with state := if st = .retired then .retired else .off })) (128 + sh) .off)
        (160 + sh / 4) .off
    else s) s

/-- A ring of hub h has failed: ANCSTATE stays LIVE (R430). -/
def anyRingFailed (s : State) (h : Nat) : Bool := (List.range 4).any (ringFailed s h)

/-- Steps 1 to 4 of one hub. Before hand-off no chain is open and there is nothing for a MANIFEST (R306, R396). -/
def strokeHub (s : State) (h cause : Nat) : State :=
  let s := { s with evi := { s.evi with stroke := tset (fun _ => .none) s.evi.stroke h .running } }
  let s := wrB (setAncState s h (if anyRingFailed s h then 1 else 2)) h R.BTCTL 31 false
  let s := journal s h evPfail false noPart (detail [(16, 1, cause)])
  let s := darken (dropRequests s h) h
  let p := refPos s h
  let chains := openChains s h
  let s := evGuarantees s h 1 0
  let s := commitAll s h
  let s := chains.foldl (fun s c => commitNow s h c .gbroken false 0 (gbrokenBody 1 0 0 p)) s
  let s := chains.foldl (fun s c =>
    commitNow s h c .eor false 0 (natLe 8 1 ++ natLe 8 (getChain s h c).lost)) s
  let s := { s with evi := { s.evi with signer := s.evi.signer.filter (fun e => e.hub.val != h) } }
  if rdF s h R.BOOTSTAT 31 28 ≠ 0xF then s else manifest s h (manifestEntries s h) false

/-- A final stroke starts on every hub in service, unless one has started or the device is not running (R303,
R306, R307). -/
def startStroke (s : State) (cause : Nat) : State :=
  let hubs := (List.range 2).filter (fun h => hubInService s h && strokeOf s h == .none)
  if s.pwr.power ≠ .on || !s.pwr.porn || !s.pwr.warmn || hubs.length ≠ ((List.range 2).filter (hubInService s)).length then s else
  let s := { s with evi := { s.evi with cause := cause }, pwr := { s.pwr with power := .stroke, dryOk := false } }
  hubs.foldl (fun s h => strokeHub s h cause) s

/-- ECTL by P0: STROKE starts the final stroke, BORROW is kept. -/
def writeEctl (s : State) (m : Master) (h : Nat) (v : W32) : State :=
  if !(asP0 s m) then s else
  let s := writeCsaHeader (setCsr s h R.ECTL (v &&& 0x40000000)) h
  if fld v 31 31 = 1 then startStroke s 3 else settleBorrow s h

/-- PFAIL_N low for 100 ns (R303). -/
def execPfailN (s : State) : Out :=
  let s := if s.pwr.power = .off then s else { s with pwr := { s.pwr with pfail := true } }
  .next (startStroke s 1)
/-- ECTL_STROKE (R303). -/
def execEctlStroke (m : Master) (h : Hub) (v : W32) (s : State) : Out :=
  .next (if live s h.val then writeEctl s m h.val v else s)

/-! ## Frames of the mirror link (R311) -/

/-- Sizes of the peer's rings, from the CSA copy that hub h holds. -/
def peerRingSize (s : State) (h r : Nat) : Nat :=
  leNat (viewBytes s h (mirBase s h + 8 + 64 * r) 4) % 8192 * 0x100000

def setMirRx (s : State) (h : Nat) (v : W32) : State :=
  { s with evi := { s.evi with mir := { s.evi.mir with mirSeq := tset (fun _ => 0) s.evi.mir.mirSeq h v } } }
def setMirFail (s : State) (h n : Nat) : State :=
  { s with evi := { s.evi with mir := { s.evi.mir with mirFail := tset (fun _ => 0) s.evi.mir.mirFail h n } } }

/-- MIRROR_FRAME: hub h receives a frame on its mirror link. -/
def execMirrorFrame (h : Hub) (hdr : BitVec 256) (payload : Bytes) (s : State) : Out :=
  let h := h.val
  let b := natLe 32 hdr.toNat
  let exp := mirRxOf s h
  if !(live s h) || !(mirrorUp s h) || !(rdB s h R.MIRCTL 29) then .next s else
  if leAt b 28 4 ≠ (crc32c (b.take 28)).toNat || 5 < leAt b 0 1 then
    let n := tget (fun _ => 0) s.evi.mir.mirFail h + 1
    let s := bump (setMirFail s h n) h R.MIRCRC 31 0 1
    let s := journal s h evCtrlCheck false noPart (detail [(16, 1, 12)])
    let s := sendOnMirror s h (mirFrame 4 0 0 0 exp.toNat [])
    .next (if n < 16 then s else mirrorDown s h 3)
  else
    let num : W32 := BitVec.ofNat 32 (leAt b 4 4)
    let ack : W32 := BitVec.ofNat 32 (leAt b 16 4)
    let r := leAt b 1 1 % 4
    let off := leAt b 8 8
    let s := setMirFail s h 0
    match leAt b 0 1 with
    | 3 =>
      let l := mirOutOf s h
      let got := l.filter (fun f => decide ((ack - f.num).toNat < 0x80000000))
      let s := setMirOut s h (l.filter (fun f => !(decide ((ack - f.num).toNat < 0x80000000))))
      .next (got.foldl (fun s f => if f.stop = 0 then s else setMseq s h f.ring f.stop.toNat) s)
    | 4 =>
      .next (((mirOutOf s h).filter (fun f => decide ((f.num - ack).toNat < 0x80000000))).foldl
        (fun s f => sendOnMirror s h f.data) s)
    | 5 => .next s
    | ty =>
      if num ≠ exp then .next s else
      let done (s : State) : State := sendOnMirror (setMirRx s h (exp + 1)) h (mirFrame 3 r 0 0 exp.toNat [])
      if ty = 2 then .next (done (setPeerDseq s h r off)) else
      let sz := peerRingSize s h r
      let a := if ty = 1 then mirBase s h + off
        else mirBase s h + mirOffset (peerRingSize s h) r + (if sz = 0 then 0 else off % sz)
      match mwr s h none a payload with
      | (s, .ok) => .next (done (if ty = 0 then setPeerEnd s h r (off + payload.length) else s))
      | (s, _) => .next (journal s h evLaneDown false noPart (detail [(16, 1, 6)]))

/-! ## Adoption (R312) -/

/-- End of the last complete record of the peer's ring r mirrored here, walking from its DSEQ. -/
def mirroredEnd (s : State) (h r : Nat) : Nat → Nat → Nat
  | 0, pos => pos
  | fuel + 1, pos =>
    let stop := (tget (fun _ => 0) s.evi.mir.peerEnd (ringKey h r)).toNat
    let sz := peerRingSize s h r
    if stop ≤ pos || sz = 0 then pos else
    let hd := viewBytes s h (mirBase s h + mirOffset (peerRingSize s h) r + pos % sz) 64
    let n := recSize (leAt hd 32 4)
    if leAt hd 0 4 = 0x4E455652 && leAt hd 40 8 = pos && byteAt hd 59 = 0xC5 &&
        leAt hd 60 4 = (crc32c (hd.take 59)).toNat && pos + n ≤ stop then mirroredEnd s h r fuel (pos + n)
    else pos

/-- The peer's mirrored wet ink. -/
def peerWet (s : State) (h : Nat) : Nat :=
  (List.range 4).foldl (fun a r =>
    let d := (tget (fun _ => 0) s.evi.mir.peerDseq (ringKey h r)).toNat
    a + (mirroredEnd s h r (peerRingSize s h r / 64) d - d)) 0

/-- Chains that the CSA copy shows OPEN: number, H, n and ring of this hub for the records. -/
def peerChains (s : State) (h : Nat) : List (Nat × BitVec 256 × Nat × Nat × Nat) :=
  (List.range 1024).filterMap (fun c =>
    let b := viewBytes s h (mirBase s h + 4096 + 64 * c) 64
    if leAt b 60 4 = (crc32c (b.take 60)).toNat && leAt b 48 1 = 1 then
      let part := leAt b 50 1
      let r := ((List.range 4).find? (fun r => ringEn s h r && ringPart s h r == part)).getD 0
      some (c, of256 (b.take 32), leAt b 32 8, r, leAt b 52 2)
    else none)

/-- One closing record of an adopted chain, in ring r of the surviving hub; the chain's H and n after it. -/
def foreignRec (s : State) (h c r rid : Nat) (k : ReqKind) (foreign : Bool) (aux : Nat) (body : Bytes)
    (x : BitVec 256 × Nat) : State × BitVec 256 × Nat :=
  if ringFailed s h r || !(ringEn s h r) then (s, x) else
  let (s, q) := reserveAt s h r (recSize body.length)
  let hdr := recSeal (recHead s h k.code (if foreign then 2 else 0) c (x.2 + 1)
    (if rid = 0x7FF then 0 else rulPos s h rid) body.length rid q aux)
  match storeRec s h r q noChain hdr body with
  | (s, true) => (s, sha256 (be256 x.1 ++ hdr ++ body), x.2 + 1)
  | (s, false) => (s, x)

/-- Adopt the peer's mirrored ink: it counts against WETLIM and is dried; its OPEN chains are closed (R312). -/
def adopt (s : State) (h : Nat) (foreign : Bool) : State :=
  let n := peerWet s h
  let l := peerChains s h
  let s := { s with evi := { s.evi with mir := { s.evi.mir with
    adopted := tset (fun _ => 0) s.evi.mir.adopted h (adoptedInk s h + n) } } }
  let p := refPos s h
  let s := if l.isEmpty then s else evGuarantees s h 3 0
  let (s, entries) := l.foldl (fun (q : State × Bytes) e =>
    let (c, hv, n, r, rid) := e
    let s := journal q.1 h evSealGap false noPart (detail [(16, 2, c), (18, 1, 4)])
    let (s, x) := foreignRec s h c r rid .gap foreign 4 (zeros 24 ++ natLe 8 2) (hv, n)
    let (s, x) := foreignRec s h c r rid .gbroken foreign 0 (gbrokenBody 3 0 0 p) x
    let (s, x) := foreignRec s h c r rid .eor foreign 0 (natLe 8 3 ++ zeros 8) x
    (s, q.2 ++ manifestEntry c x.2 x.1)) (s, [])
  let s := manifest s h entries foreign
  (List.range 8).foldl (fun s t =>
    if rdB s h (R.TGT t) 31 && rdF s h (R.TGT t) 24 23 ≠ 2 && !(rdB s h (R.TGT t) 30) then dryAdopted s h t else s) s

/-- A hub takes part in mirroring: MIRCTL by P0 (R310, R312, R427). -/
def writeMirctl (s : State) (m : Master) (h : Nat) (v : W32) : State :=
  let old := csr s h R.MIRCTL
  let mode := fld v 29 29
  if !(asP0 s m) || (mode = 0 && !(hubOk s 1)) then s else
  let was := fld old 31 31 = 1
  let want := fld v 31 31 = 1
  let peer := (List.range 4).foldl (fun a r => a + rdF s (1 - h) (R.ERCTL r) 12 0 * rdF s (1 - h) (R.ERCTL r) 31 31) 0
  if !was && want && mode = 0 && rdF s h R.MIRSIZE 13 0 < peer + 1 then s else
  let st := if !want then 0 else if was then fld old 27 25 else if mode = 1 then 1 else if hubLinkOk s then 2 else 3
  let s := setCsr s h R.MIRCTL ((v &&& 0xA000001F) ||| BitVec.ofNat 32 (st * 2 ^ 25))
  if fld v 30 30 = 1 && mode = 1 then adopt s h true else s

/-- ADOPT (R312). -/
def execAdopt (m : Master) (h : Hub) (v : W32) (s : State) : Out :=
  .next (if serving s h.val then writeMirctl s m h.val v else s)

end Sys2Proof.Machine
end

