-- ==== Sys2Proof/Machine/Lanes.lean ====
section
/-! DEFINITION. Lanes, packet rings, the ingress classifier and the PCIe ports (R314 to R326). A frame is the bytes
from the destination address up to the FCS. -/
namespace Sys2Proof.Machine

/-! ## Lane groups (R314, R315) -/

/-- Lanes that lane n's mode takes. -/
def laneWidth (s : State) (h mode : Nat) : Nat :=
  match mode with
  | 5 => 2
  | 6 => 4
  | 7 => if rdB s h R.PCICFG 30 && rdB s h R.PCICFG 29 then 4 else 2 ^ rdF s h R.PCICFG 21 20
  | 8 => if rdB s h R.MIRCTL 4 then 4 else 2
  | _ => 1
/-- The first lane of the group that lane n is another member of. -/
def leadOf (s : State) (h n : Nat) : Option Nat :=
  (List.range n).find? (fun lo => rdB s h (R.LCTL lo) 31 && decide (n < lo + laneWidth s h (rdF s h (R.LCTL lo) 27 24)) &&
    rdF s h (R.LCTL n) 3 0 == 4)
/-- The first lane of lane n's MAC. -/
def macOf (s : State) (h n : Nat) : Nat := (leadOf s h n).getD n

/-- LCTL by P0. -/
def writeLctl (s : State) (m : Master) (h n : Nat) (v : W32) : State :=
  let old := csr s h (R.LCTL n)
  let mode := fld v 27 24
  let en := fld v 31 31 = 1
  let was := fld old 31 31 = 1
  let w := laneWidth s h mode
  if !(asP0 s m) || !(laneOk s h n) || 8 < mode then s else
  if (leadOf s h n).isSome && (fld v 31 31 ≠ fld old 31 31 || mode ≠ fld old 27 24) then s else
  if was && mode ≠ fld old 27 24 then s else
  if en && !was && 1 < w && (n % w ≠ 0 || partLanes s.part < n + w ||
      (List.range w).any (fun k => k ≠ 0 && rdB s h (R.LCTL (n + k)) 31)) then s else
  let ow := laneWidth s h (fld old 27 24)
  let st := if !en then 0 else if was then fld old 3 0 else if mode = 0 then 0 else 1
  let st := if (leadOf s h n).isSome then 4 else st
  let s := if was && !en then
      (List.range ow).foldl (fun s k => if k = 0 then s else wrF s h (R.LCTL (n + k)) 3 0 0) s else s
  let s := if en && !was then
      (List.range w).foldl (fun s k => if k = 0 then s else wrF s h (R.LCTL (n + k)) 3 0 4) s else s
  writeCsaHeader (setCsr s h (R.LCTL n) ((v &&& 0xFF700000) ||| BitVec.ofNat 32 st)) h

/-- LANE_ENABLE (R314). -/
def execLaneEnable (m : Master) (h : Hub) (lane : Fin 16) (v : W32) (s : State) : Out :=
  .next (if live s h.val then writeLctl s m h.val lane.val v else s)

/-! ## PCIe ports (R325, R326) -/

/-- The port that lane n leads. -/
def portOf (s : State) (h n : Nat) : Option Nat :=
  let base := rdF s h R.PCICFG 27 24
  if !(rdB s h R.PCICFG 31) then none else
  if n = base then some 0
  else if rdB s h R.PCICFG 30 && rdB s h R.PCICFG 29 && n = base + 4 then some 1 else none
def portRate (s : State) (h p : Nat) : Nat := rdF s h R.PCISTAT (8 + 4 * p + 3) (8 + 4 * p)
def portWid (s : State) (h p : Nat) : Nat := rdF s h R.PCISTAT (4 * p + 3) (4 * p)
def setPort (s : State) (h p rate wid : Nat) : State :=
  wrF (wrF s h R.PCISTAT (8 + 4 * p + 3) (8 + 4 * p) rate) h R.PCISTAT (4 * p + 3) (4 * p) wid
/-- The port's link is up. -/
def portUp (s : State) (h p : Nat) : Bool := rdB s h R.PCICFG 31 && portRate s h p ≠ 0xF && portWid s h p ≠ 0
def portPart (s : State) (h p : Nat) : Nat := if p = 0 then rdF s h R.PCICFG 10 8 else rdF s h R.PCICFG 14 12

/-- PCICFG by P0: the other fields are written only while EN is 0 (R427). -/
def writePcicfg (s : State) (m : Master) (h : Nat) (v : W32) : State :=
  let old := csr s h R.PCICFG
  let v := v &&& 0xEF377703
  if !(asP0 s m) then s else
  if fld old 31 31 = 1 && (v &&& 0x7FFFFFFF) ≠ (old &&& 0x7FFFFFFF) then s else
  let s := setCsr s h R.PCICFG v
  let s := if fld old 31 31 = 0 && fld v 31 31 = 1 then setPort (setPort s h 0 0xF 0) h 1 0xF 0
    else if fld v 31 31 = 0 then setCsr s h R.PCISTAT 0 else s
  writeCsaHeader s h

/-- LANE_TRAINING_DONE: a MAC, a PCIe port or the mirror link reports up, or down where training failed. -/
def execLaneTrainingDone (h : Hub) (lane : Fin 16) (ok : Bool) (rate width : BitVec 4) (s : State) : Out :=
  let h := h.val
  let n := lane.val
  if !(live s h) || !(laneOk s h n) || !(rdB s h (R.LCTL n) 31) || rdF s h (R.LCTL n) 3 0 ≠ 1 then .next s else
  let s' := wrF s h (R.LCTL n) 3 0 (if ok then 2 else 3)
  match rdF s h (R.LCTL n) 27 24 with
  | 7 =>
    match portOf s h n with
    | none => .next s
    | some p =>
      let w := width.toNat
      if !ok then .next (setPort s' h p 0xF 0)
      else if rate.toNat ≤ rdF s h R.PCICFG 1 0 && (w = 1 || w = 2 || w = 4 || w = 8) && w ≤ laneWidth s h 7 then
        .next (setPort s' h p rate.toNat w)
      else .next s
  | 8 => .next (if rdF s h R.MIRCTL 3 0 = n && rdB s h R.MIRCTL 31 && rdB s h R.MIRCTL 29 then
      wrF s' h R.MIRCTL 27 25 (if ok then 2 else 3) else s')
  | _ => .next s'

/-- LANE_LINK_DOWN: an Ethernet MAC loses its link. -/
def execLaneLinkDown (h : Hub) (lane : Fin 16) (s : State) : Out :=
  let n := lane.val
  if live s h.val && isMac s h.val n && rdF s h.val (R.LCTL n) 3 0 = 2 then
    .next (journal (wrF s h.val (R.LCTL n) 3 0 3) h.val evLaneDown false (rdF s h.val (R.LCTL n) 22 20)
      (detail [(16, 1, 1), (17, 1, n)]))
  else .next s

/-- Every NVMe target on a root port fails (R326). -/
def failPort (s : State) (h p : Nat) : State :=
  if !(rdB s h R.PCICFG 30) then s else
  (List.range 8).foldl (fun s t =>
    if rdB s h (R.TGT t) 31 && rdF s h (R.TGT t) 26 26 = p then failTarget s h t else s) s

/-- RPCMD ends with STAT. -/
def rpEnd (s : State) (h stat : Nat) : State := wrF (wrB s h R.RPCMD 30 false) h R.RPCMD 3 0 stat

/-- PCIE_LINK_DOWN (R326). -/
def execPcieLinkDown (h : Hub) (port : Fin 2) (s : State) : Out :=
  let h := h.val
  let p := port.val
  if !(live s h) || !(portUp s h p) then .next s else
  let s := journal (setPort s h p 0xF 0) h evLaneDown false noPart (detail [(16, 1, 2), (17, 1, p)])
  let s := wrF s h (R.LCTL ((rdF s h R.PCICFG 27 24 + 4 * p) % 16)) 3 0 3
  let s := if rdB s h R.RPCMD 30 && rdF s h R.RPCMD 24 24 = p then rpEnd s h 4 else s
  .next (failPort s h p)

/-- RPCMD by P0 or the port's owner; GO while BUSY issues nothing. -/
def writeRpcmd (s : State) (m : Master) (h : Nat) (v : W32) : State :=
  let p := fld v 24 24
  if rdB s h R.RPCMD 30 || !(asP0 s m || masterPart s m == portPart s h p) then s else
  let s := setCsr s h R.RPCMD ((v &&& 0x31000000) ||| (csr s h R.RPCMD &&& 0xF))
  if fld v 31 31 = 0 then s
  else if rdB s h R.PCICFG 30 && portUp s h p then wrB s h R.RPCMD 30 true
  else rpEnd s h 4

/-- RPCMD_ISSUE (R326). -/
def execRpcmdIssue (m : Master) (h : Hub) (v : W32) (s : State) : Out :=
  .next (if live s h.val then writeRpcmd s m h.val v else s)

/-- RPCMD_COMPLETE: done, Unsupported Request or Completer Abort; a read returns its data. -/
def execRpcmdComplete (h : Hub) (stat : BitVec 4) (data : W32) (s : State) : Out :=
  let h := h.val
  if !(live s h) || !(rdB s h R.RPCMD 30) || 2 < stat.toNat then .next s else
  let rd := rdF s h R.RPCMD 29 28 % 2 = 0
  let s := rpEnd s h stat.toNat
  .next (if rd && stat = 0 then setCsr s h R.RPDATA data else s)

/-- RPCMD_TIMEOUT (R326). -/
def execRpcmdTimeout (h : Hub) (s : State) : Out :=
  let h := h.val
  if !(live s h) || !(rdB s h R.RPCMD 30) then .next s else
  .next (failPort (rpEnd s h 3) h (rdF s h R.RPCMD 24 24))

/-- A channel of main memory that partition p owns holds the address (R326). -/
def ownsAddr (s : State) (p a : Nat) : Bool :=
  match region 0 a with
  | .main h k => rdB s h (R.PCFG p) k
  | _ => false

/-- INBOUND_REQUEST: a downstream device reads or writes `len` bytes; status 1 is Unsupported Request. -/
def execInboundRequest (h : Hub) (port : Fin 2) (write : Bool) (addr : BitVec 48) (len : BitVec 8) (data : Bytes)
    (s : State) : Out :=
  let h := h.val
  let p := portPart s h port.val
  let a := addr.toNat
  let n := len.toNat
  if !(live s h) || !(rdB s h R.PCICFG 30) || !(portUp s h port.val) || n = 0 then .next s else
  let refuse (s : State) : State := reply (bump s h R.RPUR 31 0 1) 1 0
  if !(ownsAddr s p a) || !(ownsAddr s p (a + n - 1)) then .next (refuse s) else
  if write then
    match mwr s h none a (sub data 0 n) with
    | (s, .ok) => .next (reply s 0 0)
    | (s, _) => .next (refuse s)
  else
    match mrd s h a n with
    | (s, .ok, b) => .next (reply s 0 (BitVec.ofNat 2048 (leNat b)))
    | (s, _, _) => .next (refuse s)

/-! ## Stamps and packet rings (R317) -/

/-- The stamp of a frame: the PTP position with the lane's signed correction, and whether it is valid. -/
def stamp (s : State) (h n : Nat) (tx : Bool) : W64 × Bool :=
  if !(rdB s h R.PTPCFG 31) then (0, false) else
  let c := (if tx then (csr s h (R.LTS n)).extractLsb' 16 16 else (csr s h (R.LTS n)).extractLsb' 0 16).toInt
  (ptpPos ((ptpNs (rulPos s h ridPtp) : Int) + c).toNat, true)

/-- Registers of a lane's receive or transmit ring. -/
structure RingRegs where
  lo : Nat
  hi : Nat
  ctl : Nat
  head : Nat

def rxRegs (n : Nat) : RingRegs := ⟨R.RXBASELO n, R.RXBASEHI n, R.RXSIZE n, R.RXHEAD n⟩
def txRegs (n : Nat) : RingRegs := ⟨R.TXBASELO n, R.TXBASEHI n, R.TXSIZE n, R.TXHEAD n⟩

/-- Address of the descriptor at the ring's head. -/
def descAddr (s : State) (h : Nat) (g : RingRegs) : Nat :=
  rdF s h g.hi 15 0 * 2 ^ 32 + (csr s h g.lo).toNat / 32 * 32 + 32 * rdF s h g.head 11 0
/-- The ring stops: its check failed, or its descriptor could not be read (R317, R429). -/
def ringStop (s : State) (h n : Nat) (g : RingRegs) : State :=
  journal (wrB s h g.ctl 31 false) h evCtrlCheck false (rdF s h (R.LCTL n) 22 20)
    (detail [(16, 1, 9), (17, 1, 1), (23, 8, n)])
/-- The descriptor at the head, checked; none after the ring has stopped. -/
def takeDesc (s : State) (h n : Nat) (g : RingRegs) : State × Option Bytes :=
  match mrd s h (descAddr s h g) 32 with
  | (s, .ok, b) => if byteAt b 31 = crc8 (b.take 31).reverse then (s, some b) else (ringStop s h n g, none)
  | (s, _, _) => (ringStop s h n g, none)
/-- A descriptor as returned to firmware. -/
def backDesc (addr len flags prio : Nat) (st : W64) : Bytes :=
  let b := natLe 6 addr ++ zeros 2 ++ natLe 2 len ++ natLe 1 flags ++ natLe 1 prio ++ zeros 4 ++ natLe 8 st.toNat ++ zeros 7
  b ++ [crc8 b.reverse]
def nextHead (s : State) (h : Nat) (g : RingRegs) : State :=
  wrF s h g.head 11 0 ((rdF s h g.head 11 0 + 1) % max 1 (rdF s h g.ctl 12 0))

/-- A frame for the receive ring of the MAC at lane n. -/
def ringStore (s : State) (h n : Nat) (frame : Bytes) (st : W64 × Bool) : State :=
  let g := rxRegs n
  let drop (s : State) : State := bump s h (R.RXDROP n) 31 0 1
  if !(rdB s h g.ctl 31) then drop s else
  match takeDesc s h n g with
  | (s, none) => drop s
  | (s, some d) =>
    if leAt d 10 1 % 2 = 0 then drop s else
    let size := leAt d 8 2
    let cut := decide (size < frame.length)
    match mwr s h none (leAt d 0 6) (frame.take size) with
    | (s, .ok) =>
      let back := backDesc (leAt d 0 6) frame.length (2 * b2n st.2 + 8 * b2n cut) (leAt d 11 1) st.1
      match mwr s h none (descAddr s h g) back with
      | (s, .ok) => nextHead s h g
      | (s, _) => drop s
    | (s, _) => drop s

/-- FRAME_TRANSMIT: the descriptor at the head is sent, unless its priority is paused (R317, R318). -/
def execFrameTransmit (h : Hub) (lane : Fin 16) (s : State) : Out :=
  let h := h.val
  let n := lane.val
  let g := txRegs n
  if !(live s h) || !(isMac s h n) || rdF s h (R.LCTL n) 3 0 ≠ 2 || !(rdB s h g.ctl 31) then .next s else
  match takeDesc s h n g with
  | (s, none) => .next s
  | (s, some d) =>
    let prio := leAt d 11 1 % 8
    if leAt d 10 1 % 2 = 0 || (tget (fun _ => (0 : Byte)) s.lan.paused (16 * h + n)).getLsbD prio then .next s else
    let tsreq := leAt d 10 1 / 4 % 2 = 1
    let st := if tsreq then stamp s h n true else (0, false)
    match mrd s h (leAt d 0 6) (leAt d 8 2) with
    | (s, .ok, b) =>
      let back := backDesc (leAt d 0 6) (leAt d 8 2) (2 * b2n st.2 + 4 * b2n tsreq) (leAt d 11 1) st.1
      let (s, _) := mwr s h none (descAddr s h g) back
      .next (nextHead { s with lan := { s.lan with sent := (16 * h + n, b) :: s.lan.sent } } h g)
    | (s, _, _) => .next (ringStop s h n g)

/-! ## Priority flow control -/

/-- PFC_XOFF_REPEAT (R318). -/
def execPfcXoffRepeat (h : Hub) (lane : Fin 16) (s : State) : Out :=
  .next (if live s h.val && xoffNow s h.val && pacesE s h.val lane.val then sendPfc s h.val lane.val 0xFFFF else s)

def pausedOf (s : State) (h n : Nat) : Byte := tget (fun _ => 0) s.lan.paused (16 * h + n)
def setPaused (s : State) (h n : Nat) (v : Byte) : State :=
  { s with lan := { s.lan with paused := tset (fun _ => 0) s.lan.paused (16 * h + n) v } }

/-- PFC_PAUSE_EXPIRY (R318). -/
def execPfcPauseExpiry (h : Hub) (lane : Fin 16) (prio : Fin 8) (s : State) : Out :=
  .next (if live s h.val then
    setPaused s h.val lane.val (pausedOf s h.val lane.val &&& ~~~((1 : Byte) <<< prio.val)) else s)

/-- A received MAC control frame: PFC stops or restarts the honoured priorities; the rest is counted. -/
def macControl (s : State) (h n : Nat) (f : Bytes) : State :=
  if beNat (sub f 14 2) ≠ 0x0101 then bump s h (R.RXPAUSE n) 31 0 1 else
  let cev := beNat (sub f 16 2) % 256
  let mask := if rdB s h (R.PFC n) 31 then rdF s h (R.PFC n) 23 16 else 0
  let p := (List.range 8).foldl (fun (p : Byte) k =>
    if cev / 2 ^ k % 2 = 1 && mask / 2 ^ k % 2 = 1 then
      if beNat (sub f (18 + 2 * k) 2) = 0 then p &&& ~~~((1 : Byte) <<< k) else p ||| ((1 : Byte) <<< k)
    else p) (pausedOf s h n)
  let s := setPaused s h n p
  if (List.range 8).any (fun k => cev / 2 ^ k % 2 == 1 && mask / 2 ^ k % 2 == 0) then bump s h (R.RXPAUSE n) 31 0 1 else s

/-! ## Packets (R316, R321) -/

/-- A packet's key and its bytes from the RTP header on. -/
structure Packet where
  v6 : Bool
  src : Bytes
  dst : Bytes
  sport : Nat
  dport : Nat
  rtp : Bytes

def Packet.ssrc (p : Packet) : Nat := beNat (sub p.rtp 8 4)
def Packet.ts (p : Packet) : W32 := BitVec.ofNat 32 (beNat (sub p.rtp 4 4))
def Packet.marker (p : Packet) : Bool := (byteAt p.rtp 1).getLsbD 7
/-- The RTP payload, after the contributing sources and the header extension. -/
def Packet.payload (p : Packet) : Bytes :=
  let n := 12 + 4 * ((byteAt p.rtp 0).toNat % 16)
  let n := if (byteAt p.rtp 0).getLsbD 4 then n + 4 + 4 * beNat (sub p.rtp (n + 2) 2) else n
  p.rtp.drop n

/-- Number of VLAN tags, and where the EtherType lies. -/
def vlanTags (f : Bytes) : Nat × Nat :=
  let tag (i : Nat) : Bool := beNat (sub f i 2) == 0x8100 || beNat (sub f i 2) == 0x88A8
  if !(tag 12) then (0, 12) else if !(tag 16) then (1, 16) else (2, 20)

/-- IPv4 header checksum (R316). -/
def ipSum (b : Bytes) : Nat :=
  let t := (List.range (b.length / 2)).foldl (fun a i => a + beNat (sub b (2 * i) 2)) 0
  let t := t % 0x10000 + t / 0x10000
  t % 0x10000 + t / 0x10000
/-- An IPv4 frame whose header checksum fails. -/
def badIp (f : Bytes) : Bool :=
  let o := (vlanTags f).2
  beNat (sub f o 2) == 0x0800 && ipSum (sub f (o + 2) (4 * ((byteAt f (o + 2)).toNat % 16))) != 0xFFFF

/-- The packet of a frame that could match the stream table. -/
def parse (f : Bytes) : Option Packet :=
  let (tags, o) := vlanTags f
  let ip := o + 2
  if 1 < tags then none else
  let udp (v6 : Bool) (src dst : Bytes) (u : Nat) : Option Packet :=
    let p : Packet := { v6 := v6, src := src, dst := dst, sport := beNat (sub f u 2), dport := beNat (sub f (u + 2) 2),
                        rtp := sub f (u + 8) (min (beNat (sub f (u + 4) 2)) (f.length - u) - 8) }
    if p.rtp.length < 12 then none else some p
  if beNat (sub f o 2) = 0x0800 then
    let frag := beNat (sub f (ip + 6) 2) % 0x4000
    if byteAt f (ip + 9) ≠ 17 || frag ≠ 0 then none
    else udp false (sub f (ip + 12) 4 ++ zeros 12) (sub f (ip + 16) 4 ++ zeros 12) (ip + 4 * ((byteAt f ip).toNat % 16))
  else if beNat (sub f o 2) = 0x86DD then
    if byteAt f (ip + 6) ≠ 17 then none
    else udp true (sub f (ip + 8) 16) (sub f (ip + 24) 16) (ip + 40)
  else none

/-! ## The stream table (R319 to R321) -/

def streamKey (h half i : Nat) : Nat := 2048 * h + 1024 * half + i
def streamsOf (s : State) (h : Nat) : List (Nat × Bytes) :=
  s.lan.streams.filterMap (fun e => if e.1 / 2048 = h then e.2.map (fun b => (e.1, b)) else none)
def setStream (s : State) (k : Nat) (v : Option Bytes) : State :=
  { s with lan := { s.lan with streams := tset (fun _ => none) s.lan.streams k v, asm := tset (fun _ => none) s.lan.asm k none } }

/-- Fields of an entry. -/
def eAny (e : Bytes) : Bool := (byteAt e 40).getLsbD 1
def eV6 (e : Bytes) : Bool := (byteAt e 40).getLsbD 0
def eFmt (e : Bytes) : Nat := leAt e 41 1
def eAct (e : Bytes) (b : Nat) : Bool := (byteAt e 42).getLsbD b
def eRid (e : Bytes) : Nat := leAt e 44 2
def eChain (e : Bytes) : Nat := leAt e 46 2
def eLch (e : Bytes) : Nat := leAt e 48 1
def ePart (e : Bytes) : Nat := leAt e 49 1
def eMask (e : Bytes) : Nat := leAt e 50 2

/-- Two entries could match one packet with equal precedence. -/
def sameKey (a b : Bytes) : Bool :=
  eV6 a == eV6 b && sub a 0 36 == sub b 0 36 && eAny a == eAny b && (eAny a || sub a 36 4 == sub b 36 4) &&
  (BitVec.ofNat 16 (eMask a) &&& BitVec.ofNat 16 (eMask b)) != 0

/-- Fields in range (status 2). -/
def entryOk (s : State) (half : Nat) (e : Bytes) : Bool :=
  let lanes := (2 ^ partLanes s.part - 1) / 2 ^ (8 * half) % 256 * 2 ^ (8 * half)
  decide (leAt e 40 1 < 4) && decide (eFmt e ≤ 4) && leAt e 42 1 != 0 && decide (leAt e 42 1 < 8) &&
  decide (leAt e 43 1 ≤ 5) && (decide (eRid e < 0x400) || eRid e == 0x7FF) &&
  (decide (eChain e < 1024) || eChain e == 0xFFFF) && decide (eLch e < 64) && decide (ePart e < 8) &&
  decide (1 ≤ leAt e 52 2) && decide (leAt e 52 2 ≤ 8192) && (sub e 54 9).all (· == 0) &&
  (eV6 e || ((sub e 4 12).all (· == 0) && (sub e 20 12).all (· == 0))) &&
  (BitVec.ofNat 16 (eMask e) &&& ~~~(BitVec.ofNat 16 lanes)) == 0

/-- Referents fit (status 4). -/
def entryRefs (s : State) (h half : Nat) (e : Bytes) : Bool :=
  let c := getChain s h (eChain e)
  let ch := eLch e
  (eRid e == 0x7FF || (rdF s h (R.RCFG (eRid e)) 30 28 == (if eFmt e = 4 then 5 else eFmt e) &&
    rdF s h (R.RCFG (eRid e)) 27 25 == ePart e)) &&
  (!(eAct e 0) || (eFmt e == 0 && reservoirIn s h ch half && rdF s h (R.LCH ch) 28 26 == ePart e)) &&
  (!(eAct e 1) || (decide (eChain e < 1024) && c.state == .opened && c.src1 && c.rid == eRid e && c.part == ePart e)) &&
  (eChain e == 0xFFFF || c.state == .free || c.part == ePart e)

/-- Load an entry: its status (R320). -/
def streamLoad (s : State) (h half i : Nat) : State × Nat :=
  let a := rdF s h (R.STBASEHI half) 15 0 * 2 ^ 32 + (csr s h (R.STBASELO half)).toNat / 64 * 64 + 64 * i
  let (s, st, e) := mrd s h a 64
  if st ≠ .ok || byteAt e 63 ≠ crc8 (e.take 63).reverse then
    (journal s h evCtrlCheck false noPart (detail [(16, 1, 6), (17, 1, 1), (23, 8, a)]), 1)
  else if !(entryOk s half e) then (s, 2)
  else if (streamsOf s h).any (fun o => o.1 != streamKey h half i && sameKey o.2 e) then (s, 3)
  else if !(entryRefs s h half e) then (s, 4)
  else
    let s := setStream s (streamKey h half i) (some e)
    (if eAct e 1 then updChain s h (eChain e) (fun x => { x with half := half }) else s, 0)

/-- STCTL by P0: START performs OP. -/
def writeStctl (s : State) (m : Master) (h half : Nat) (v : W32) : State :=
  if !(asP0 s m) then s else
  let s := setCsr s h (R.STCTL half) ((v &&& 0x33FF0000) ||| (csr s h (R.STCTL half) &&& 0xF))
  if fld v 31 31 = 0 then s else
  match fld v 29 28 with
  | 1 =>
    let (s, st) := streamLoad s h half (fld v 25 16)
    wrF s h (R.STCTL half) 3 0 st
  | 2 => wrF (setStream s (streamKey h half (fld v 25 16)) none) h (R.STCTL half) 3 0 0
  | _ => s

/-- STREAM_LOAD (R320). -/
def execStreamLoad (m : Master) (h : Hub) (half : Fin 2) (v : W32) (s : State) : Out :=
  .next (if live s h.val then writeStctl s m h.val half.val v else s)
/-- STREAM_REMOVE (R320). -/
def execStreamRemove (m : Master) (h : Hub) (half : Fin 2) (v : W32) (s : State) : Out :=
  .next (if live s h.val then writeStctl s m h.val half.val v else s)

/-- The entry that applies to a packet: the one that names its SSRC before one with ANYSSRC (R321). -/
def matchStream (s : State) (h lane : Nat) (p : Packet) : Option (Nat × Bytes) :=
  let fits (e : Nat × Bytes) : Bool :=
    e.1 / 1024 % 2 == lane / 8 && eMask e.2 / 2 ^ lane % 2 == 1 && eV6 e.2 == p.v6 && sub e.2 0 16 == p.src &&
    sub e.2 16 16 == p.dst && leAt e.2 32 2 == p.sport && leAt e.2 34 2 == p.dport
  let l := (streamsOf s h).filter fits
  match l.find? (fun e => !(eAny e.2) && leAt e.2 36 4 == p.ssrc) with
  | some e => some e
  | none => l.find? (fun e => eAny e.2)

/-! ## Payload formats (R36, R323) -/

/-- A sample-row segment of RFC 4175: field bit, row, offset and data bytes. -/
structure Seg where
  field : Nat
  row : Nat
  off : Nat
  data : Bytes

/-- Row headers of the payload, then the segments' data in the same order. -/
def segHeads (b : Bytes) : Nat → Nat → List (Nat × Nat × Nat × Nat) → List (Nat × Nat × Nat × Nat) × Nat
  | 0, i, l => (l, i)
  | fuel + 1, i, l =>
    if b.length < i + 6 then (l, i) else
    let w := beNat (sub b (i + 2) 2)
    let o := beNat (sub b (i + 4) 2)
    let l := l ++ [(beNat (sub b i 2), w / 0x8000, w % 0x8000, o % 0x8000)]
    if o / 0x8000 = 1 then segHeads b fuel (i + 6) l else (l, i + 6)
def segments (p : Bytes) : List Seg :=
  let (hs, i) := segHeads p (p.length / 6) 2 []
  (hs.foldl (fun (q : List Seg × Nat) e =>
    (q.1 ++ [{ field := e.2.1, row := e.2.2.1, off := e.2.2.2, data := sub p q.2 (min e.1 (p.length - q.2)) }], q.2 + e.1))
    ([], i)).1

/-- Bits per component of UNPK. -/
def compBits (unpk : Nat) : Nat := match unpk with | 2 => 10 | 3 => 12 | 5 => 10 | _ => 8
/-- Word width of UNPK (R323). -/
def unpkWidth (unpk : Nat) : Nat := match unpk with | 0 => 8 | 1 => 16 | 2 => 20 | 3 => 24 | 4 => 24 | _ => 30

/-- Components of a segment: d bits each, highest bit first. -/
def components (d : Nat) (b : Bytes) : List Nat :=
  let n := 8 * b.length / d
  let v := beNat b
  (List.range n).map (fun i => v / 2 ^ (8 * b.length - d * (i + 1)) % 2 ^ d)

/-- Pixel words of a segment. -/
def pixelWords (unpk : Nat) (b : Bytes) : List W32 :=
  let d := compBits unpk
  let c := components d b
  let at0 (i : Nat) : Nat := c.getD i 0
  if unpk = 0 then b.map (fun x => x.setWidth 32)
  else if unpk ≤ 3 then
    (List.range (c.length / 4)).flatMap (fun k =>
      [BitVec.ofNat 32 (at0 (4 * k + 1) + at0 (4 * k) * 2 ^ d), BitVec.ofNat 32 (at0 (4 * k + 3) + at0 (4 * k + 2) * 2 ^ d)])
  else (List.range (c.length / 3)).map (fun k =>
    BitVec.ofNat 32 (at0 (3 * k) + at0 (3 * k + 1) * 2 ^ d + at0 (3 * k + 2) * 2 ^ (2 * d)))

/-- Line of a row of a stream (R36): 2r + F for an interlaced one. -/
def rowLine (s : State) (h rid : Nat) (g : Seg) : Nat :=
  if rid ≠ 0x7FF && rdB s h (R.RCFG rid) 24 then 2 * g.row + g.field else g.row

/-- The advance that a packet presents for ruling rid (R36). -/
def packetAdvance (s : State) (h rid : Nat) (p : Packet) : Advance :=
  let line := match rdF s h (R.RCFG rid) 30 28 with
    | 0 => ((segments p.payload).map (rowLine s h rid)).foldl (fun (b : Option Nat) l => some (max l (b.getD 0))) none
    | 1 =>
      let w := beNat (sub p.payload 0 4)
      if w / 2 ^ 30 % 2 = 1 && w % 2 ^ 11 = 0 then some (w / 2 ^ 11 % 2 ^ 11 * rdF s h (R.RCFG rid) 23 14) else none
    | _ => none
  .packet rid p.ts line p.marker

/-! ## Runs (R323, R324) -/

def asmOf (s : State) (k : Nat) : Option Asm := tget (fun _ => none) s.lan.asm k
def setAsm (s : State) (k : Nat) (a : Option Asm) : State :=
  { s with lan := { s.lan with asm := tset (fun _ => none) s.lan.asm k a } }

/-- Pixels of run k of a line of `width` pixels. -/
def runLen (width k : Nat) : Nat := min 128 (width - 128 * k)
def runCount (width : Nat) : Nat := (width + 127) / 128

/-- Emit run k of the line; false when its channel holds NSLOT runs. -/
def emitRun (s : State) (h half : Nat) (e : Bytes) (a : Asm) : State × Bool :=
  let width := leAt e 52 2
  let k := a.run
  let n := runLen width k
  let w := unpkWidth (leAt e 43 1)
  let px (i : Nat) : Option W32 := tget (fun _ => none) a.px (128 * k + i)
  let whole := (List.range n).all (fun i => (px i).isSome)
  let v := (List.range n).foldl (fun v i => v + (((px i).getD 0).toNat % 2 ^ w) * 2 ^ (i * w)) 0
  let c := eLch e
  let wr := csr s h (R.LCHWR c)
  if !(rdB s h (R.LCH c) 31) || rdF s h (R.LCHNSLOT c) 16 0 ≤ (wr - csr s h (R.LCHRD c)).toNat then (s, false) else
  match slotWrite s h c wr.toNat (natLe 512 v) with
  | (s, true) =>
    let s := if whole then s else bump s h (R.STPART half) 31 0 1
    (setCsr s h (R.LCHWR c) (wr + 1), true)
  | (s, false) => (s, false)

/-- Emit the runs of the line that are complete, in order; all that are left when `all`. False when one was lost. -/
def emitRuns (s : State) (h half k : Nat) (e : Bytes) (all : Bool) : Nat → State × Bool
  | 0 => (s, true)
  | fuel + 1 =>
    match asmOf s k with
    | none => (s, true)
    | some a =>
      let width := leAt e 52 2
      if runCount width ≤ a.run then (s, true) else
      let whole := (List.range (runLen width a.run)).all (fun i => (tget (fun _ => none) a.px (128 * a.run + i)).isSome)
      if !(all || whole) then (s, true) else
      let (s, ok) := emitRun s h half e a
      let (s, ok2) := emitRuns (setAsm s k (some { a with run := a.run + 1 })) h half k e all fuel
      (s, ok && ok2)

/-- Pixels of one row of a packet. -/
def addRow (s : State) (h half k : Nat) (e : Bytes) (ts : W32) (g : Seg) : State × Bool :=
  let width := leAt e 52 2
  let fuel := runCount width + 1
  let line := rowLine s h (eRid e) g
  let late (s : State) : State × Bool := (bump s h (R.STLATE half) 31 0 1, true)
  let put (s : State) (a : Asm) : State × Bool :=
    let ws := pixelWords (leAt e 43 1) g.data
    let q := ws.foldl (fun (q : Tab (Option W32) × Nat × Bool) w =>
      let i := g.off + q.2.1
      if width ≤ i then (q.1, q.2.1 + 1, q.2.2)
      else if i / 128 < a.run then (q.1, q.2.1 + 1, true)
      else (tset (fun _ => none) q.1 i (some w), q.2.1 + 1, q.2.2)) (a.px, 0, false)
    let s := setAsm s k (some { a with px := q.1 })
    emitRuns (if q.2.2 then bump s h (R.STLATE half) 31 0 1 else s) h half k e false fuel
  let fresh (s : State) : State × Bool := put s { ts := ts, line := line, run := 0, px := [] }
  match asmOf s k with
  | none => fresh s
  | some a =>
    let d := (ts - a.ts).toNat
    if (d = 0 && line < a.line) || 0x80000000 ≤ d then late s
    else if d = 0 && line = a.line then put s a
    else
      let (s, ok) := emitRuns s h half k e true fuel
      let (s, ok2) := fresh s
      (s, ok && ok2)

/-- ARRAY of a packet: false when the reservoir was full for a run that it completed. -/
def unpackPacket (s : State) (h half k : Nat) (e : Bytes) (p : Packet) : State × Bool :=
  let l := sortKey (rowLine s h (eRid e)) (segments p.payload)
  let (s, ok) := l.foldl (fun (q : State × Bool) g =>
    let (s, ok) := addRow q.1 h half k e p.ts g
    (s, q.2 && ok)) (s, true)
  if p.marker then
    let (s, ok2) := emitRuns s h half k e true (runCount (leAt e 52 2) + 1)
    (s, ok && ok2)
  else (s, ok)

/-! ## Bands from ingress (R288) -/

/-- The open band of chain c closes and waits for its ring. -/
def closeBand (s : State) (h c : Nat) (pos : W64) : State :=
  let x := getChain s h c
  if x.band.isEmpty then s else
  let s := setChain s h c { x with band := [] }
  if ringFailed s h x.ring then s else
  setRingQ s h x.ring (ringQ s h x.ring ++
    [{ kind := .band, chain := c, body := x.band, pos := pos, aux := 0, foreign := false, adv := none, srcAddr := 0,
       len := x.band.length, tok := none, n := 0, seq := 0, badsrc := false }])

/-- The advance of a packet, seen from the position that earlier packets have ordered: the position before it, the
one after it, and whether it advances the frame. -/
def advanceView (s : State) (h rid : Nat) (p : Packet) : W64 × W64 × Bool :=
  if rid = 0x7FF then (0, 0, false) else
  let t := (advOf s h).foldl (fun s a => applyAdvance s h a) s
  let cur := tget (fun _ => none) t.rul.rtp (2048 * h + rid)
  let u := applyAdvance t h (packetAdvance s h rid p)
  (rulPos t h rid, rulPos u h rid, cur.isSome && tget (fun _ => none) u.rul.rtp (2048 * h + rid) != cur)

/-- SEAL of a packet: false when its band data does not fit in the pool (R288, R324). -/
def sealPacket (s : State) (h half lane : Nat) (e : Bytes) (p : Packet) (st : W64) : State × Bool :=
  let c := eChain e
  let x := getChain s h c
  if x.state ≠ .opened || !x.src1 then (s, true) else
  let (pos, pos', frame) := advanceView s h (eRid e) p
  let data := natLe 8 st.toNat ++ natLe 2 p.rtp.length ++ natLe 1 lane ++ zeros 5 ++ p.rtp
  let s := if frame then closeBand s h c pos else s
  let s := if x.bandmax < (getChain s h c).band.length + data.length then closeBand s h c pos else s
  if rdF s h (R.RSVBAND half) 14 0 * 1024 < bandBytes s h half + data.length then (s, false) else
  let s := updChain s h c (fun x => { x with band := x.band ++ data })
  let last := eRid e ≠ 0x7FF && pos' ≠ pos && lineOf pos' = frameLines s h (eRid e)
  (if last then closeBand s h c pos'
   else if x.bandmax < (getChain s h c).band.length then closeBand s h c pos else s, true)

/-- The loss of a packet at a full reservoir starts or goes on, or is over (R301 cause 0x02, R302). -/
def noteDrop (s : State) (h c part : Nat) (dropped : Bool) : State :=
  if c = 0xFFFF || partPlane s h part ≠ 0 then s else
  let s := if dropped then bump s h R.RSVDROP 31 0 1 else s
  let x := getChain s h c
  match x.broken, dropped with
  | none, true =>
    let p := refPos s h
    let s := evGuarantees (setChain s h c { x with broken := some (1, p) }) h 2 0
    askRecord s h c .gbroken 0 (gbrokenBody 2 0 0 p)
  | some (n, p), true => setChain s h c { x with broken := some (n + 1, p) }
  | some (n, p), false =>
    let s := evGuarantees (setChain s h c { x with broken := none }) h 2 1
    askRecord s h c .gbroken 0 (gbrokenBody 2 1 n p)
  | none, false => s

/-- A matched packet: SEAL, ARRAY, RING, then the advance (R322). -/
def classify (s : State) (h lane k : Nat) (e frame : Bytes) (p : Packet) (st : W64 × Bool) : State :=
  let half := lane / 8
  let (s, ok1) := if eAct e 1 then sealPacket s h half lane e p st.1 else (s, true)
  let (s, ok2) := if eAct e 0 then unpackPacket s h half k e p else (s, true)
  let s := if ok1 then s else bump s h (R.CLSDROP half) 31 0 1
  let s := if ok2 then s else bump s h (R.CLSDROP half) 31 0 1
  let s := if eAct e 0 || eAct e 1 then noteDrop s h (eChain e) (ePart e) (!(ok1 && ok2)) else s
  let s := if eAct e 2 then ringStore s h lane frame st else s
  if eRid e = 0x7FF then s else present s h (packetAdvance s h (eRid e) p)

/-- FRAME_RECEIVE: a frame arrives at a MAC (R316 to R318, R322). -/
def execFrameReceive (h : Hub) (lane : Fin 16) (fcsOk : Bool) (frame : Bytes) (s : State) : Out :=
  let h := h.val
  let n := macOf s h lane.val
  if !(serving s h) || !(isMac s h n) || rdF s h (R.LCTL n) 3 0 ≠ 2 then .next s else
  if !fcsOk || 9216 < frame.length + 4 || frame.length + 4 < 64 || badIp frame then
    .next (bump s h (R.RXERR n) 31 0 1) else
  if beNat (sub frame 12 2) = 0x8808 then .next (macControl s h n frame) else
  let st := stamp s h n false
  match parse frame with
  | none => .next (ringStore s h n frame st)
  | some p =>
    match matchStream s h n p with
    | none => .next (ringStore s h n frame st)
    | some (k, e) => .next (settleXoff (classify s h n k e frame p st) h)

end Sys2Proof.Machine
end

