-- ==== Sys2Proof/Machine/Fabric.lean ====
section
/-! DEFINITION. The programmable logic fabric: configuration images and the loader, region states, long-line
contention, fabric ports, block memories and user I/O (R333 to R352). -/
namespace Sys2Proof.Machine

/-! ## Regions (R348) -/

def frUNLOADED : Nat := 0
def frLOADING : Nat := 1
def frHELD : Nat := 2
def frRUNNING : Nat := 3
def frFENCED : Nat := 4

/-- FREG.STATE of region r. -/
def regionState (s : State) (h r : Nat) : Nat := rdF s h (R.FREG r) 2 0
def setRegion (s : State) (h r st : Nat) : State := wrF s h (R.FREG r) 2 0 st
/-- The regions of a mask. -/
def maskRegions (m : Nat) : List Nat := (List.range 16).filter (fun r => m / 2 ^ r % 2 == 1)

/-- The fabric is fenced by NREG[4] (R249, R346). -/
def fabricFenced (s : State) (h : Nat) : Bool := rdB s h (R.NREG 4) 30
/-- The fabric's power is off, or on its way there or back (R257). -/
def fabricOff (s : State) (h : Nat) : Bool :=
  !(rdB s h (R.NREG 4) 29) || domOf s (domIx h .fabric) != .on

/-! ## Images (R344, R345) -/

/-- Most frames an image can hold without repeating an address. -/
def maxFrames : Nat := 23697

/-- One frame: address word and data. -/
structure FFrame where
  addr : Nat
  data : Bytes
  crcOk : Bool
  deriving DecidableEq, Repr

def FFrame.ty (f : FFrame) : Nat := f.addr / 2 ^ 28
def FFrame.region (f : FFrame) : Nat := f.addr / 2 ^ 24 % 16
def FFrame.index (f : FFrame) : Nat := f.addr / 2 ^ 12 % 2 ^ 12

/-- Indices a TYPE has; `0` for the reserved ones. -/
def frameIndices (ty : Nat) : Nat :=
  match ty with
  | 1 => 512
  | 2 => 384
  | 3 => 8
  | 4 => 576
  | 5 => 1
  | 6 => 1
  | _ => 0

/-- A frame's address has no reserved TYPE, no INDEX beyond its TYPE and no bit set that must be zero. -/
def frameAddrOk (f : FFrame) : Bool :=
  decide (f.index < frameIndices f.ty) && f.addr % 2 ^ 12 == 0 && (f.ty != 6 || f.region == 0)

/-- Bits [15:8] of the six pin words of an IO frame are zero (R340). -/
def ioFrameOk (f : FFrame) : Bool :=
  f.ty != 5 || (List.range 6).all (fun i => byteAt f.data (2 * i + 1) == 0)

/-- Read the F frames that follow the header, or none when a read fails. -/
def readFrames (s : State) (h a : Nat) : Nat → State × Option (List FFrame)
  | 0 => (s, some [])
  | n + 1 =>
    match mrd s h a 136 with
    | (s, .ok, b) =>
      match readFrames s h (a + 136) n with
      | (s, some l) =>
        (s, some ({ addr := leAt b 0 4, data := sub b 4 128,
                    crcOk := (crc32c (b.take 132)).toNat == leAt b 132 4 } :: l))
      | r => r
    | (s, _, _) => (s, none)

/-- The image header's fields. -/
structure FHead where
  kind : Nat
  mask : Nat
  count : Nat
  ok   : Bool
  deriving DecidableEq, Repr

def parseHead (b : Bytes) : FHead :=
  { kind := leAt b 4 1, mask := leAt b 6 2, count := leAt b 8 4,
    ok := leAt b 0 4 == 0x4E464731 && decide (leAt b 4 1 ≤ 1) && leAt b 5 1 == 0 && leAt b 12 52 == 0 &&
      decide (leAt b 8 4 ≤ maxFrames) }

/-- R345: regions in the mask, no address twice, every named region whole, the CLOCK frame by the image's kind. -/
def wellFormedImage (hd : FHead) (l : List FFrame) : Bool :=
  l.all (fun f => f.ty == 6 || (maskRegions hd.mask).contains f.region) &&
  decide ((l.map FFrame.addr).eraseDups.length = l.length) &&
  (maskRegions hd.mask).all (fun r =>
    decide ((l.filter (fun f => f.region == r && (f.ty == 1 || f.ty == 2 || f.ty == 3 || f.ty == 5))).length = 905)) &&
  (if hd.kind = 0 then hd.mask == 0xFFFF && (l.filter (fun f => f.ty == 6)).length == 1
   else l.all (fun f => f.ty != 6))

/-- Read and check an image in the order of the loader's table (R346). The bits of an LLINE frame are not given, so
whether an image breaks the drivers' check is left open. -/
def checkImage (s : State) (h a : Nat) : State × Nat × Option (FHead × List FFrame) :=
  match mrd s h a 64 with
  | (s, .ok, b) =>
    let hd := parseHead b
    if !hd.ok then (s, 3, none) else
    match readFrames s h (a + 64) hd.count with
    | (s, none) => (s, 7, none)
    | (s, some l) =>
      if !(l.all (fun f => frameAddrOk f && ioFrameOk f)) || !(wellFormedImage hd l) then (s, 3, none) else
      if !(l.all FFrame.crcOk) then (s, 4, none) else
      if (hd.kind = 1 && rdF s h R.FCFG 1 0 ≠ 2) || (maskRegions hd.mask).any (fun r => regionState s h r == frLOADING)
        then (s, 5, none) else
      if l.any (fun f => f.ty == 3) && Config.freeBool s.fresh then (drawn s, 6, none) else
      (drawn s, 0, some (hd, l))
  | (s, _, _) => (s, 7, none)

/-! ## The loader (R346 to R348) -/

def loadOf (s : State) (h : Nat) : Option (BitVec 48 × Option Nat) := tget (fun _ => none) s.fab.loadImg h
def setLoad (s : State) (h : Nat) (v : Option (BitVec 48 × Option Nat)) : State :=
  { s with fab := { s.fab with loadImg := tset (fun _ => none) s.fab.loadImg h v } }
def pass2Of (s : State) (h : Nat) : Option Nat := tget (fun _ => none) s.fab.pass2 h
def setPass2 (s : State) (h : Nat) (v : Option Nat) : State :=
  { s with fab := { s.fab with pass2 := tset (fun _ => none) s.fab.pass2 h v } }

/-- A load is refused: the status is reported and journalled, and nothing is written. -/
def loadRefused (s : State) (h status : Nat) : State :=
  journal (wrF s h R.FLOAD 3 0 status) h evCtrlCheck false noPart (detail [(16, 1, 10), (17, 1, status)])

/-- Begin a load: refused while one runs or while the fabric cannot take it. -/
def startLoad (s : State) (h : Nat) (addr : BitVec 48) (slot : Option Nat) : State :=
  if rdB s h R.FLOAD 30 then wrF s h R.FLOAD 3 0 1 else
  if fabricFenced s h || fabricOff s h then loadRefused s h 2 else
  setPass2 (setLoad (wrF (wrB s h R.FLOAD 30 true) h R.FLOAD 3 0 0) h (some (addr, slot))) h none

/-- The load ends with a status; the mailbox command that began it is to be answered by the caller. -/
def endLoad (s : State) (h : Nat) : State := setPass2 (setLoad (wrB s h R.FLOAD 30 false) h none) h none

/-- FLOAD written by P0 with START. -/
def writeFload (s : State) (m : Master) (h : Nat) (v : W32) : State :=
  if asP0 s m && fld v 31 31 = 1 then
    startLoad s h (BitVec.ofNat 48 (rdF s h R.FIMGHI 15 0 * 2 ^ 32 + (csr s h R.FIMGLO).toNat)) none
  else s

/-- The image address of a load: 64-byte aligned. -/
def imgAddr (a : BitVec 48) : Nat := a.toNat / 64 * 64

/-- The first pass ends: refuse the image, or put its regions in LOADING (R346, R348). -/
def firstPass (s : State) (h : Nat) : State :=
  match loadOf s h, pass2Of s h with
  | some (a, _), none =>
    match checkImage s h (imgAddr a) with
    | (s, _, some (hd, _)) =>
      let rs := maskRegions hd.mask
      let fenced := (rs.filter (fun r => regionState s h r == frFENCED)).foldl (fun n r => n + 2 ^ r) 0
      let s := rs.foldl (fun s r =>
        let s := setRegion s h r frLOADING
        { s with fab := { s.fab with relReq := tset (fun _ => false) s.fab.relReq (16 * h + r) false } }) s
      let s := if hd.kind = 0 then wrF s h R.FCFG 1 0 1 else s
      setPass2 s h (some fenced)
    | (s, status, none) => endLoad (loadRefused s h status) h
  | _, _ => s

/-! ## Block memories (R338, R339) -/

def bmKey (h n : Nat) : Nat := 256 * h + n
def bmGet (s : State) (h n : Nat) : BitVec 36864 := tget (fun _ => 0) s.fab.bm (bmKey h n)
def bmSet (s : State) (h n : Nat) (v : BitVec 36864) : State :=
  { s with fab := { s.fab with bm := tset (fun _ => 0) s.fab.bm (bmKey h n) v } }

/-- 1,024 bits of a BMEM frame put at part k. -/
def bmPart (v : BitVec 36864) (k : Nat) (d : Bytes) : BitVec 36864 :=
  let m : BitVec 36864 := (BitVec.ofNat 36864 (2 ^ 1024 - 1)) <<< (1024 * k)
  (v &&& ~~~m) ||| (BitVec.ofNat 36864 (leNat d) <<< (1024 * k))

/-- Write one frame of the second pass. -/
def writeFrame (s : State) (h : Nat) (addr : Nat) (d : Bytes) : State :=
  let s := { s with fab := { s.fab with frames := tset (fun _ => zeros 128) s.fab.frames (2 ^ 32 * h + addr) d } }
  if addr / 2 ^ 28 = 4 then
    let i := addr / 2 ^ 12 % 2 ^ 12
    let n := 16 * (addr / 2 ^ 24 % 16) + i / 36
    bmSet s h n (bmPart (bmGet s h n) (i % 36) d)
  else s

/-- Enable again the drivers of the lines of region r that the monitor disabled (R351). -/
def linesOn (s : State) (h r : Nat) : State :=
  { s with fab := { s.fab with lineOff := tkeep (fun k => k / 64 != 16 * h + r) s.fab.lineOff } }

/-- The second pass ends: every frame is written and the regions are HELD (R345, R347, R348, R362). -/
def secondPass (s : State) (h : Nat) : State :=
  match loadOf s h, pass2Of s h with
  | some (a, _), some fenced =>
    match mrd s h (imgAddr a) 64 with
    | (s, .ok, b) =>
      let hd := parseHead b
      match readFrames s h (imgAddr a + 64) (min hd.count maxFrames) with
      | (s, some l) =>
        let named := l.filter (fun f => f.ty == 4)
        let clear (s : State) (n : Nat) : State :=
          if named.any (fun f => 16 * f.region + f.index / 36 == n) then s else bmSet s h n 0
        let s := if hd.kind = 0 then (List.range 256).foldl clear s else s
        let s := l.foldl (fun s f => writeFrame s h f.addr f.data) s
        let s := (maskRegions hd.mask).foldl (fun s r => linesOn (setRegion s h r frHELD) h r) s
        let s := (maskRegions fenced).foldl (fun s r =>
          journal s h evIsolate false noPart (detail [(16, 1, 7), (17, 1, r), (18, 1, 1)])) s
        let s := if hd.kind = 0 then wrF s h R.FCFG 1 0 2 else s
        endLoad (wrF s h R.FLOAD 3 0 0) h
      | (s, none) => secondFailed s h
    | (s, _, _) => secondFailed s h
  | _, _ => s
where
  /-- the second read met an error: the regions it had begun hold no configuration -/
  secondFailed (s : State) (h : Nat) : State :=
    let s := (List.range 16).foldl (fun s r =>
      if regionState s h r = frLOADING then setRegion s h r frUNLOADED else s) s
    let s := if rdF s h R.FCFG 1 0 = 1 then wrF s h R.FCFG 1 0 0 else s
    endLoad (loadRefused s h 7) h

/-! ## FREG (R348, R349) -/

/-- FREG +0 written by P0: PART stands outside UNLOADED and HELD, ISO fences or unfences, RELEASE asks for the
release edge. -/
def writeFreg (s : State) (m : Master) (h r : Nat) (v : W32) : State :=
  if !(asP0 s m) then s else
  let st := regionState s h r
  let old := csr s h (R.FREG r)
  if st ≠ frUNLOADED && st ≠ frHELD && fld v 26 24 ≠ fld old 26 24 then s else
  let s := setCsr s h (R.FREG r) ((v &&& 0x470F0000) ||| (old &&& 0x7))
  let note (s : State) : State := journal s h evIsolate false noPart (detail [(16, 1, 7), (17, 1, r), (18, 1, 1)])
  if fld v 30 30 = 1 && (st = frHELD || st = frRUNNING) then
    let s := setRegion s h r frFENCED
    note { s with fab := { s.fab with relReq := tset (fun _ => false) s.fab.relReq (16 * h + r) false } }
  else if fld v 30 30 = 0 && st = frFENCED then note (setRegion s h r frHELD)
  else if fld v 31 31 = 1 && st = frHELD then
    { s with fab := { s.fab with relReq := tset (fun _ => false) s.fab.relReq (16 * h + r) true } }
  else s

/-- The release edge of region r (R349). -/
def releaseEdge (s : State) (h r : Nat) : State :=
  if regionState s h r = frHELD && tget (fun _ => false) s.fab.relReq (16 * h + r) && !(fabricOff s h) then
    let s := { s with fab := { s.fab with relReq := tset (fun _ => false) s.fab.relReq (16 * h + r) false } }
    setRegion s h r frRUNNING
  else s

/-! ## Contention (R350, R351) -/

def lineKey (h r line : Nat) : Nat := 64 * (16 * h + r) + line

/-- A line's monitor acts on drivers that disagree: it disables them, and the keeper holds the line's last level. -/
def contend (s : State) (h r line : Nat) : State :=
  if regionState s h r ≠ frRUNNING || fabricOff s h || tget (fun _ => false) s.fab.lineOff (lineKey h r line) then s else
  let lvl := Config.freeBool s.fresh
  let s := drawn s
  let s := { s with fab := { s.fab with
    lineOff := tset (fun _ => false) s.fab.lineOff (lineKey h r line) true,
    keeper := tset (fun _ => false) s.fab.keeper (lineKey h r line) lvl } }
  let s := bump s h R.FCCNT 31 0 1
  if rdB s h R.FCONT 31 then s else
  let s := setCsr s h R.FCONT (BitVec.ofNat 32 (2 ^ 31 + r * 2 ^ 24 + line * 2 ^ 16))
  journal s h evContention false noPart (detail [(16, 1, r), (17, 1, line)])

/-- FCONT written by P0: clearing VALID lets every disabled line's drivers go again. -/
def writeFcont (s : State) (m : Master) (h : Nat) (v : W32) : State :=
  if asP0 s m && fld v 31 31 = 1 && rdB s h R.FCONT 31 then
    (List.range 16).foldl (fun s r => linesOn s h r) (wrB s h R.FCONT 31 false)
  else s

/-- FRAWGO by the debug master at FULL level: FRAWBUF becomes the frame at once (R350). `full` says the level. -/
def writeFrawgo (s : State) (full : Bool) (h : Nat) (v : W32) : State :=
  if full && fld v 31 31 = 1 then
    writeFrame s h (csr s h R.FRAWADDR).toNat ((List.range 32).flatMap (fun i => natLe 4 (csr s h (R.FRAWBUF i)).toNat))
  else s

/-! ## Ports (R341 to R343) -/

/-- The port's user logic can be reached: EN, region RUNNING, fabric neither fenced nor off. -/
def portOpen (s : State) (h p : Nat) : Bool :=
  rdB s h (R.FPORT p) 31 && regionState s h (rdF s h (R.FPORT p) 27 24) == frRUNNING &&
  !(fabricFenced s h) && !(fabricOff s h)

def targetsOf (s : State) (h p : Nat) : List TAcc := tget (fun _ => []) s.fab.targets (8 * h + p)
def setTargets (s : State) (h p : Nat) (l : List TAcc) : State :=
  { s with fab := { s.fab with targets := tset (fun _ => []) s.fab.targets (8 * h + p) l } }

/-- A request's address range is inside the port's window and one 64-byte line of main memory. -/
def masterMem (s : State) (h p a n : Nat) : Bool :=
  let base := rdF s h (R.MWBASEHI p) 15 0 * 2 ^ 32 + (csr s h (R.MWBASELO p)).toNat
  let lim := rdF s h (R.MWLIMHI p) 15 0 * 2 ^ 32 + (csr s h (R.MWLIMLO p)).toNat + 0xFFF
  decide (8 ≤ n) && decide (n ≤ 64) && n % 8 == 0 && a % 8 == 0 && a / 64 == (a + n - 1) / 64 &&
  decide (a + n ≤ mainTop) && decide (base ≤ a) && decide (a + n - 1 ≤ lim)

/-- Answer a master request: error flag and data, newest first. -/
def answerMaster (s : State) (h p : Nat) (err : Bool) (d : Bytes) : State :=
  { s with fab := { s.fab with mresp := (8 * h + p, err, d) :: s.fab.mresp } }
/-- A request that is not performed (R343). -/
def refuseMaster (s : State) (h p : Nat) : State := bump (answerMaster s h p true []) h (R.MERR p) 31 0 1

/-- The stream ruling or ruling whose RFEVT lies at this offset. -/
def rfevtAt (off : Nat) : Option Nat :=
  if 0x101008 ≤ off && off < 0x101008 + 16 * 0x411 && off % 16 = 8 then some ((off - 0x101008) / 16) else none
/-- The line channel whose LCHWR lies at this offset. -/
def lchwrAt (off : Nat) : Option Nat :=
  if R.LCHWR 0 ≤ off && off ≤ R.LCHWR 63 && (off - R.LCHWR 0) % 32 = 0 then some ((off - R.LCHWR 0) / 32) else none

/-- A 4-byte write to a register of this hub that a fabric port may make; none for any other. -/
def masterReg (s : State) (h p : Nat) (fp : Fin 8) (off : Nat) (v : W32) : Option State :=
  match rfevtAt off with
  | some r =>
    some (if v = 1 then rfevt s h p r (.lineEvent r) else if v = 2 then rfevt s h p r (.frameEvent r) else s)
  | none =>
    match lchwrAt off with
    | some c =>
      let part := rdF s h (R.FREG (rdF s h (R.FPORT p) 27 24)) 26 24
      if rdB s h (R.LCH c) 30 || rdF s h (R.LCH c) 28 26 ≠ part then none
      else some (writeLchwr s (.fabric (hubFin h) fp) h c v)
    | none => none

/-- A fabric-port master request (R343, R429). -/
def masterRequest (s : State) (h : Nat) (fp : Fin 8) (write : Bool) (a n : Nat) (d : Bytes) : State :=
  let p := fp.val
  if !(portOpen s h p) then s else
  if masterMem s h p a n then
    if write then
      match mwr s h none a (sub d 0 n) with
      | (s, .ok) => answerMaster s h p false []
      | (s, _) => refuseMaster s h p
    else
      match mrd s h a n with
      | (s, .ok, b) => answerMaster s h p false b
      | (s, _, _) => refuseMaster s h p
  else
    match region h a with
    | .csr h' off =>
      if write && n == 4 && h' == h then
        match masterReg s h p fp off (BitVec.ofNat 32 (leAt d 0 4)) with
        | some s => answerMaster s h p false []
        | none => refuseMaster s h p
      else refuseMaster s h p
    | _ => refuseMaster s h p

/-! ## Block memory ports (R338, R339) -/

/-- The bits an operation touches: a word of one of the aspect ratios. The narrow ratios leave out index 9m + 8. -/
def bmWord (pos len : Nat) : Bool :=
  decide (pos + len ≤ 36864) &&
  (((len == 1 || len == 2 || len == 4) && decide (pos % 9 < 8) && pos % 9 % len == 0) ||
   ((len == 9 || len == 18 || len == 36 || len == 72) && pos % len == 0))

/-- An operation the port can make: 512 by 72 writes on port A and reads on port B. -/
def bmOpOk (portB : Bool) : BmOp → Bool
  | .idle => true
  | .read pos len => bmWord pos.toNat len.val && (len.val != 72 || portB)
  | .write pos len _ => bmWord pos.toNat len.val && (len.val != 72 || !portB)

def bmRead (v : BitVec 36864) (pos len : Nat) : BitVec 72 :=
  ((v >>> pos).setWidth 72) &&& BitVec.ofNat 72 (2 ^ len - 1)
def bmWrite (v : BitVec 36864) (pos len : Nat) (d : BitVec 72) : BitVec 36864 :=
  let m : BitVec 36864 := (BitVec.ofNat 36864 (2 ^ len - 1)) <<< pos
  (v &&& ~~~m) ||| ((d &&& BitVec.ofNat 72 (2 ^ len - 1)).setWidth 36864 <<< pos)

/-- First bit and width of an operation. -/
def bmSpan : BmOp → Option (Nat × Nat)
  | .idle => none
  | .read pos len => some (pos.toNat, len.val)
  | .write pos len _ => some (pos.toNat, len.val)
def bmIsW : BmOp → Bool
  | .write _ _ _ => true
  | _ => false

/-- Two operations touch a common bit. -/
def bmMeet (a b : BmOp) : Bool :=
  match bmSpan a, bmSpan b with
  | some (p, n), some (q, m) => decide (p < q + m) && decide (q < p + n)
  | _, _ => false

/-- Both operations write, and the data agree on every common bit. -/
def bmAgree (a b : BmOp) : Bool :=
  match a, b with
  | .write p _ d, .write q _ e =>
    (List.range 36864).all (fun i =>
      match bmSpan a, bmSpan b with
      | some (_, n), some (_, m) =>
        if p.toNat ≤ i && i < p.toNat + n && q.toNat ≤ i && i < q.toNat + m then
          d.getLsbD (i - p.toNat) == e.getLsbD (i - q.toNat) else true
      | _, _ => true)
  | _, _ => false

/-- What one operation, alone in its window, leaves: contents and output (the old data for a write). -/
def bmApply (v : BitVec 36864) (op : BmOp) (out : BitVec 72) : BitVec 36864 × BitVec 72 :=
  match op with
  | .idle => (v, out)
  | .read pos len => (v, bmRead v pos.toNat len.val)
  | .write pos len d => (bmWrite v pos.toNat len.val d, bmRead v pos.toNat len.val)

/-- Do the operations fall in one collision window, and is port A the later one? -/
def bmSame : BmWindow → Bool
  | .apart => false
  | _ => true
def bmALate : BmWindow → Bool
  | .aLater => true
  | _ => false

def bmOutOf (s : State) (h n : Nat) : BitVec 72 × BitVec 72 × Bool × Bool :=
  tget (fun _ => (0, 0, false, false)) s.fab.bmOut (bmKey h n)
def setBmOut (s : State) (h n : Nat) (o : BitVec 72 × BitVec 72 × Bool × Bool) : State :=
  { s with fab := { s.fab with bmOut := tset (fun _ => (0, 0, false, false)) s.fab.bmOut (bmKey h n) o } }

/-- The two ports act on memory n. Operations apart are port A's and then port B's. -/
def bmAccess (s : State) (h n : Nat) (a b : BmOp) (win : BmWindow) : State :=
  if regionState s h (n / 16) ≠ frRUNNING || fabricOff s h || !(bmOpOk false a) || !(bmOpOk true b) then s else
  let v := bmGet s h n
  let (oa, ob, _, _) := bmOutOf s h n
  let busy (s : State) : State := bump s h (R.BMCOLL (n / 16)) 31 0 1
  if !(bmMeet a b) || !(bmSame win) || (!(bmIsW a) && !(bmIsW b)) || bmAgree a b then
    let (v1, oa') := bmApply v a oa
    let base := if bmSame win then v else v1
    let (_, ob') := bmApply base b ob
    let (v2, _) := bmApply v1 b ob
    setBmOut (bmSet s h n v2) h n (oa', ob', false, false)
  else if bmIsW a && bmIsW b then
    let (v1, oa') := bmApply v a oa
    let (_, ob') := bmApply v b ob
    setBmOut (bmSet (busy s) h n v1) h n (oa', ob', false, true)
  else
    let undef := Config.freeBits 72 s.fresh
    let s := drawn s
    let (v1, oa') := bmApply v a oa
    let (v2, ob') := bmApply v1 b ob
    let w (op : BmOp) : BitVec 72 :=
      match bmSpan op with
      | some (_, len) => undef &&& BitVec.ofNat 72 (2 ^ len - 1)
      | none => 0
    let oa' := if bmIsW a then oa' else w a
    let ob' := if bmIsW b then (bmApply v b ob).2 else (if bmIsW a then w b else ob')
    setBmOut (bmSet (busy s) h n v2) h n (oa', ob', bmALate win, !(bmALate win))

/-! ## User pins (R340) -/

/-- A bank's supply is present. -/
def bankOn (s : State) (h b : Nat) : Bool := tget (fun _ => true) s.fab.vccio (4 * h + b)

/-- IOIN[b]: the levels outside the device, or zeros with the supply absent. -/
def ioin (s : State) (h b : Nat) : W32 :=
  if bankOn s h b then (Config.freeBits 24 s.fresh).setWidth 32 else 0

/-! ## Commands -/

/-- FABRIC_LOAD_START (R346). -/
def execFabricLoadStart (m : Master) (h : Hub) (v : W32) (s : State) : Out :=
  .next (if live s h.val then writeFload s m h.val v else s)

/-- REGION_RELEASE (R349). -/
def execRegionRelease (m : Master) (h : Hub) (r : Fin 16) (v : W32) (s : State) : Out :=
  .next (if live s h.val then writeFreg s m h.val r.val v else s)

/-- FREG_ISO (R348, R362). -/
def execFregIso (m : Master) (h : Hub) (r : Fin 16) (v : W32) (s : State) : Out :=
  .next (if live s h.val then writeFreg s m h.val r.val v else s)

/-- RELEASE_EDGE (R349). -/
def execReleaseEdge (h : Hub) (r : Fin 16) (s : State) : Out :=
  .next (if live s h.val then releaseEdge s h.val r.val else s)

/-- CONTENTION (R351). -/
def execContention (h : Hub) (r : Fin 16) (line : Fin 64) (s : State) : Out :=
  .next (if live s h.val then contend s h.val r.val line.val else s)

/-- FCONT_CLEAR (R351). -/
def execFcontClear (m : Master) (h : Hub) (v : W32) (s : State) : Out :=
  .next (if live s h.val then writeFcont s m h.val v else s)

/-- FABRIC_MASTER_REQUEST (R343). -/
def execFabricMasterRequest (h : Hub) (fp : Fin 8) (write : Bool) (addr : BitVec 48) (len : BitVec 8) (data : Bytes)
    (s : State) : Out :=
  .next (if live s h.val then masterRequest s h.val fp write addr.toNat len.toNat data else s)

/-- BLOCK_MEMORY_ACCESS (R338, R339). -/
def execBlockMemoryAccess (h : Hub) (n : BitVec 8) (a b : BmOp) (win : BmWindow) (s : State) : Out :=
  .next (if live s h.val then bmAccess s h.val n.toNat a b win else s)

/-- VCCIO_CHANGE (R340). -/
def execVccioChange (h : Hub) (bank : Fin 4) (present : Bool) (s : State) : Out :=
  .next (if hubOk s h.val then
    { s with fab := { s.fab with vccio := tset (fun _ => true) s.fab.vccio (4 * h.val + bank.val) present } } else s)

end Sys2Proof.Machine
end

