-- ==== Sys2Proof/Machine/Networks.lean ====
section
/-! DEFINITION. Meshes, routing tables, isolation, Depol links and power domains (R240 to R262). -/
namespace Sys2Proof.Machine

/-! ## Routing tables (R246 to R248) -/

/-- The tile next to tile r in a direction: 1 north, 2 east, 3 south, 4 west. -/
def nextTile (r d : Nat) : Option Nat :=
  let x := r % 6
  let y := r / 6
  match d with
  | 1 => if 0 < y then some (r - 6) else none
  | 2 => if x < 5 then some (r + 1) else none
  | 3 => if y < 5 then some (r + 6) else none
  | 4 => if 0 < x then some (r - 1) else none
  | _ => none

/-- NEPOCH.CUR. -/
def epoch (s : State) (h : Nat) : Nat := rdF s h R.NEPOCH 29 29
/-- PRI and ALT of router r toward tile `dst` in table e. -/
def priOf (s : State) (h r e dst : Nat) : Nat :=
  rdF s h (R.NRTAB r e (dst / 4)) (8 * (dst % 4) + 2) (8 * (dst % 4))
def altOf (s : State) (h r e dst : Nat) : Nat :=
  rdF s h (R.NRTAB r e (dst / 4)) (8 * (dst % 4) + 5) (8 * (dst % 4) + 3)

/-- A port code is legal in router r: 0, a direction that stays on the mesh, or 7 where `alt`. -/
def codeOk (r c : Nat) (alt : Bool) : Bool := c == 0 || (nextTile r c).isSome || (alt && c == 7)

/-- The four entries of a written word are legal (R248). -/
def entriesOk (r : Nat) (v : W32) : Bool :=
  (List.range 4).all (fun j => codeOk r (fld v (8 * j + 2) (8 * j)) false && codeOk r (fld v (8 * j + 5) (8 * j + 3)) true)

/-- NRTAB written by P0 (R248). -/
def writeNrtab (s : State) (m : Master) (h r e w : Nat) (v : W32) : State :=
  if !(asP0 s m) then s else
  if e = epoch s h || rdB s h R.NEPOCH 30 || !(entriesOk r v) then bump s h R.NTBLREJ 31 0 1
  else setCsr s h (R.NRTAB r e w) (v &&& 0x3F3F3F3F)

/-- Some packet held on hub h carries epoch e (R247). -/
def heldEpoch (s : State) (h e : Nat) : Bool :=
  s.net.held.any (fun q =>
    (if q.1 < 128 then q.1 / 64 == h else if q.1 < 160 then sheetHome s (q.1 - 128) == h else dieHome s (q.1 - 160) == h)
    && q.2.any (fun k => fld k 87 87 == e))

/-- NEPOCH written by P0 with SWITCH (R247). Packets in flight are not held as state, so OLDCNT takes a free value
until the old table retires. -/
def writeNepoch (s : State) (m : Master) (h : Nat) (v : W32) : State :=
  if asP0 s m && fld v 31 31 = 1 && !(rdB s h R.NEPOCH 30) then
    let n := (Config.freeBits 20 s.fresh).toNat
    setCsr (drawn s) h R.NEPOCH (BitVec.ofNat 32 (2 ^ 30 + (1 - epoch s h) * 2 ^ 29 + n))
  else s

/-- The last old packet has left: OLDCNT is 0 and the old table retires (R247). -/
def retireTable (s : State) (h : Nat) : State :=
  if rdB s h R.NEPOCH 30 && !(heldEpoch s h (1 - epoch s h)) then
    setCsr s h R.NEPOCH (BitVec.ofNat 32 (epoch s h * 2 ^ 29))
  else s

/-! ## Header checks (R244) -/

/-- Link of mesh m in direction d at router r is FAILED. -/
def linkFailed (s : State) (h r m d : Nat) : Bool := decide (1 ≤ d) && rdB s h (R.NLSTAT r) (4 * m + d - 1)
def failKey (h r m d : Nat) : Nat := ((h * 36 + r) * 8 + m) * 5 + d
def failRun (s : State) (h r m d : Nat) : Nat := tget (fun _ => 0) s.net.fails (failKey h r m d)
def setFailRun (s : State) (h r m d n : Nat) : State :=
  { s with net := { s.net with fails := tset (fun _ => 0) s.net.fails (failKey h r m d) n } }

/-- A header that failed its check is replayed; `again` says that no good header came since the last failure. The
sixteenth consecutive failure makes a mesh link FAILED. -/
def headerFail (s : State) (h r m d : Nat) (again : Bool) : State :=
  let n := if again then failRun s h r m d + 1 else 1
  let s := setFailRun (bump s h R.NREPLAY 31 0 1) h r m d n
  if n < 16 || d = 0 then s else
  let s := wrB (setFailRun s h r m d 0) h (R.NLSTAT r) (4 * m + d - 1) true
  journal s h evCtrlCheck false noPart (detail [(16, 1, 4), (23, 1, r), (24, 1, m), (25, 1, d)])

/-- NLSTAT written by P0: each 1 retrains the link. -/
def writeNlstat (s : State) (m : Master) (h r : Nat) (v : W32) : State :=
  if asP0 s m then setCsr s h (R.NLSTAT r) (csr s h (R.NLSTAT r) &&& ~~~v) else s

/-! ## Absorbers (R249, R250) -/

/-- The region of a tile: core cluster or fabric. -/
def tileRegion (t : Nat) : Option Nat :=
  if t = 18 || t = 24 then some 4 else
  (List.range 4).find? (fun g => (List.range 4).any (fun k => tCore (8 * g + 2 * k) == t))

/-- A router port that faces tile t's block is an absorber: its tile, its region or, in tile DPL (3, 3), a Depol port is
fenced, or that link is DOWN (R249, R256). -/
def tileAbsorbs (s : State) (h t : Nat) : Bool :=
  tileIso s h t || (match tileRegion t with | some g => rdB s h (R.NREG g) 30 | none => false) ||
  (t == tDPL && (List.range 7).any (fun k => dplOk s h k && (rdB s h (R.DPLCTL k) 30 || dplState s h k == 5)))

/-- What an absorber does with a packet: the answer to a request is status 1 with zero data. -/
def absorb (s : State) (h : Nat) : PktKind → State
  | .request => reply s 1 0
  | .snoop => reply s 0 0
  | _ => bump s h R.NISODISC 31 0 1

/-- The link out of router t in direction d is FAILED, whichever end has recorded it (assumption 60). -/
def outFailed (s : State) (h t m d : Nat) : Bool :=
  linkFailed s h t m d ||
    (match nextTile t d with
     | some n => linkFailed s h n m ((d + 1) % 4 + 1)
     | none => false)

/-- The link that a packet on mesh m at router t needs toward dst is FAILED and no other route remains (R246). The
packet is stamped with epoch `ep`, which is the current one or that of a table not yet retired (R247); on the escape
channel (`esc`) it is routed by ALT alone. -/
def noRoute (s : State) (h t m dst ep : Nat) (esc : Bool) : Bool :=
  let a := altOf s h t ep dst
  (ep == epoch s h || rdB s h R.NEPOCH 30) &&
  (esc || outFailed s h t m (priOf s h t ep dst)) && (a == 7 || outFailed s h t m a)

/-- A packet is absorbed for want of a route: a lost response is journalled and asserts ALARM_N (R250). -/
def absorbNoRoute (s : State) (h t : Nat) : PktKind → State
  | .response =>
    let s := bump s h R.NRSPDISC 31 0 1
    journal (alarm s h 1) h evIsolate true noPart (detail [(16, 1, 4), (17, 1, t), (18, 1, 6)])
  | k => absorb s h k

/-! ## Depol links (R251 to R256) -/

def dplKey (h k : Nat) : Nat := 7 * h + k
def dplDflt : Depol := { lastSeq := 0, fails := 0, replay := none, errs := [], repair := none, failed := [] }
def getDpl (s : State) (h k : Nat) : Depol := tget (fun _ => dplDflt) s.net.depol (dplKey h k)
def setDpl (s : State) (h k : Nat) (d : Depol) : State :=
  { s with net := { s.net with depol := tset (fun _ => dplDflt) s.net.depol (dplKey h k) d } }
/-- A link that carries flits: STANDBY, UP or DEGRADED. -/
def dplRuns (s : State) (h k : Nat) : Bool := dplOk s h k && (dplState s h k == 2 || dplState s h k == 3 || dplState s h k == 4)

/-- The array die at the far end of a link. -/
def linkDie (s : State) (h k : Nat) : Option Nat :=
  if k < 6 && dplPeer s.part h k < 6 then some (dplPeer s.part h k) else none

/-- No core: an array fault for which no word stands. -/
def noIssuer : Nat := 64

/-- The sheets of a die whose home link is lost fault, gang by gang (R113, R256). -/
def dieFault (s : State) (a : Nat) : State :=
  let sick (s : State) (sh : Nat) : Bool :=
    sh / 4 == a && ((getSheet s sh).state == .idle || (getSheet s sh).state == .run)
  (List.range 24).foldl (fun s g =>
    let own := (members s g).filter (sick s)
    if own.isEmpty then s else
    match headWord (getGang s g) with
    | some q => gangFault s g own 0x21 q.w q.core (headPos (getGang s g)) 0 false
    | none => gangFault (drawn s) g own 0x21 (Config.freeBits 96 s.fresh) (((getGang s g).claim).getD noIssuer) 0xFF 0 false) s

/-- A takeover begins on hub h (R363): TKCTL.STATE is 1 until its outcome. -/
def startTakeover (s : State) (h : Nat) : State := wrF s h R.TKCTL 27 25 1

/-- One end of a link goes DOWN (R256); the hub-to-hub link may begin a takeover (R363). -/
def endDown (s : State) (h k : Nat) : State :=
  let s := setDplState s h k 5
  let s := setDpl s h k { getDpl s h k with replay := none, repair := none }
  let s := journal s h evLaneDown false noPart (detail [(16, 1, 4), (17, 1, k)])
  let s := match linkDie s h k with
    | some a => if dieHome s a = h then dieFault s a else s
    | none => s
  if k = 6 && rdB s h R.TKCTL 31 && rdF s h R.TKCTL 27 25 ≠ 1 then startTakeover s h else s

/-- A link goes DOWN: the hub-to-hub link does so at both ends. -/
def linkDown (s : State) (h k : Nat) : State :=
  let s := endDown s h k
  if k = 6 && dplRuns s (1 - h) 6 then endDown s (1 - h) 6 else s

/-- A header flit fails its CRC at the receiver (R252). -/
def depolCrcFail (s : State) (h k : Nat) (seq : BitVec 6) (again : Bool) : State :=
  if !(dplRuns s h k) then s else
  let d := getDpl s h k
  let n := if again && d.lastSeq = seq then d.fails + 1 else 1
  let s := bump s h (R.DPLCRC k) 31 0 1
  let s := setDpl s h k { d with lastSeq := seq, fails := n }
  if 16 ≤ n then linkDown (setDpl s h k { d with lastSeq := seq, fails := 0 }) h k else s

/-- A NAK arrives: the sender replays from the SEQ after ACK (R252). -/
def depolNak (s : State) (h k : Nat) (ack : BitVec 6) : State :=
  if !(dplRuns s h k) then s else
  setDpl (bump s h (R.DPLRPL k) 31 0 1) h k { getDpl s h k with replay := some (ack + 1) }

/-- Failed wires of a half: wires 0 to 127, or 128 to 255. -/
def halfFails (l : List Nat) (half : Nat) : Nat := (l.filter (fun w => w / 128 == half)).length

/-- A wire for which no spare remains: the link carries on at half width, or not at all (R255). -/
def noSpare (s : State) (h k : Nat) : State :=
  let l := (getDpl s h k).failed
  if 8 < min (halfFails l 0) (halfFails l 1) then linkDown s h k
  else if dplState s h k = 4 then s
  else journal (setDplState s h k 4) h evLaneDown false noPart (detail [(16, 1, 5), (17, 1, k)])

/-- Ones in a word. -/
def ones (v : W64) : Nat := ((List.range 64).filter (fun i => v.getLsbD i)).length

/-- A pilot flit arrives with the errors of each wire; bit w is data wire w (R255). -/
def pilot (s : State) (h k : Nat) (errs : BitVec 264) : State :=
  if !(dplRuns s h k) then s else
  let d := getDpl s h k
  let e := (List.range 256).foldl (fun (t : Tab W64) w =>
    let old : W64 := tget (fun _ => 0) t w
    let new := (old <<< 1) ||| (if errs.getLsbD w then 1 else 0)
    if new = old then t else tset (fun _ => (0 : W64)) t w new) d.errs
  let d := { d with errs := e }
  let s := setDpl s h k d
  if !(rdB s h (R.DPLCTL k) 26) || d.repair.isSome then s else
  match (List.range 256).find? (fun w => !(d.failed.contains w) && decide (4 ≤ ones (tget (fun _ => 0) e w))) with
  | none => s
  | some w =>
    if d.failed.length < 8 then
      setDpl (drawn s) h k { d with repair := some (w, Config.freeBits 6 s.fresh) }
    else noSpare (setDpl s h k { d with failed := d.failed ++ [w], errs := tset (fun _ => 0) e w 0 }) h k

/-- DPLMAP: failed inbound wires, eight bits each, lowest byte first, 0xFF unused. -/
def dplMap (l : List Nat) : W64 :=
  BitVec.ofNat 64 (leNat ((List.range 8).map (fun i => match l[i]? with | some w => BitVec.ofNat 8 w | none => 0xFF)))

/-- At the named SEQ both ends move the wire onto a spare (R255). -/
def wireRepair (s : State) (h k : Nat) (seq : BitVec 6) : State :=
  let d := getDpl s h k
  match d.repair with
  | some (w, q) =>
    if q ≠ seq || !(dplRuns s h k) then s else
    let l := d.failed ++ [w]
    let s := setDpl s h k { d with repair := none, failed := l, errs := tset (fun _ => 0) d.errs w 0 }
    let s := setCsr64 s h (R.DPLMAPLO k) (R.DPLMAPHI k) (dplMap l)
    let s := wrF s h (R.DPLCTL k) 18 15 (min l.length 8)
    if k = 6 then wrF s (1 - h) (R.DPLCTL 6) 22 19 (min l.length 8) else s
  | none => s

/-- State a trained link takes: STANDBY for the port of a die homed elsewhere, else UP, or DEGRADED when its failed
wires outnumber the spares. -/
def trainedState (s : State) (h k : Nat) : Nat :=
  match linkDie s h k with
  | some a => if dieHome s a ≠ h then 2 else if 8 < (getDpl s h k).failed.length then 4 else 3
  | none => if 8 < (getDpl s h k).failed.length then 4 else 3

/-- Training ends (R261). -/
def linkTrained (s : State) (h k : Nat) (ok : Bool) : State :=
  if !(dplOk s h k) || dplState s h k ≠ 1 || !(rdB s h (R.DPLCTL k) 31) then s else
  if ok then
    setDpl (setDplState s h k (trainedState s h k)) h k { getDpl s h k with lastSeq := 0, fails := 0, replay := none, repair := none }
  else linkDown s h k

/-- DPLCTL written by P0: EN, ISO and AUTOREP. Clearing EN makes the link OFF, with no fault; setting it trains. -/
def writeDplctl (s : State) (m : Master) (h k : Nat) (v : W32) : State :=
  if !(asP0 s m) || !(dplOk s h k) then s else
  let old := csr s h (R.DPLCTL k)
  let s := setCsr s h (R.DPLCTL k) ((v &&& 0xC4000000) ||| (old &&& ~~~0xC4000000))
  if fld v 31 31 = 0 then setDplState s h k 0
  else if fld old 31 31 = 0 || fld old 25 23 = 0 then setDplState s h k 1
  else s

/-! ## Power domains (R257 to R260) -/

/-- Hub whose registers switch a domain. -/
def domHub (s : State) (h : Nat) : Domain → Nat
  | .sheet sh => sheetHome s sh.val
  | .die a => dieHome s a.val
  | _ => h

/-- The cores of a cluster are idle and their ready lists empty (R258). -/
def clusterIdle (s : State) (h g : Nat) : Bool :=
  (List.range 8).all (fun k =>
    let i := 32 * h + 8 * g + k
    let c := getCore s i
    (c.isIdle || c.rstate == .out) && (readyOf s i).len == 0)

/-- Every sheet of a die is OFF, or out of use by command. -/
def dieQuiet (s : State) (a : Nat) : Bool :=
  (List.range 4).all (fun k =>
    let st := (getSheet s (4 * a + k)).state
    st == .off || st == .evac || st == .retired)

/-- A request to power the domain off stands, and its conditions hold. -/
def offDue (s : State) (h : Nat) : Domain → Bool
  | .cluster g =>
    let v := csr s h (R.NREG g.val)
    (fld v 31 31 == 1 && clusterIdle s h g.val) || (fld v 30 30 == 1 && fld v 29 29 == 0)
  | .fabric => rdB s h (R.NREG 4) 30 && !(rdB s h (R.NREG 4) 29)
  | .die a => dieOk s a.val && dieHome s a.val == h && !(rdB s h (R.NDIE a.val) 31) && dieQuiet s a.val
  | .tile t => rdB s h (R.NTILE t.val) 30
  | .sheet _ => false

/-- FENCE_REQ is asserted when a power-off is due (R258). -/
def fenceReq (s : State) (h : Nat) (d : Domain) : State :=
  if domOf s (domIx h d) = .on && offDue s h d then setDom s (domIx h d) .fencing else s

/-- The tiles of a cluster. -/
def clusterTiles (g : Nat) : List Nat := (List.range 4).map (fun k => tCore (8 * g + 2 * k))

/-- The L1 lines of a core are written back and invalidated (R258): nothing in memory is older than its line. -/
def flushL1 (s : State) (i : Nat) : State :=
  { s with mem := { s.mem with
    dirty := s.mem.dirty.filter (fun e => match e.2 with | some (o, _) => o != i | none => true)
    parity := tkeep (fun k => k / 2 ^ 48 != i) s.mem.parity } }
/-- The same for a cluster. -/
def flushCluster (s : State) (h g : Nat) : State := (List.range 8).foldl (fun s k => flushL1 s (32 * h + 8 * g + k)) s

/-- A block answers FENCE_ACK; a tile of a fencing cluster answers for itself, and the last answer ends step 3. -/
def fenceAck (s : State) (h : Nat) (d : Domain) : State :=
  if domOf s (domIx h d) = .fencing then
    let s := setDom s (domIx h d) .acked
    match d with
    | .cluster g => flushCluster s h g.val
    | _ => s
  else
    match d with
    | .tile t =>
      match tileRegion t.val with
      | some g =>
        if g < 4 && domOf s (64 * h + 36 + g) = .fencing then
          let s := setDom s (64 * h + t.val) .acked
          if (clusterTiles g).all (fun t => domOf s (64 * h + t) == .acked) then
            let s := (clusterTiles g).foldl (fun s t => setDom s (64 * h + t) .on) s
            flushCluster (setDom s (64 * h + 36 + g) .acked) h g
          else s
        else s
      | none => s
    | _ => s

/-- Begin a wake. A packet for a sheet of a die that is off wakes the die first (R257, R259). -/
def startWake (s : State) (h : Nat) (d : Domain) : State :=
  match d with
  | .die a => wakeDie s a.val
  | .sheet sh =>
    if domOf s (160 + sh.val / 4) = .off then wakeDie s (sh.val / 4)
    else if domOf s (160 + sh.val / 4) = .on then
      updSheet (setDom (wrB s (sheetHome s sh.val) (R.SHCFG sh.val) 31 true) (128 + sh.val) .waking) sh.val
        (fun x => { x with state := .clear })
    else s
  | _ => setDom s (domIx h d) .waking

/-- Power is removed after the last FENCE_ACK; a packet held meanwhile starts the wake at once (R258, R259). Under an
attached debugger the power stays on (R388). -/
def powerRemove (s : State) (h : Nat) (d : Domain) : State :=
  let ix := domIx h d
  if domOf s ix ≠ .acked then s else
  let s := setDom s ix (match d with | .tile _ => .tileOff | _ => .off)
  let s := { s with net := { s.net with emul := tset (fun _ => false) s.net.emul ix (attached s (domHub s h d)) } }
  let s := match d with
    | .die a => (List.range 2).foldl (fun s j =>
        if dplOk s j (dieLink j a.val) then setDplState s j (dieLink j a.val) 0 else s) s
    | _ => s
  if (heldOf s ix).isEmpty then s else startWake s h d

/-- Domains that a packet wakes. -/
def wakesOnPacket : Domain → Bool
  | .cluster _ => true
  | .sheet _ => true
  | .die _ => true
  | _ => false

/-- A packet reaches the boundary router of a region that sleeps or is on its way there (R259). -/
def packetHeld (s : State) (h : Nat) (d : Domain) (pkt : BitVec 96) : State :=
  let ix := domIx h d
  let st := domOf s ix
  if !(wakesOnPacket d) || st = .on || st = .isolated || st = .tileOff then s else
  let s := { s with net := { s.net with held := tset (fun _ => []) s.net.held ix (heldOf s ix ++ [pkt]) } }
  if st = .off then startWake s h d else s

/-- The registers of a range of offsets of hub h return to their POR_N values (R17). -/
def csrPor (s : State) (h lo n : Nat) : State :=
  { s with csr := tkeep (fun k => k < csrKey h lo || csrKey h lo + n ≤ k) s.csr }

/-- Free values in the G and F registers of a core that has lost power. -/
def scrambleRegs (s : State) (c : Core) : State × Core :=
  let f (n : Nat) : W64 := Config.freeBits 64 (s.fresh + n)
  let c := (List.range 31).foldl (fun c r => c.setG (r + 1) (f r)) c
  let c := (List.range 32).foldl (fun c r => c.setFr r (f (31 + r))) c
  ({ s with fresh := s.fresh + 63 }, c)

/-- What waking from off leaves of a core: everything at its POR_N value, G and F undefined; control store and tables
are cleared with the caches (R17, R276). A core out of service stays out. -/
def wakeCore (s : State) (i : Nat) : State :=
  let old := getCore s i
  let (s, c) := scrambleRegs s { Core.reset with rstate := if old.rstate == .out then .out else .idle, halted := old.halted }
  csrPor (setCore s i c) (i / 32) (0x500000 + 0x1000 * (i % 32)) 0x1000

/-- Reads that wait for the user logic of hub h are answered ISOLATED: their cores take it up. -/
def isolateTargets (s : State) (h : Nat) : State :=
  (s.fab.targets.filter (fun e => e.1 / 8 == h)).foldl (fun s e =>
    e.2.foldl (fun s x => if x.write then s else
      updCore s (coreIx x.core) (fun c => { c with portWait := false, ports := c.ports ++ [(portAddr h (e.1 % 8) x.off.toNat, none)] })) s) s

/-- What waking from off leaves of the fabric: no configuration, its registers at POR_N (R17, R348). -/
def wakeFabric (s : State) (h : Nat) : State :=
  let s := csrPor (isolateTargets s h) h 0xB00000 0x100000
  { s with fab := { s.fab with
    frames := tkeep (fun k => k / 2 ^ 32 != h) s.fab.frames
    lineOff := tkeep (fun k => k / 1024 != h) s.fab.lineOff
    keeper := tkeep (fun k => k / 1024 != h) s.fab.keeper
    targets := tkeep (fun k => k / 8 != h) s.fab.targets
    loadImg := tset (fun _ => none) s.fab.loadImg h none
    pass2 := tset (fun _ => none) s.fab.pass2 h none
    relReq := tkeep (fun k => k / 16 != h) s.fab.relReq } }

/-! ## NTILE, NREG and NDIE (R257, R260) -/

/-- A neighbour of tile t routes through t, in its current table, a packet for another tile. -/
def routedThrough (s : State) (h t : Nat) : Bool :=
  let e := epoch s h
  [1, 2, 3, 4].any (fun d =>
    match nextTile t d with
    | none => false
    | some n => (List.range 36).any (fun dst => dst != t &&
        (nextTile n (priOf s h n e dst) == some t || nextTile n (altOf s h n e dst) == some t)))

/-- NTILE written by P0: ISO fences; OFF asks for power-off, or is refused (R260). -/
def writeNtile (s : State) (m : Master) (h t : Nat) (v : W32) : State :=
  if !(asP0 s m) then s else
  let old := csr s h (R.NTILE t)
  let off := fld v 30 30 = 1 && fld old 30 30 = 0
  if off && (fld old 31 31 = 0 || fld v 31 31 = 0 || routedThrough s h t) then wrB s h (R.NTILE t) 29 true else
  let s := setCsr s h (R.NTILE t) ((v &&& 0xC0000000) ||| (if off then 0 else old &&& 0x20000000))
  let ix := 64 * h + t
  if off then setDom s ix .fencing
  else if fld v 30 30 = 0 && fld old 30 30 = 1 then setDom s ix .on
  else s

/-- The domain that NREG[g] switches. -/
def regDomain (g : Fin 5) : Domain := if h : g.val < 4 then .cluster ⟨g.val, h⟩ else .fabric

/-- NREG written by P0: SLEEP, ISO and PWREN (R258, R260). Setting PWREN again wakes a region switched off. -/
def writeNreg (s : State) (m : Master) (h : Nat) (g : Fin 5) (v : W32) : State :=
  if !(asP0 s m) then s else
  let s := setCsr s h (R.NREG g.val) (v &&& 0xE0000000)
  let d := regDomain g
  if domOf s (domIx h d) = .off then
    if fld v 29 29 = 1 && (g.val = 4 || fld v 31 31 = 0) then startWake s h d else s
  else fenceReq s h d

/-- NDIE written by P0 through the home hub. -/
def writeNdie (s : State) (m : Master) (h : Nat) (a : Fin 6) (v : W32) : State :=
  if !(asP0 s m) || !(dieOk s a.val) || dieHome s a.val ≠ h then s else
  let s := wrB s h (R.NDIE a.val) 31 (fld v 31 31 == 1)
  if domOf s (domIx h (.die a)) = .off then (if fld v 31 31 = 1 then startWake s h (.die a) else s)
  else fenceReq s h (.die a)

/-! ## Commands -/

/-- ABSORB_PACKET (R249). -/
def execAbsorbPacket (h : Hub) (t : Tile) (k : PktKind) (s : State) : Out :=
  .next (if live s h.val && tileAbsorbs s h.val t.val then absorb s h.val k else s)

/-- NO_ROUTE_ABSORB (R250). -/
def execNoRouteAbsorb (h : Hub) (t : Tile) (mesh : Fin 8) (dst : Tile) (ep : Fin 2) (esc : Bool) (k : PktKind)
    (s : State) : Out :=
  .next (if live s h.val && noRoute s h.val t.val mesh.val dst.val ep.val esc then absorbNoRoute s h.val t.val k else s)

/-- NEPOCH_SWITCH (R247). -/
def execNepochSwitch (m : Master) (h : Hub) (v : W32) (s : State) : Out :=
  .next (if live s h.val then writeNepoch s m h.val v else s)

/-- OLD_TABLE_RETIRE (R247). -/
def execOldTableRetire (h : Hub) (s : State) : Out :=
  .next (if live s h.val then retireTable s h.val else s)

/-- NRTAB_WRITE (R248). -/
def execNrtabWrite (m : Master) (h : Hub) (r : Tile) (e : Fin 2) (w : Fin 9) (v : W32) (s : State) : Out :=
  .next (if live s h.val then writeNrtab s m h.val r.val e.val w.val v else s)

/-- DEPOL_CRC_FAIL (R252). -/
def execDepolCrcFail (h : Hub) (k : Fin 7) (seq : BitVec 6) (again : Bool) (s : State) : Out :=
  .next (if live s h.val then depolCrcFail s h.val k.val seq again else s)

/-- DEPOL_NAK (R252). -/
def execDepolNak (h : Hub) (k : Fin 7) (ack : BitVec 6) (s : State) : Out :=
  .next (if live s h.val then depolNak s h.val k.val ack else s)

/-- PILOT_FLIT (R255). -/
def execPilotFlit (h : Hub) (k : Fin 7) (errs : BitVec 264) (s : State) : Out :=
  .next (if live s h.val then pilot s h.val k.val errs else s)

/-- WIRE_REPAIR (R255). -/
def execWireRepair (h : Hub) (k : Fin 7) (seq : BitVec 6) (s : State) : Out :=
  .next (if live s h.val then wireRepair s h.val k.val seq else s)

/-- LINK_TRAINED (R261). -/
def execLinkTrained (h : Hub) (k : Fin 7) (ok : Bool) (s : State) : Out :=
  .next (if live s h.val then linkTrained s h.val k.val ok else s)

/-- DPLCTL_WRITE (R256). -/
def execDplctlWrite (m : Master) (h : Hub) (k : Fin 7) (v : W32) (s : State) : Out :=
  .next (if live s h.val then writeDplctl s m h.val k.val v else s)

/-- REGION_SLEEP (R258). -/
def execRegionSleep (h : Hub) (d : Domain) (s : State) : Out :=
  .next (if live s h.val then fenceReq s h.val d else s)

/-- FENCE_ACK (R258). -/
def execFenceAck (h : Hub) (d : Domain) (s : State) : Out :=
  .next (if live s h.val then fenceAck s h.val d else s)

/-- PACKET_HELD (R259). -/
def execPacketHeld (h : Hub) (d : Domain) (pkt : BitVec 96) (s : State) : Out :=
  .next (if live s h.val then packetHeld s h.val d pkt else s)

/-- NTILE_ISO (R249). -/
def execNtileIso (m : Master) (h : Hub) (t : Tile) (v : W32) (s : State) : Out :=
  .next (if live s h.val then writeNtile s m h.val t.val v else s)

/-- NTILE_OFF (R260). -/
def execNtileOff (m : Master) (h : Hub) (t : Tile) (v : W32) (s : State) : Out :=
  .next (if live s h.val then writeNtile s m h.val t.val v else s)

/-- NREG_ISO (R260). -/
def execNregIso (m : Master) (h : Hub) (g : Fin 5) (v : W32) (s : State) : Out :=
  .next (if live s h.val then writeNreg s m h.val g v else s)

/-- NDIE_PWREN (R257). -/
def execNdiePwren (m : Master) (h : Hub) (a : Fin 6) (v : W32) (s : State) : Out :=
  .next (if live s h.val then writeNdie s m h.val a v else s)

end Sys2Proof.Machine
end

