-- ==== Sys2Proof/Machine/Operands.lean ====
section
/-! DEFINITION. Operand forms of the scribe cores: special registers (R167, R168, R200, R235), immediates and
effective addresses (R170, R181, R182). -/
namespace Sys2Proof.Machine

/-! ## Special registers -/

/-- MCVER[63:8] of a core: ROM version, patch and table versions, key slots (R235). -/
def mcverHigh (c : Core) : W64 :=
  BitVec.ofNat 64 (0x00B0 * 2 ^ 48 + c.patchVer.toNat * 2 ^ 32 + c.tabVer.toNat * 2 ^ 16 +
    c.pkey.toNat * 2 ^ 12 + c.tkey.toNat * 2 ^ 8)

/-- A core of partition `p` is in service (R353). -/
def coreServes (s : State) (i p : Nat) : Bool :=
  hubOk s (i / 32) && corePart s i == p && (getCore s i).rstate != .out

/-- MCVER.MIXED of core i. -/
def mixed (s : State) (i : Nat) : Bool :=
  (List.range 64).any (fun j => j != i && coreServes s j (corePart s i) &&
    mcverHigh (getCore s j) != mcverHigh (getCore s i))

/-- COREID of core i: core, hub, partition (R167). -/
def coreIdOf (s : State) (i : Nat) : W64 :=
  BitVec.ofNat 64 (i % 32 + 32 * (i / 32 % 2) + 256 * corePart s i)

/-- Special register n of core i; `none` for a reserved number (R167). -/
def sprRead (s : State) (i n : Nat) : Option W64 :=
  let c := getCore s i
  match n with
  | 0x00 => some (c.pc.setWidth 64)
  | 0x01 => some (c.pstat.setWidth 64)
  | 0x02 => some c.cnt
  | 0x03 => some (c.fpcr.setWidth 64)
  | 0x04 => some (c.fpsr.setWidth 64)
  | 0x05 => some c.ctx
  | 0x06 => some c.tag
  | 0x07 => some c.epc
  | 0x08 => some c.trapc
  | 0x09 => some c.trapv
  | 0x0A => some c.lladdr
  | 0x0B => some (mcverHigh c + BitVec.ofNat 64 (b2n (mixed s i)))
  | 0x0C => some (coreIdOf s i)
  | _ => none

/-- The number names a register that MTS may write. -/
def sprWritable (n : Nat) : Bool := decide (1 ≤ n) && decide (n ≤ 4) || decide (7 ≤ n) && decide (n ≤ 9)

/-- PSTAT with its RW fields replaced (R168). -/
def pstatPut (old v : W32) : W32 := (old &&& ~~~0x113F) ||| (v &&& 0x113F)
/-- FPSR with its RW fields replaced. -/
def fpsrPut (old v : W32) : W32 := (old &&& ~~~0x3F) ||| (v &&& 0x3F)

/-- A core after a write to special register n (R167, R222). -/
def sprWrite (c : Core) (n : Nat) (v : W64) : Core :=
  match n with
  | 0x01 => { c with pstat := pstatPut c.pstat (lo32 v) }
  | 0x02 => { c with cnt := v }
  | 0x03 => { c with fpcr := fpcrPut c.fpcr (lo32 v) }
  | 0x04 => { c with fpsr := fpsrPut c.fpsr (lo32 v) }
  | 0x07 => { c with epc := v }
  | 0x08 => { c with trapc := v }
  | 0x09 => { c with trapv := v }
  | _ => c

/-! ## Debug register selection (R384, DRSEL) -/

/-- The register that DRSEL value `sel` names; a value that names none reads 0. -/
def drRead (s : State) (i sel : Nat) : W64 :=
  if sel < 0x20 then (getCore s i).gr sel
  else if sel < 0x40 then (getCore s i).fr (sel - 0x20)
  else if 0x100 ≤ sel then (sprRead s i (sel - 0x100)).getD 0
  else 0

/-- A debugger's write to the register that `sel` names: PC too, whose two low bits stay 0; other RO registers keep
their values. -/
def drWrite (s : State) (i sel : Nat) (v : W64) : State :=
  updCore s i (fun c =>
    if sel < 0x20 then c.setG sel v
    else if sel < 0x40 then c.setFr (sel - 0x20) v
    else if sel = 0x100 then { c with pc := (v.setWidth 48) &&& ~~~3 }
    else if 0x100 < sel then sprWrite c (sel - 0x100) v
    else c)

/-! ## Immediates and addresses -/

/-- Sign extension of the low `n` bits (R170). -/
def sextN (n : Nat) (v : Nat) : W64 := BitVec.ofInt 64 (if v % 2 ^ n < 2 ^ (n - 1) then (v % 2 ^ n : Nat) else ((v % 2 ^ n : Nat) : Int) - 2 ^ n)

/-- Bytes of an access of size code SZ (R182). -/
def szBytes (sz : BitVec 2) : Nat := 2 ^ sz.toNat

/-- Effective address of majors 0x08, 0x09 and 0x13 (R182, R211). -/
def eaImm (base : W64) (off : BitVec 12) (size : Nat) : W64 := base + off.signExtend 64 * BitVec.ofNat 64 size
/-- Effective address of major 0x0A (R182). -/
def eaIdx (base index : W64) (sz : BitVec 2) : W64 := base + (index <<< sz.toNat)

/-- Target of a branch at `pc` with displacement `d` in words (R181). -/
def brTarget (pc : BitVec 48) (d : W64) : BitVec 48 := pc + (d <<< 2).setWidth 48

end Sys2Proof.Machine
end

