-- ==== Sys2Proof/Machine/Debug.lean ====
section
/-! DEFINITION. The debug access units: levels and the challenge, halts of cores and gangs, watchpoints, overstrike,
margin ports and trace pins (R376 to R394). -/
namespace Sys2Proof.Machine

/-! ## Levels and the challenge (R378, R379) -/

def pathIx (h : Nat) : DbgPath → Nat
  | .probe => 2 * h
  | .host => 2 * h + 1
def pathByte : DbgPath → Nat
  | .probe => 0
  | .host => 1

/-- ATTACH has become 0: domains of hub h emulated off are then off in fact (R388). -/
def endEmulation (s : State) (h : Nat) : State :=
  { s with net := { s.net with emul := tkeep (fun ix => (if 160 ≤ ix then dieHome s (ix - 160)
      else if 128 ≤ ix then sheetHome s (ix - 128) else ix / 64) != h) s.net.emul } }

/-- ATTACH becomes 0 when neither path holds FULL (R388). -/
def settleAttach (s : State) (h : Nat) : State :=
  if dbgLevel s h .probe = 2 || dbgLevel s h .host = 2 || !(attached s h) then s
  else endEmulation (wrB s h R.DBGCTL 31 false) h

def setLevel (s : State) (h : Nat) (p : DbgPath) (lvl : Nat) : State :=
  settleAttach (match p with
    | .probe => wrF s h R.DBGCTL 3 2 lvl
    | .host => wrF s h R.DBGCTL 1 0 lvl) h

/-- The path is locked after eight failures in a row. -/
def locked (s : State) (h : Nat) : DbgPath → Bool
  | .probe => rdB s h R.DBGCTL 5
  | .host => rdB s h R.DBGCTL 4

def challengeOf (s : State) (h : Nat) (p : DbgPath) : Option (BitVec 256) := tget (fun _ => none) s.dbg.chal (pathIx h p)
def setChallenge (s : State) (h : Nat) (p : DbgPath) (c : Option (BitVec 256)) : State :=
  { s with dbg := { s.dbg with chal := tset (fun _ => none) s.dbg.chal (pathIx h p) c } }
/-- A new challenge, which ends the one before. -/
def drawChallenge (s : State) (h : Nat) (p : DbgPath) : State :=
  drawn (setChallenge s h p (some (Config.random s.fresh)))
/-- The 32 bytes of the current challenge; zeros when there is none. -/
def challengeBytes (s : State) (h : Nat) (p : DbgPath) : Bytes :=
  match challengeOf s h p with | some c => be256 c | none => zeros 32

/-- Word i of the key and signature buffer of a path. -/
def authWord (s : State) (h : Nat) (p : DbgPath) (i : Nat) : W64 :=
  tget (fun _ => 0) s.dbg.buf (16 * pathIx h p + i)
def setAuthWord (s : State) (h : Nat) (p : DbgPath) (i : Nat) (v : W64) : State :=
  { s with dbg := { s.dbg with buf := tset (fun _ => 0) s.dbg.buf (16 * pathIx h p + i % 16) v } }
/-- The buffer as its 128 bytes. -/
def authBytes (s : State) (h : Nat) (p : DbgPath) : Bytes :=
  (List.range 16).flatMap (fun i => natLe 8 (authWord s h p i).toNat)

/-- The three checks of GO: the fused key hash, and the signature over challenge, IDENT, path and level. -/
def authGood (s : State) (h : Nat) (p : DbgPath) (lvl : Nat) : Bool :=
  let b := authBytes s h p
  match challengeOf s h p, tget (fun _ => none) s.boot.fuse 4 with
  | some c, some key =>
    sha256 (sub b 0 64) == key &&
    ecVerify (of256 (sub b 0 32)) (of256 (sub b 32 32))
      (sha256 (be256 c ++ natLe 4 (csr s h R.IDENT).toNat ++ natLe 1 (pathByte p) ++ natLe 1 lvl))
      (of256 (sub b 64 32)) (of256 (sub b 96 32))
  | _, _ => false

/-- GO for level `lvl`; the answer is whether it was granted (R379). -/
def authGo (s : State) (h : Nat) (p : DbgPath) (lvl : Nat) : State × Bool :=
  if locked s h p then (s, false) else
  let good := authGood s h p lvl
  let s := setChallenge s h p none
  let setFails (s : State) (n : Nat) : State :=
    { s with dbg := { s.dbg with fails := tset (fun _ => 0) s.dbg.fails (pathIx h p) n } }
  if good then (setLevel (setFails s 0) h p lvl, true) else
  let n := tget (fun _ => 0) s.dbg.fails (pathIx h p) + 1
  let s := setFails s n
  (if 8 ≤ n then wrB s h R.DBGCTL (match p with | .probe => 5 | .host => 4) true else s, false)

def revoke (s : State) (h : Nat) (p : DbgPath) : State := setLevel s h p 0

/-- The debug master holds FULL and reaches hub h (R378, R380). -/
def mayDebug (s : State) (m : Master) (h : Nat) : Bool :=
  dbgFull s m && match masterHub m with | some eh => reach s eh h | none => false

/-! ## Halting and resuming cores (R382 to R385) -/

/-- A core stops: HALTED, its cause, and the request is taken. -/
def haltCore (s : State) (i cause : Nat) (forced : Bool) : State :=
  let s := wrB s (i / 32) (R.DCTL (i % 32)) 31 false
  updCore s i (fun c => { c with halted := true, haltCause := cause, forced := forced, stepReq := false })

/-- A halt is requested of core i and not taken. -/
def haltWanted (s : State) (i : Nat) : Bool :=
  rdB s (i / 32) (R.DCTL (i % 32)) 31 && !(getCore s i).halted && (getCore s i).rstate != .out

/-- The core holds a reservation, so a halt is deferred (R383). -/
def Core.reserved (c : Core) : Bool := fld c.lladdr 0 0 == 1

/-- The halt takes effect before the next instruction. -/
def haltDue (s : State) (i : Nat) : Bool := haltWanted s i && !(getCore s i).reserved

/-- CORE_HALT: the requested halt takes effect at a boundary, once the floating-point unit is idle and no
reservation is held. -/
def coreHalt (s : State) (i : Nat) : State :=
  if haltDue s i && (getCore s i).fpu.isNone && (getCore s i).micro.isNone then haltCore s i 1 false else s

/-- 512 CCLK after the request inside a locked sequence the halt is forced: LLADDR is cleared (R383). -/
def haltForce (s : State) (i : Nat) : State :=
  if haltWanted s i && (getCore s i).reserved && (getCore s i).fpu.isNone && (getCore s i).micro.isNone then
    haltCore (updCore s i (fun c => { c with lladdr := 0 })) i 1 true
  else s

/-- The last halt that froze watchdog w between `a` and `b` has ended by RESUME: at least 64 units remain (R387). -/
def wdRelease (a b : State) (h w : Nat) : State :=
  if wdFrozen a h w && !(wdFrozen b h w) then
    setCsr b h (R.WDCNT w) (BitVec.ofNat 32 (max (csr b h (R.WDCNT w)).toNat 64))
  else b

/-- RESUME of a halted core. -/
def coreResume (s : State) (i : Nat) : State :=
  if !(getCore s i).halted || (getCore s i).rstate = .out then s else
  let t := updCore s i (fun c => { c with halted := false, haltCause := 0 })
  wdRelease s (wdRelease s t (i / 32) (i % 32)) (i / 32) 32

/-- DCTL written by the debug master: RW fields, then RESUME, STEP and HALT. STEP and RESUME act on a halted core,
RESUME before STEP; a halt request acts on one that runs (R382, R384). -/
def writeDctl (s : State) (i : Nat) (v : W32) : State :=
  let off := R.DCTL (i % 32)
  let h := i / 32
  let s := wrF s h off 28 26 (fld v 28 26)
  if (getCore s i).rstate = .out then s else
  if (getCore s i).halted then
    if fld v 30 30 = 1 then coreResume s i
    else if fld v 29 29 = 1 then updCore s i (fun c => { c with stepReq := true })
    else s
  else if fld v 31 31 = 1 then wrB s h off 31 true else s

/-- DRDATA written by the debug master, one half at a time, while the core is halted (R384). -/
def writeDrdata (s : State) (i : Nat) (hi : Bool) (v : W32) : State :=
  if !(getCore s i).halted then s else
  let sel := rdF s (i / 32) (R.DRSEL (i % 32)) 8 0
  let old := drRead s i sel
  drWrite s i sel (if hi then cat64 v (lo32 old) else cat64 (hi32 old) v)

/-- DRDATA as it reads. -/
def drdata (s : State) (i : Nat) : W64 :=
  if (getCore s i).halted then drRead s i (rdF s (i / 32) (R.DRSEL (i % 32)) 8 0) else 0

/-- DBGCTL written at FULL: ATTACH, KEEP and DEVFREEZE. -/
def writeDbgctl (s : State) (h : Nat) (v : W32) : State :=
  let t := wrF s h R.DBGCTL 31 29 (fld v 31 29)
  if attached s h && !(attached t h) then endEmulation t h else t

/-! ## Gangs (R386) -/

/-- Group g names a gang of hub h. -/
def gangHere (s : State) (h g : Nat) : Bool := decide (g < 24) && isGang s g && sheetHome s g == h

/-- RESUME of a halted gang. -/
def gangResume (s : State) (h g : Nat) : State :=
  if !((getGang s g).halted) then s else wdRelease s (setInjecting (unhalt s g) g false) h 32

/-- STEPW: the gang leaves HALT for one word; a word that is there and need not wait executes at once. -/
def stepWord (s : State) (g : Nat) : State :=
  if !((getGang s g).halted) then s else
  let s := updGang (unhalt s g) g (fun G => { G with step := true })
  match headWord (getGang s g) with
  | some q => gangWord s g (wordKind q.w)
  | none => s

/-- DGCTL of gang g. -/
def writeDgctl (s : State) (h g : Nat) (v : W32) : State :=
  if !(gangHere s h g) then s else
  let s := if fld v 30 30 = 1 then gangResume s h g else if fld v 29 29 = 1 then stepWord s g else s
  if fld v 31 31 = 1 && !((getGang s g).halted) && (getSheet s g).state != .fault then
    settleDebug (updGang s g (fun G => { G with haltReq := true })) g
  else s

/-- DGINJ word k of gang g; a write of the last one in HALT executes the word. -/
def writeDginj (s : State) (h g k : Nat) (v : W32) : State :=
  if !(gangHere s h g) then s else
  let s := setCsr s h (R.DGINJ g k) v
  if k = 2 && (getGang s g).halted then injectNow (setInjecting s g true) g else s

/-! ## Patch RAM (R389) -/

/-- Four bytes of patch RAM. -/
def patchWord (s : State) (h i : Nat) : W32 :=
  BitVec.ofNat 32 (leNat ((List.range 4).map (fun k => tget (fun _ => 0) s.dbg.patch (2048 * h + 4 * i + k))))
def writePatch (s : State) (h i : Nat) (v : W32) : State :=
  { s with dbg := { s.dbg with patch := tset (fun _ => 0) (tset (fun _ => 0) (tset (fun _ => 0) (tset (fun _ => 0)
      s.dbg.patch (2048 * h + 4 * i) (v.extractLsb' 0 8)) (2048 * h + 4 * i + 1) (v.extractLsb' 8 8))
      (2048 * h + 4 * i + 2) (v.extractLsb' 16 8)) (2048 * h + 4 * i + 3) (v.extractLsb' 24 8) } }

/-! ## Watchpoints (R390) -/

/-- Watchpoint w of core i matches an access of `n` bytes at `a`. -/
def watchHit (s : State) (i w a n : Nat) (ld st : Bool) : Bool :=
  let h := i / 32
  let v := csr s h (R.DW (i % 32) w)
  let m := fld v 21 16
  let addr := rdF s h (R.DWADDRHI (i % 32) w) 15 0 * 2 ^ 32 + (csr s h (R.DWADDRLO (i % 32) w)).toNat
  fld v 31 30 != 0 && ((ld && fld v 28 28 == 1) || (st && fld v 29 29 == 1)) &&
    decide (a / 2 ^ m ≤ addr / 2 ^ m) && decide (addr / 2 ^ m ≤ (a + n - 1) / 2 ^ m)

/-- The watchpoints that match, lowest first. -/
def watchHits (s : State) (i a n : Nat) (ld st : Bool) : List Nat :=
  (List.range 8).filter (fun w => watchHit s i w a n ld st)
/-- Every match is counted. -/
def countHits (s : State) (i : Nat) (l : List Nat) : State :=
  l.foldl (fun s w => bump s (i / 32) (R.DWHITS (i % 32) w) 31 0 1) s
/-- Action of watchpoint w: 1 WATCH, 2 halt. -/
def watchAct (s : State) (i w : Nat) : Nat := rdF s (i / 32) (R.DW (i % 32) w) 31 30
/-- TRAPV of a watchpoint's WATCH. -/
def watchValue (a w : Nat) (st : Bool) : W64 := BitVec.ofNat 64 (a * 2 ^ 16 + b2n st * 128 + w * 16 + 2)

/-! ## Margin ports and trace pins (R391 to R393) -/

def marginQ (s : State) (h : Nat) : List (BitVec 128) := tget (fun _ => []) s.dbg.marginQ h
def setMarginQ (s : State) (h : Nat) (l : List (BitVec 128)) : State :=
  { s with dbg := { s.dbg with marginQ := tset (fun _ => []) s.dbg.marginQ h l } }
def traceQ (s : State) (h : Nat) : List (BitVec 128) := tget (fun _ => []) s.dbg.traceQ h
def setTraceQ (s : State) (h : Nat) (l : List (BitVec 128)) : State :=
  { s with dbg := { s.dbg with traceQ := tset (fun _ => []) s.dbg.traceQ h l } }
def setMarginLost (s : State) (h : Nat) (b : Bool) : State :=
  { s with dbg := { s.dbg with marginLost := tset (fun _ => false) s.dbg.marginLost h b } }

/-- A store to margin port i of hub h must wait: the pin FIFO is full and the port stalls (R392). -/
def marginWaits (s : State) (core h i : Nat) : Bool :=
  rdB s h (R.MPCFG i) 31 && rdF s h (R.MPCFG i) 2 0 == corePart s core && rdB s h R.MTCTL 31 && rdB s h R.MTCTL 30 &&
    rdB s h (R.MPCFG i) 30 && decide (32 ≤ (marginQ s h).length)

/-- A store of core `core` to margin port i of hub h (R391, R392). -/
def marginStore (s : State) (core h i : Nat) (size64 : Bool) (data : W64) : State :=
  if !(rdB s h (R.MPCFG i) 31) || rdF s h (R.MPCFG i) 2 0 ≠ corePart s core || !(rdB s h R.MTCTL 31) then s else
  let lost := tget (fun _ => false) s.dbg.marginLost h
  let d := if size64 then data.toNat else (lo32 data).toNat
  let p : BitVec 128 := BitVec.ofNat 128
    (d * 2 ^ 64 + fld (refPos s h) 31 0 * 2 ^ 32 + i * 2 ^ 24 + b2n size64 * 2 ^ 23 + b2n lost * 2 ^ 22 +
      core / 32 % 2 * 2 ^ 21 + corePart s core * 2 ^ 18 + core % 32 * 2 ^ 13)
  let n := (csr s h R.MTWR).toNat
  let wrote (s : State) : State := setMarginLost (setCsr s h R.MTWR (BitVec.ofNat 32 (n + 1))) h false
  let dropped (s : State) : State := setMarginLost (bump s h R.MTLOST 31 0 1) h true
  if rdB s h R.MTCTL 30 then
    if (marginQ s h).length < 32 then wrote (setMarginQ s h (marginQ s h ++ [p])) else dropped s
  else
    let cap := 256 * rdF s h R.MTSIZE 20 0
    if !(rdB s h R.MTCTL 29) && cap ≤ n then dropped s else
    let base := rdF s h R.MTBASEHI 15 0 * 2 ^ 32 + (csr s h R.MTBASELO).toNat
    match mwr s h none (base + 16 * (n % cap)) (natLe 16 p.toNat) with
    | (s, .ok) => wrote s
    | (s, _) => dropped s

/-- The ten half-words of a pin packet, the first in the highest bits: KIND, 0xA5 and LOST, then the packet, then
CRC-16 (R393). -/
def pinPacket (kind : Nat) (lost : Bool) (p : BitVec 128) : BitVec 160 :=
  let head := natBe 2 (kind * 4096 + 0xA50 + b2n lost * 8) ++ natBe 16 p.toNat
  BitVec.ofNat 160 (beNat (head ++ natBe 2 (crc16 head).toNat))

/-- The next packet driven on the trace pins of hub h: the FIFOs take turns, the margin FIFO first; an idle packet
when both are empty. -/
def pinStep (s : State) (h : Nat) : State :=
  let out (s : State) (b : BitVec 160) : State := { s with dbg := { s.dbg with pinOut := (h, b) :: s.dbg.pinOut } }
  let setLast (s : State) (m : Bool) : State :=
    { s with dbg := { s.dbg with lastMargin := tset (fun _ => false) s.dbg.lastMargin h m } }
  let mq := marginQ s h
  let tq := traceQ s h
  let last := tget (fun _ => false) s.dbg.lastMargin h
  match mq, tq with
  | [], [] => out s (pinPacket 0 false 0)
  | m :: ms, [] => out (setLast (setMarginQ s h ms) true) (pinPacket 2 (m.getLsbD 22) m)
  | [], t :: ts => out (setLast (setTraceQ s h ts) false) (pinPacket 1 (t.getLsbD 8) t)
  | m :: ms, t :: ts =>
    if last then out (setLast (setTraceQ s h ts) false) (pinPacket 1 (t.getLsbD 8) t)
    else out (setLast (setMarginQ s h ms) true) (pinPacket 2 (m.getLsbD 22) m)

/-! ## Commands -/

/-- HALT_REQUEST: DCTL written with HALT (R382). -/
def execHaltRequest (m : Master) (c : CoreId) (v : W32) (s : State) : Out :=
  .next (if live s c.hub.val && mayDebug s m c.hub.val && fld v 31 31 == 1 && fld v 30 29 == 0 then
    writeDctl s (coreIx c) v else s)

/-- CORE_HALT (R382). -/
def execCoreHalt (c : CoreId) (s : State) : Out :=
  .next (if serving s c.hub.val then coreHalt s (coreIx c) else s)

/-- HALT_FORCE (R383). -/
def execHaltForce (c : CoreId) (s : State) : Out :=
  .next (if serving s c.hub.val then haltForce s (coreIx c) else s)

/-- DRDATA_WRITE (R384). -/
def execDrdataWrite (m : Master) (c : CoreId) (hi : Bool) (v : W32) (s : State) : Out :=
  .next (if live s c.hub.val && mayDebug s m c.hub.val then writeDrdata s (coreIx c) hi v else s)

/-- GANG_HALT: DGCTL written with HALT (R386). -/
def execGangHalt (m : Master) (h : Hub) (g : Sheet) (v : W32) (s : State) : Out :=
  .next (if live s h.val && mayDebug s m h.val && fld v 31 29 == 4 then writeDgctl s h.val g.val v else s)

/-- GANG_RESUME: DGCTL written with RESUME (R386, R387). -/
def execGangResume (m : Master) (h : Hub) (g : Sheet) (v : W32) (s : State) : Out :=
  .next (if live s h.val && mayDebug s m h.val && fld v 30 30 == 1 then writeDgctl s h.val g.val v else s)

/-- STEPW: DGCTL written with STEPW (R386). -/
def execStepw (m : Master) (h : Hub) (g : Sheet) (v : W32) (s : State) : Out :=
  .next (if serving s h.val && mayDebug s m h.val && fld v 30 29 == 1 then writeDgctl s h.val g.val v else s)

/-- DGINJ: the last word of DGINJ written, which executes the word in HALT (R386). -/
def execDginj (m : Master) (h : Hub) (g : Sheet) (v : W32) (s : State) : Out :=
  .next (if serving s h.val && mayDebug s m h.val then writeDginj s h.val g.val 2 v else s)

/-- DBGCTL_ATTACH: DBGCTL written at FULL (R388). -/
def execDbgctlAttach (m : Master) (h : Hub) (v : W32) (s : State) : Out :=
  .next (if live s h.val && mayDebug s m h.val then writeDbgctl s h.val v else s)

/-- TRACE_PIN_PACKET: the pins of hub h carry their next packet while TPCTL.EN is 1 (R393). -/
def execTracePinPacket (h : Hub) (s : State) : Out :=
  .next (if live s h.val && rdB s h.val R.TPCTL 31 then pinStep s h.val else s)

end Sys2Proof.Machine
end

