-- ==== Sys2Proof/Machine/Loader.lean ====
section
/-! DEFINITION. The loader of signed microcode images (R237, R238) and the registers that show what it wrote. -/
namespace Sys2Proof.Machine

def mcAddr (s : State) (h : Nat) : BitVec 48 :=
  BitVec.ofNat 48 (rdF s h R.IMGHI 15 0 * 2 ^ 32 + (csr s h R.IMGLO).toNat)
def mcLoadOf (s : State) (h : Nat) : Option McLoad := tget (fun _ => none) s.cpu.mcLoad h
def setMcLoad (s : State) (h : Nat) (v : Option McLoad) : State :=
  { s with cpu := { s.cpu with mcLoad := tset (fun _ => none) s.cpu.mcLoad h v } }

/-- The check kept with a microword: CRC-8 from bit 127 down, starting at 0xFF (R226). -/
def wordCheck8 (w : BitVec 128) : Byte := BitVec.ofNat 8 ((natBe 16 w.toNat).foldl (crcByte 8 0x07) 0xFF)
/-- A control-store word with its check in bits 135 to 128. -/
def wcsWord (w : BitVec 128) : BitVec 136 := (wordCheck8 w).setWidth 136 <<< 128 ||| w.setWidth 136
/-- A decode-table entry with its CHK in bits 63 to 56 (R234). -/
def dtabEntry (v : Nat) : W64 := BitVec.ofNat 64 (v % 2 ^ 56 + (crc8 (natBe 7 (v % 2 ^ 56))).toNat * 2 ^ 56)

/-- The header fields of an image. -/
structure McHead where
  ty     : Nat
  ver    : Nat
  rqrom  : Nat
  nwords : Nat
  origin : Nat
  nent   : Nat
def mcHead (b : Bytes) : McHead :=
  ⟨leAt b 4 1, leAt b 6 2, leAt b 8 2, leAt b 10 2, leAt b 12 2, leAt b 14 2⟩
/-- Bytes before the signature. -/
def McHead.signed (d : McHead) : Nat := 128 + 16 * d.nwords + (if d.ty = 1 then 4 else 8) * d.nent
def McHead.bytes (d : McHead) : Nat := d.signed + 64

/-- Magic, TYPE, NWORDS and NENT are those of an image. -/
def mcShape (b : Bytes) : Bool :=
  let d := mcHead b
  leAt b 0 4 == 0x4E4D4331 && (d.ty == 1 || d.ty == 2) && decide (d.nwords ≤ 4096) &&
    decide (d.nent ≤ if d.ty = 1 then 32 else 64)

/-- The image at address a in hub h's view, read once; `none` where it cannot be read. A header that is none is read
without what would follow it. -/
def mcRead (s : State) (h a : Nat) : State × Option Bytes :=
  match mrd s h a 128 with
  | (s, .ok, b) =>
    if !(mcShape b) then (s, some b) else
    match mrd s h a (mcHead b).bytes with
    | (s, .ok, b) => (s, some b)
    | (s, _, _) => (s, none)
  | (s, _, _) => (s, none)

/-- ORIGIN and NWORDS fit the regions of core c. -/
def mcFits (c : Core) (d : McHead) : Bool :=
  if d.ty = 1 then d.origin == 0 && (c.clen == 0 || decide (d.nwords ≤ c.corg))
  else decide (c.plen ≤ d.origin) && decide (d.origin + d.nwords ≤ 4096)

/-- The fused slot whose hash a key has: slots 0 to 3 (R237). -/
def keySlot (s : State) (key : Bytes) : Option Nat :=
  (List.range 4).find? (fun k => tget (fun _ => none) s.boot.fuse k == some (sha256 key))

/-- Cores that the mask selects on hub h. -/
def mcCores (h : Nat) (mask : W32) : List Nat :=
  ((List.range 32).filter (fun c => fld mask c c == 1)).map (fun c => 32 * h + c)

/-- Before hand-off (R238). -/
def booting (s : State) (h : Nat) : Bool := rdF s h R.BOOTSTAT 31 28 != 0xF

/-- Status of a load of image b into the cores of `mask`: format, key, RQROM, signature, in this order (R237). -/
def mcStatus (s : State) (h : Nat) (mask : W32) (b : Bytes) : Nat :=
  let d := mcHead b
  let l := mcCores h mask
  if !(l.all (fun i => (getCore s i).rstate == .out || (i % 32 == 0 && booting s h))) then 6
  else if !(mcShape b) || !(l.all (fun i => mcFits (getCore s i) d)) ||
      (d.ty == 2 && (List.range d.nent).any (fun k => decide (63 < leAt b (128 + 16 * d.nwords + 8 * k) 1))) then 2
  else match keySlot s (sub b 64 64) with
    | none => 3
    | some k =>
      if d.ty = 1 && k ≠ 0 then 3
      else if d.rqrom ≠ 0 && d.rqrom ≠ 0x00B0 then 4
      else if ecVerify (of256 (sub b 64 32)) (of256 (sub b 96 32)) (sha256 (b.take d.signed))
          (of256 (sub b d.signed 32)) (of256 (sub b (d.signed + 32) 32)) then 0 else 5

/-- The control store with offsets lo to lo + n - 1 unloaded. -/
def unloadWcs (t : Tab (BitVec 136)) (lo n : Nat) : Tab (BitVec 136) := tkeep (fun k => k < lo || lo + n ≤ k) t
/-- Store microwords from `org` up. No stored word is 0, its check included. -/
def loadWcs (t : Tab (BitVec 136)) (org : Nat) (b : Bytes) (n : Nat) : Tab (BitVec 136) :=
  (List.range n).foldl (fun (t : Tab (BitVec 136)) k => tset (fun _ => 0) t (org + k) (wcsWord (BitVec.ofNat 128 (leAt b (128 + 16 * k) 16)))) t

/-- Core c with the image's contents. `hold`: PMATCH waits for hand-off (R238). -/
def mcApply (c : Core) (b : Bytes) (slot : Nat) (hold : Bool) : Core :=
  let d := mcHead b
  let ent := 128 + 16 * d.nwords
  if d.ty = 1 then
    let pm : Tab W32 := (List.range d.nent).foldl (fun (t : Tab W32) j =>
      tset (fun _ => 0) t j (BitVec.ofNat 32 (leAt b (ent + 4 * j) 4) &&& 0x8FFFCFFF)) []
    let c := { c with wcs := loadWcs (unloadWcs c.wcs 0 c.plen) 0 b d.nwords, plen := d.nwords,
                      patchVer := BitVec.ofNat 16 d.ver, pkey := BitVec.ofNat 4 slot }
    if hold then { c with held := some pm } else { c with pmatch := pm }
  else
    let dt : Tab W64 := (List.range d.nent).foldl (fun (t : Tab W64) j =>
      tset (fun _ => 0) t (leAt b (ent + 8 * j) 1) (dtabEntry (leAt b (ent + 8 * j + 1) 7))) []
    { c with wcs := loadWcs (unloadWcs c.wcs c.corg c.clen) d.origin b d.nwords, corg := d.origin, clen := d.nwords,
             dtab := dt, tabVer := BitVec.ofNat 16 d.ver, tkey := BitVec.ofNat 4 slot }

/-- Load the image at address a into the cores of `mask`; any other status changes no core and is recorded (R237). -/
def mcRun (s : State) (h a : Nat) (mask : W32) : State × Nat :=
  let fail (s : State) (st : Nat) : State × Nat :=
    (journal s h evCtrlCheck false noPart (detail [(16, 1, 5), (17, 1, st)]), st)
  match mcRead s h a with
  | (s, none) => fail s 7
  | (s, some b) =>
    let st := mcStatus s h mask b
    if st ≠ 0 then fail s st else
    let slot := (keySlot s (sub b 64 64)).getD 0
    ((mcCores h mask).foldl (fun s i =>
      updCore s i (fun c => mcApply c b slot (i % 32 == 0 && booting s h))) s, 0)

/-- MCSTART with START (R237). -/
def startMc (s : State) (h : Nat) (image : BitVec 48) (cores : W32) (slot : Option Nat) : State :=
  setMcLoad (wrB s h R.MCSTART 30 true) h (some { image := image, cores := cores, slot := slot })
/-- MCSTART written by P0: START begins a load; while one runs STATUS shows 1 and it goes on. -/
def writeMcstart (s : State) (m : Master) (h : Nat) (v : W32) : State :=
  if !(asP0 s m) || fld v 31 31 = 0 then s
  else if rdB s h R.MCSTART 30 then wrF s h R.MCSTART 3 0 1
  else startMc s h (mcAddr s h) (csr s h R.MCCORES) none

/-- A load ends: its slot, if the mailbox started it, and its status. -/
def mcDone (s : State) (h : Nat) : State × Option Nat × Nat :=
  match mcLoadOf s h with
  | none => (s, none, 0)
  | some l =>
    let (s, st) := mcRun (setMcLoad (wrB s h R.MCSTART 30 false) h none) h l.image.toNat l.cores
    (wrF s h R.MCSTART 3 0 st, l.slot, st)

/-- A core's mode follows MCCTL at its next boundary; that of core 0 before hand-off waits (R235, R238). -/
def setMode (s : State) (i : Nat) : State :=
  if i % 32 = 0 && booting s (i / 32) then s
  else updCore s i (fun c => { c with mode := rdB s (i / 32) (R.MCCTL (i % 32)) 0 })

/-- MICROCODE_LOAD_START (R237). -/
def execMicrocodeLoadStart (m : Master) (h : Hub) (v : W32) (s : State) : Out :=
  .next (if live s h.val then writeMcstart s m h.val v else s)

/-- DECODE_MODE_SET: core c takes the mode that its MCCTL holds (R235). -/
def execDecodeModeSet (c : CoreId) (s : State) : Out :=
  .next (if live s c.hub.val then setMode s (coreIx c) else s)

end Sys2Proof.Machine
end

