-- ==== Sys2Proof/Machine/Memories.lean ====
section
/-! DEFINITION. Channel initialisation, scrubbing, clearing and the background tester (R265, R266, R274 to R277,
R366 to R368). -/
namespace Sys2Proof.Machine

/-! ## Channels (R265, R266) -/

/-- First address of channel k of hub h. -/
def chanBase (h k : Nat) : Nat := 0x800000000 * (4 * h + k)
/-- Populated bytes. -/
def chanBytes (s : State) (h k : Nat) : Nat := rdF s h (R.MCCFG k) 23 16 * 0x40000000
def chanState (s : State) (h k : Nat) : Nat := rdF s h (R.MCCFG k) 30 28
def setChanState (s : State) (h k st : Nat) : State := wrF s h (R.MCCFG k) 30 28 st

/-- A channel's training ends (R265). -/
def chanTrained (s : State) (h k : Nat) (ok : Bool) : State :=
  if chanOk s h k && chanState s h k = 1 then setChanState s h k (if ok then 2 else 5) else s

/-- MCINIT written by P0 with START, in STATE 2 (R266). -/
def writeMcinit (s : State) (m : Master) (h k : Nat) (v : W32) : State :=
  if asP0 s m && chanOk s h k && fld v 31 31 = 1 && chanState s h k = 2 then wrB s h (R.MCINIT k) 30 true else s

/-- Bytes lo to lo + n - 1 take zeros with valid check symbols: an unlisted byte of main or common memory reads 0. -/
def zeroRange (s : State) (lo n : Nat) : State :=
  let out (k : Nat) : Bool := decide (k < lo) || decide (lo + n ≤ k)
  { s with mem := { s.mem with
    cells := tkeep out s.mem.cells
    bad := tkeep out s.mem.bad
    dirty := tkeep out s.mem.dirty } }

/-- Initialisation ends: zeros over the populated channel. -/
def mcinitDone (s : State) (h k : Nat) : State :=
  if rdB s h (R.MCINIT k) 30 then
    dropRes (zeroRange (wrB s h (R.MCINIT k) 30 false) (chanBase h k) (chanBytes s h k)) none (chanBase h k) (chanBytes s h k)
  else s

/-! ## Clearing (R276, R277) -/

/-- The L1 caches of core i lose their lines without a write-back: memory keeps what it held before (R273). -/
def dropL1 (s : State) (i : Nat) : State :=
  let mine := s.mem.dirty.filter (fun e => match e.2 with | some (o, _) => o == i | none => false)
  let s := mine.foldl (fun s e => match e.2 with
    | some (_, b) => wbs s e.1 [b]
    | none => s) s
  flushL1 s i

/-- Clear the memories that a CLR mask selects, of hub h. -/
def clearMems (s : State) (h mask : Nat) : State :=
  let on (b : Nat) : Bool := mask / 2 ^ b % 2 == 1
  let s := if on 0 then zeroRange s (commonBase h) 0x1000000 else s
  let s := if on 2 then zeroRange s (rsvBase h) 0x2000000 else s
  let s := if on 3 then setEntries s (s.tok.entries.filter (fun e => e.hub.val != h || e.place == .page)) else s
  let s := if on 4 then { s with dsp := { s.dsp with ligs := s.dsp.ligs.filter (fun l => l.hub.val != h || !l.onchip) } } else s
  let s := if on 5 then (List.range 32).foldl (fun s c => dropL1 s (32 * h + c)) s else s
  if on 6 then { s with fab := { s.fab with bm := tkeep (fun k => k / 256 != h) s.fab.bm } } else s

/-- MEMCLR written by the boot ROM or the debug master at FULL; the device keeps the selection while BUSY. -/
def writeMemclr (s : State) (m : Master) (h : Nat) (v : W32) : State :=
  let may := dbgFull s m || (match m with | .bootRom _ => true | _ => false)
  if !may || rdB s h R.MEMCLR 31 || fld v 6 0 = 0 then s else
  setCsr s h R.MEMCLR (BitVec.ofNat 32 (2 ^ 31 + fld v 6 0))

/-- A clear ends. -/
def memclrDone (s : State) (h : Nat) : State :=
  if rdB s h R.MEMCLR 31 then setCsr (clearMems s h (rdF s h R.MEMCLR 6 0)) h R.MEMCLR 0 else s

/-! ## Scrubbing (R274) -/

/-- Check codewords as the scrubber reads them. -/
def scrubCws (s : State) (cw n : Nat) : State :=
  if s.mem.bad.isEmpty then s else
  (List.range n).foldl (fun s j => (checkCw s (cw + 16 * j) 2).1) s

/-- The scrubber of a channel reads its next line; lines beyond the capacity are never reached. -/
def scrubChan (s : State) (h k : Nat) : State :=
  let lines := chanBytes s h k / 64
  let pos := rdF s h (R.MCSCRPOS k) 28 0
  if rdF s h (R.MCSCRCTL k) 31 30 = 0 || !(chanServes s h k) || lines = 0 then s else
  let s := if pos < lines then scrubCws s (chanBase h k + 64 * pos) 4 else s
  if pos + 1 < lines then wrF s h (R.MCSCRPOS k) 28 0 (pos + 1)
  else setCsr (wrF s h (R.MCSCRPOS k) 28 0 0) h (R.MCSCRPASS k) (csr s h (R.MCSCRPASS k) + 1)

/-- Sheets homed on hub h. -/
def homed (s : State) (h : Nat) : List Nat := (List.range 24).filter (fun sh => sheetOk s sh && sheetHome s sh == h)

/-- A sheet's plane memory can be read in the background. -/
def sheetOpen (s : State) (sh : Nat) : Bool := (getSheet s sh).state == .idle || (getSheet s sh).state == .run

/-- The scrubber reads a row slice and rewrites it only when it corrected an error (R62). -/
def scrubSlice (s : State) (sh p row : Nat) : State :=
  let n := symCount (sliceBad s sh p row)
  let fix := n == 1 || (4 ≤ n && Config.freeNat s.fresh % 3 == 1)
  let s := (readSlice s sh p row 1 2).1
  if fix then setSliceBad s sh p row 0 else s

/-- The next unit of an on-chip memory: a line of the L2, a codeword of common memory, a row slice of plane memory. -/
def scrubUnit (s : State) (h u : Nat) : State :=
  if rdF s h (R.UMSCRCTL u) 31 30 = 0 then s else
  let pos := rdF s h (R.UMSCRPOS u) 23 0
  let l := homed s h
  let units := if u < 2 then 2 ^ 18 else if u < 4 then 2 ^ 19 else l.length * 2 ^ 19
  if units = 0 then s else
  let s :=
    if u < 2 then s
    else if u < 4 then scrubCws s (commonBase h + (u - 2) * 0x800000 + 16 * pos) 1
    else
      match l[pos / 2 ^ 19]? with
      | some sh => if sheetOpen s sh then scrubSlice s sh (pos / 128 % 4096) (pos % 128) else s
      | none => s
  wrF s h (R.UMSCRPOS u) 23 0 (if pos + 1 < units then pos + 1 else 0)

/-! ## The background tester (R366 to R368) -/

/-- A region of the tester: unit code, bytes and kind. -/
structure TRegion where
  unit : Nat
  key  : Nat
  len  : Nat
  slice : Option (Nat × Nat × Nat)
  deriving DecidableEq, Repr

/-- BTPOS names a region of main or common memory by its address; an L2 region as 0xC0 in the top byte, slice and
offset; a row slice as 0x80 in the top byte, sheet, row and plane. -/
def testRegion (s : State) (h pos : Nat) : Option TRegion :=
  let units := rdF s h R.BTCTL 3 0
  let on (b : Nat) : Bool := units / 2 ^ b % 2 == 1
  if pos < mainTop then
    let k := pos / 0x800000000 % 4
    if on 0 && pos / 0x2000000000 == h && chanServes s h k && pos % 4096 == 0 &&
        decide (pos % 0x800000000 < chanBytes s h k) then some ⟨k, pos, 4096, none⟩ else none
  else if 0x010000000000 ≤ pos && pos < 0x010001000000 then
    let half := pos / 0x800000 % 2
    if on 2 && pos % 4096 == 0 && !(tileIso s h (tCMM half)) then
      some ⟨0x12 + half, commonBase h + pos % 0x1000000, 4096, none⟩ else none
  else if pos / 2 ^ 40 = 0xC0 then
    let sl := pos / 2 ^ 24 % 2
    if on 1 && pos % 4096 == 0 && !(tileIso s h (tL2 sl)) then some ⟨0x10 + sl, 0, 0, none⟩ else none
  else if pos / 2 ^ 40 = 0x80 then
    let sh := pos / 2 ^ 24 % 32
    let row := pos / 2 ^ 16 % 256
    let p := pos % 2 ^ 16
    if on 3 && decide (sh < 24) && sheetOk s sh && sheetHome s sh == h && decide (row < 128) && decide (p < 4096) &&
        sheetOpen s sh then some ⟨0x20 + sh, 0, 0, some (sh, p, row)⟩ else none
  else none

/-- An uncorrectable record is held at an address of the region. -/
def testBad (s : State) (h : Nat) (r : TRegion) : Bool :=
  match r.slice with
  | some (sh, p, row) =>
    let loc := csr s h (R.SHECCLOC sh)
    fld loc 31 31 == 1 && fld loc 29 29 == 1 && fld loc 27 16 == p && fld loc 14 8 == row
  | none =>
    if r.len = 0 then false else
    let u := eccUnit r.key
    let a := rdF s u.h u.loc1 15 0 * 2 ^ 32 + (csr s u.h u.loc0).toNat
    rdB s u.h u.loc1 31 && rdB s u.h u.loc1 30 && a / 4096 == eccAddr r.key / 4096

def testerPos (s : State) (h : Nat) : Nat := rdF s h R.BTPOSHI 15 0 * 2 ^ 32 + (csr s h R.BTPOSLO).toNat
/-- The tester runs on hub h. -/
def testerOn (s : State) (h : Nat) : Bool := serving s h && rdB s h R.BTCTL 31
/-- The region at BTPOS, when the tester does not skip it. -/
def testerRegion (s : State) (h : Nat) : Option TRegion :=
  match testRegion s h (testerPos s h) with
  | some r => if testBad s h r then none else some r
  | none => none

/-- Where the journal names a region: an address, or a plane and a row. -/
def testerWhere (pos : Nat) (r : TRegion) : List (Nat × Nat × Nat) :=
  match r.slice with
  | some (_, p, row) => [(24, 2, p), (26, 1, row)]
  | none => [(24, 6, pos)]

/-- The region is read into the shadow buffer. -/
def testerBorrow (s : State) (h : Nat) (r : TRegion) : State × Bool :=
  let pos := testerPos s h
  match r.slice with
  | some (sh, p, row) =>
    let (s, bad) := readSlice s sh p row 1 0
    let b := natLe 16 (rowSlice (plane s sh p) row).toNat
    ({ s with svc := { s.svc with borrow := tset (fun _ => none) s.svc.borrow h (some { unit := r.unit, addr := BitVec.ofNat 48 pos, copy := b }) } },
     bad)
  | none =>
    let (s, st) := checkRange s r.key r.len 0
    ({ s with svc := { s.svc with borrow := tset (fun _ => none) s.svc.borrow h (some { unit := r.unit, addr := BitVec.ofNat 48 pos, copy := rbs s r.key r.len }) } },
     st != .ok)

/-- The region is restored from the shadow buffer: its codewords are written whole with the data they held. -/
def testerRestore (s : State) (r : TRegion) : State :=
  match r.slice with
  | some (sh, p, row) => setSliceBad s sh p row 0
  | none => { s with mem := { s.mem with bad := tkeep (fun k => k < r.key || r.key + r.len ≤ k) s.mem.bad } }

/-- One step: borrow, copy, test and restore the region at BTPOS, and name the next one (R366). A region that may not
be borrowed is skipped. -/
def testerStep (s : State) (h : Nat) (next : BitVec 48) (failed : Bool) : State :=
  if !(testerOn s h) then s else
  let pos := testerPos s h
  let s := match testerRegion s h with
    | none => s
    | some r =>
      let (s, bad) := testerBorrow s h r
      let s := if bad then s else testerRestore s r
      let s := if failed then
          setCsr (journal s h evMemUncorr false noPart
            (detail ([(16, 1, r.unit), (17, 1, 0x1F), (18, 1, 3)] ++ testerWhere pos r)))
            h R.BTFAIL (BitVec.ofNat 32 (2 ^ 31 + r.unit))
        else s
      bump s h R.BTSTEPS 31 0 1
  setCsr (setCsr s h R.BTPOSLO (next.setWidth 32)) h R.BTPOSHI ((next >>> 32).setWidth 32)

/-- A master touches the borrowed region: it is restored, the step is abandoned and will be retried (R367). Masters:
1 core, 2 engine, 3 lane, 4 fabric port, 5 sheet word or run, 6 debug write. -/
def borrowRestore (s : State) (h who : Nat) : State :=
  if !(testerOn s h) || who = 0 || 6 < who then s else
  match testerRegion s h with
  | none => s
  | some r =>
    let (s, bad) := testerBorrow s h r
    let s := if bad then s else testerRestore s r
    let s := bump s h R.BTABAND 31 0 1
    journal s h evBorrowAbandon false noPart
      (detail ([(16, 1, r.unit), (17, 1, who)] ++ testerWhere (testerPos s h) r))

/-! ## Commands -/

/-- MCINIT_START (R266). -/
def execMcinitStart (m : Master) (h : Hub) (k : Fin 4) (v : W32) (s : State) : Out :=
  .next (if live s h.val then writeMcinit s m h.val k.val v else s)

/-- MCINIT_DONE (R266). -/
def execMcinitDone (h : Hub) (k : Fin 4) (s : State) : Out :=
  .next (if live s h.val then mcinitDone s h.val k.val else s)

/-- MEMCLR (R276). -/
def execMemclr (m : Master) (h : Hub) (v : W32) (s : State) : Out :=
  .next (if live s h.val then writeMemclr s m h.val v else s)

/-- MEMCLR_DONE (R276). -/
def execMemclrDone (h : Hub) (s : State) : Out :=
  .next (if live s h.val then memclrDone s h.val else s)

/-- SCRUB_STEP (R274): scrubbers 0 to 3 are the channels', 4 to 8 those of UM[0] to UM[4]. -/
def execScrubStep (h : Hub) (u : Fin 9) (s : State) : Out :=
  .next (if live s h.val then (if u.val < 4 then scrubChan s h.val u.val else scrubUnit s h.val (u.val - 4)) else s)

/-- TESTER_STEP (R366). -/
def execTesterStep (h : Hub) (addr : BitVec 48) (failed : Bool) (s : State) : Out :=
  .next (testerStep s h.val addr failed)

/-- BORROW_RESTORE (R367). -/
def execBorrowRestore (h : Hub) (who : BitVec 8) (s : State) : Out :=
  .next (borrowRestore s h.val who.toNat)

end Sys2Proof.Machine
end

