-- ==== Sys2Proof/Machine/Boot.lean ====
section
/-! DEFINITION. The resets, the boot sequence with recovery drying, and hand-off (R309, R375, R395 to R405). -/
namespace Sys2Proof.Machine

def bootOf (s : State) (h : Nat) : BootSt := tget (fun _ => .off) s.boot.st h
def setBoot (s : State) (h : Nat) (b : BootSt) : State :=
  { s with boot := { s.boot with st := tset (fun _ => .off) s.boot.st h b } }
def setStage (s : State) (h n : Nat) : State := setBoot (wrF s h R.BOOTSTAT 31 28 n) h (.running n)
def bootSrc (s : State) : Nat := rdF s 0 R.BOOTSTAT 21 20

/-- A step failed: ERROR, an EV_CTRL_CHECK record that waits on chip, and the boot ROM stops (R401). The event's
source code for a boot image is not among those listed: a free byte, 5 for the loader. -/
def bootFail (s : State) (h err : Nat) : State :=
  let s := wrF s h R.BOOTSTAT 27 24 err
  let src := if err = 6 then 5 else (Config.freeBits 8 s.fresh).toNat
  setBoot (journal (drawn s) h evCtrlCheck false noPart (detail [(16, 1, src), (17, 1, err)])) h .failed

/-! ## Hand-off (R403) -/

/-- Core 0 starts the firmware; cores 1 to 31 return to service unless a double trap is recorded. -/
def handOff (s : State) (h : Nat) : State :=
  let s := setBoot (wrF s h R.BOOTSTAT 31 28 0xF) h .done
  let entry := leNat (rbs s (commonBase h + 8) 4)
  let lost := (tget (fun _ => none) s.evi.lostBytes h).getD 0
  let halt := rdB s h (R.DCTL 0) 26
  let mode0 := rdB s h (R.MCCTL 0) 0
  let stat := csr s h R.BOOTSTAT
  let s := updCore s (32 * h) (fun c =>
    let c := { Core.reset with
      wcs := c.wcs, dtab := c.dtab, pmatch := c.held.getD c.pmatch, plen := c.plen, clen := c.clen, corg := c.corg,
      patchVer := c.patchVer, tabVer := c.tabVer, pkey := c.pkey, tkey := c.tkey, mode := mode0,
      pc := BitVec.ofNat 48 (0x010000000000 + 128 + entry), rstate := .running, bare := true,
      halted := halt, haltCause := if halt then 1 else 0 }
    ((c.setG 1 0x010000000000).setG 2 (stat.setWidth 64)).setG 3 (BitVec.ofNat 64 (min lost (2 ^ 64 - 1))))
  let s := (List.range 32).foldl (fun s c =>
    if c = 0 then s else updCore s (32 * h + c) (fun x => { x with
      rstate := if rdB s h (R.TNEST c) 31 then .out else .idle, mode := rdB s h (R.MCCTL c) 0 })) s
  let s := if ancStateOf s h = 3 then (List.range 4).foldl (fun s r => { s with evi := { s.evi with
      recover := tset (fun _ => none) s.evi.recover (ringKey h r)
        (some (tget (fun _ => 0) s.evi.ancD (ringKey h r), tget (fun _ => 0) s.evi.ancW (ringKey h r))) } }) s else s
  if rdB s h R.JCTL 31 then jflush s h else s

/-! ## Recovery drying (R309, R402) -/

def ancDirOf (s : State) (h : Nat) : Nat := (tget (fun _ => 0) s.evi.ancDir h).toNat
def ancWOf (s : State) (h r : Nat) : Nat := (tget (fun _ => 0) s.evi.ancW (ringKey h r)).toNat
def ancDOf (s : State) (h r : Nat) : Nat := (tget (fun _ => 0) s.evi.ancD (ringKey h r)).toNat

/-- The CSA header that ANCDIR locates, when it can be read and is valid (R291). -/
def readCsa (s : State) (h : Nat) : State × Option Bytes :=
  match mrd s h (ancDirOf s h) 4096 with
  | (s, .ok, b) =>
    (s, if leAt b 0 4 = 0x4E435341 ∧ leAt b 4 1 = 1 ∧ leAt b 4092 4 = (crc32c (b.take 4092)).toNat then some b else none)
  | (s, _, _) => (s, none)

/-- Rings, targets and root ports take the header's configuration (R402). -/
def applyCsa (s : State) (h : Nat) (b : Bytes) : State :=
  let word (i : Nat) : W32 := BitVec.ofNat 32 (leAt b i 4)
  let s := (List.range 4).foldl (fun s r =>
    let s := (List.range 16).foldl (fun s i =>
      if 6 ≤ i && i ≤ 12 then s else setCsr s h (R.ERCTL r + 4 * i) (word (8 + 64 * r + 4 * i))) s
    setDseq (setWseq s h r (ancWOf s h r)) h r (ancDOf s h r)) s
  let s := (List.range 8).foldl (fun s t => (List.range 13).foldl (fun s i =>
    setCsr s h (R.TGT t + 4 * i) (word (264 + 64 * t + 4 * i))) s) s
  setCsr s h R.PCICFG (word 824)

/-- What the boot ROM enabled is disabled again. After WARM_N the header's PCICFG is the one that stood, and its ports
were enabled before. -/
def unapplyCsa (s : State) (h : Nat) : State :=
  let s := (List.range 4).foldl (fun s r => wrB s h (R.ERCTL r) 31 false) s
  let s := (List.range 8).foldl (fun s t => wrB s h (R.TGT t) 31 false) s
  if rdB s h R.BOOTSTAT 18 then s else setCsr (wrB s h R.PCICFG 31 false) h R.PCISTAT 0

/-- Target t can take segments of ring r. -/
def recoverTarget (s : State) (h r t : Nat) : Bool :=
  rdB s h (R.TGT t) 31 && rdF s h (R.TGT t) 24 23 != 2 && rdB s h (R.ERCTL r) (16 + t)
/-- Every enabled ring has a target. -/
def ringsServed (s : State) (h : Nat) : Bool :=
  (List.range 4).all (fun r => !(ringEn s h r) || (List.range 8).any (recoverTarget s h r))

/-- What a walk of a ring found: its committed records, the bytes lost, and for each lost record its chain, bytes and
SEQ. -/
structure Walk where
  recs : List RingRec
  lost : Nat
  gone : List (Nat × Nat × Nat)

/-- A record header with its magic, a listed TYPE, its SEQ and its CRC. -/
def headValid (b : Bytes) (pos : Nat) : Bool :=
  leAt b 0 4 == 0x4E455652 && decide (1 ≤ leAt b 4 1) && decide (leAt b 4 1 ≤ 8) && leAt b 40 8 == pos &&
    leAt b 60 4 == (crc32c (b.take 59)).toNat

/-- Walk ring r from `pos` to `stop` (R309 step 1); `none` where the ring cannot be read. -/
def walkRing (s : State) (h r stop : Nat) : Nat → Nat → Walk → State × Option Walk
  | 0, _, w => (s, some w)
  | fuel + 1, pos, w =>
    if stop ≤ pos then (s, some w) else
    match mrd s h (ringBase s h r + pos % ringSize s h r) 64 with
    | (s, .ok, b) =>
      if !(headValid b pos) then (s, some { w with lost := w.lost + (stop - pos) }) else
      let size := recSize (leAt b 32 4)
      let chain := leAt b 6 2
      walkRing s h r stop fuel (pos + size)
        (if byteAt b 59 = 0xC5 then { w with recs := w.recs ++ [{ seq := pos, size := size, chain := chain }] }
         else { w with lost := w.lost + size, gone := w.gone ++ [(chain, size, pos)] })
    | (s, _, _) => (s, none)

/-- Walk every enabled ring; the committed records become those to dry. -/
def walkRings (s : State) (h : Nat) : State × Option (Nat × List (Nat × Nat × Nat)) :=
  (List.range 4).foldl (fun q r =>
    match q with
    | (s, none) => (s, none)
    | (s, some (lost, gone)) =>
      if !(ringEn s h r) || ringSize s h r = 0 then (s, some (lost, gone)) else
      let lo := ancDOf s h r
      let hi := ancWOf s h r
      match walkRing s h r hi ((hi - lo) / 64 + 1) lo ⟨[], 0, []⟩ with
      | (s, some w) => (setRecs s h r w.recs, some (lost + w.lost, gone ++ w.gone))
      | (s, none) => (s, none)) (s, some (0, []))

/-- The chains that the CSA holds as OPEN become chains of the hub again. -/
def reviveChains (s : State) (h : Nat) : State :=
  (List.range 1024).foldl (fun s c =>
    match mrd s h (ancDirOf s h + 4096 + 64 * c) 64 with
    | (s, .ok, b) =>
      if leAt b 48 1 = 1 && leAt b 60 4 = (crc32c (b.take 60)).toNat then
        setChain s h c { chainDflt with
          state := .opened, h := of256 (b.take 32), cnt := leAt b 32 8 + 1, next := leAt b 32 8 + 1,
          seq := BitVec.ofNat 64 (leAt b 40 8), ring := leAt b 49 1 % 4, part := leAt b 50 1 % 8, rid := leAt b 52 2 % 2048 }
      else s
    | (s, _, _) => s) s

/-- GAP with the chain's own losses, then EOR with reason 2 (R309 step 2). -/
def closeChain (s : State) (h c : Nat) (gone : List (Nat × Nat × Nat)) : State :=
  let own := gone.filter (·.1 == c)
  let bytes := own.foldl (fun a e => a + e.2.1) 0
  let first := match own with | e :: _ => e.2.2 | [] => 0
  let s := journal s h evSealGap false (getChain s h c).part (detail [(16, 2, c), (18, 1, 1), (23, 8, bytes)])
  let s := commitNow s h c .gap false 1 (natLe 8 bytes ++ natLe 8 own.length ++ natLe 8 first ++ zeros 8)
  commitNow s h c .eor false 0 (natLe 8 2 ++ zeros 8)

/-- Dry what ring r has committed, segment by segment; `false` where no target takes it (R292, R294). -/
def dryRing (s : State) (h r : Nat) : Nat → State × Bool
  | 0 => (s, true)
  | fuel + 1 =>
    let (start, stop) := nextSegment s h r
    if start < stop then
      match (List.range 8).find? (fun t => recoverTarget s h r t && !(tgtFull s h r t)) with
      | none => (s, false)
      | some t =>
        match issueTo s h t (segPages start stop) with
        | (s, false) => dryRing (failTarget s h t) h r fuel
        | (s, true) =>
          let d := csr64 s h R.DRYBYTESLO R.DRYBYTESHI + BitVec.ofNat 64 (stop - start)
          let s := setCsr64 (setDseq (noteFlush s h t) h r stop) h R.DRYBYTESLO R.DRYBYTESHI d
          dryRing (setRecs s h r ((recsOf s h r).filter (fun e => decide (stop < e.seq + e.size)))) h r fuel
    else
      match (recsOf s h r).find? (fun e => decide (start < e.seq)) with
      | some e => dryRing (setDseq s h r e.seq) h r fuel
      | none => (setAncD (setDseq s h r (wseq s h r)) h r (wseq s h r), true)

/-- Recovery cannot be carried out: ANCSTATE is left RECOVER and ERROR 7 is recorded; boot goes on (R309). -/
def recoverLater (s : State) (h : Nat) : State :=
  let s := { s with evi := { s.evi with
    chains := tkeep (fun k => k / 1024 != h) s.evi.chains
    recs := tkeep (fun k => k / 4 != h) s.evi.recs } }
  unapplyCsa (wrF (setAncState s h 3) h R.BOOTSTAT 27 24 7) h

/-- Recovery drying of hub h with its rings and targets configured (R309). -/
def recoverHub (s : State) (h : Nat) : State :=
  match walkRings s h with
  | (s, none) => recoverLater s h
  | (s, some (lost, gone)) =>
    let lo := csr s h R.CSABASELO
    let hi := csr s h R.CSABASEHI
    let dir := ancDirOf s h
    let s := setCsr (setCsr s h R.CSABASELO (BitVec.ofNat 32 dir)) h R.CSABASEHI (BitVec.ofNat 32 (dir / 2 ^ 32 % 65536))
    let s := reviveChains s h
    let l := (chainsOf s h).map (·.1)
    let s := l.foldl (fun s c => closeChain s h c gone) s
    let s := manifest s h (manifestEntries s h) false
    let (s, ok) := (List.range 4).foldl (fun (q : State × Bool) r =>
      if !q.2 || !(ringEn q.1 h r) || ringSize q.1 h r = 0 then q
      else dryRing q.1 h r (2 * ((wseq q.1 h r - dseq q.1 h r) / 64) + 16)) (s, true)
    let s := setCsr (setCsr s h R.CSABASELO lo) h R.CSABASEHI hi
    if !ok then recoverLater s h else
    let s := { s with evi := { s.evi with
      chains := tkeep (fun k => k / 1024 != h) s.evi.chains
      recs := tkeep (fun k => k / 4 != h) s.evi.recs
      segs := tkeep (fun k => k / 4 != h) s.evi.segs
      lostBytes := tset (fun _ => none) s.evi.lostBytes h (some lost) } }
    unapplyCsa (setAncState s h 0) h

/-! ## The boot sequence (R400 to R404) -/

/-- Step 9. A stroke that has begun stops the boot ROM (R396). -/
def step9 (s : State) (h : Nat) : State := if strokeOf s h = .none then handOff s h else setBoot s h .failed

/-- Step 8 (R402): recovery drying waits for a controller, unless the header records no enabled ring. -/
def step8 (s : State) (h : Nat) : State :=
  let s := setStage s h 8
  if ancStateOf s h = 1 || ancStateOf s h = 2 then
    match readCsa s h with
    | (s, none) => step9 (recoverLater s h) h
    | (s, some b) =>
      let s := applyCsa s h b
      if !((List.range 4).any (ringEn s h)) then step9 (recoverHub s h) h
      else if ringsServed s h then setBoot s h .waitDry
      else step9 (recoverLater s h) h
  else step9 s h

/-- Step 7: the seal key blob, when its magic is present. -/
def step7 (s : State) (h : Nat) : State :=
  let s := setStage s h 7
  match mrd s h (flashBase + 0xFE0000) 256 with
  | (s, .ok, b) => step8 (if leAt b 0 4 = 0x4E534B31 then loadBlob s b else s) h
  | (s, _, _) => step8 s h

/-- Step 6: the microcode images that the header names, and DECODE_MODE. -/
def step6 (s : State) (h : Nat) : State :=
  let s := setStage s h 6
  let b := rbs s (commonBase h) 64
  let load (s : State) (off : Nat) : State × Nat := if off = 0 then (s, 0) else mcRun s h (flashBase + off) 0xFFFFFFFF
  let (s, e1) := load s (leAt b 16 4)
  let (s, e2) := if e1 ≠ 0 then (s, e1) else load s (leAt b 20 4)
  let s := wrF s h R.BOOTSTAT 15 0 e2
  if e2 ≠ 0 then bootFail s h 6 else
  let mode := (byteAt b 24).getLsbD 0
  let s := (List.range 32).foldl (fun s c =>
    let s := wrB s h (R.MCCTL c) 0 mode
    if c = 0 then s else updCore s (32 * h + c) (fun x => { x with mode := mode })) s
  step7 { s with boot := { s.boot with mcauto := tset (fun _ => false) s.boot.mcauto h ((byteAt b 24).getLsbD 1) } } h

/-- The header of a firmware image is well formed (R400). -/
def imageHead (b : Bytes) : Bool :=
  let len := leAt b 4 4
  leAt b 0 4 == 0x4E465731 && decide (4 ≤ len) && decide (len ≤ 14680064) && len % 4 == 0 &&
    leAt b 8 4 % 4 == 0 && decide (leAt b 8 4 < len) && decide ((byteAt b 24).toNat < 4) && (sub b 25 39).all (· == 0)
/-- Bytes of the image that a header announces. -/
def imageBytes (b : Bytes) : Nat := 128 + leAt b 4 4 + 64

/-- The verdict on an image, as BOOTSTAT.ERROR: 1 format, 2 key, 3 signature, 0 accepted (R400). -/
def imageCheck (s : State) (b : Bytes) : Nat :=
  let n := 128 + leAt b 4 4
  if !(imageHead b) || b.length ≠ n + 64 then 1
  else if (keySlot s (sub b 64 64)).isNone then 2
  else if ecVerify (of256 (sub b 64 32)) (of256 (sub b 96 32)) (sha256 (b.take n)) (of256 (sub b n 32))
      (of256 (sub b (n + 32) 32)) then 0 else 3

/-- A failure at step 5: with BOOTSEL 0b11 the xSPI image gives way to the host's (R401). -/
def imageFail (s : State) (h err : Nat) : State :=
  if bootSrc s = 3 && !(rdB s h R.BOOTSTAT 19) then setBoot (wrB s h R.BOOTSTAT 19 true) h .waitImage
  else bootFail s h err

/-- Step 5 with the image fetched, `none` when it could not be read: copied to common memory, and checked there. -/
def takeImage (s : State) (h : Nat) : Option Bytes → State
  | none => imageFail s h 4
  | some b =>
    match mwr s h none 0x010000000000 b with
    | (s, .ok) =>
      match imageCheck s b with
      | 0 => step6 s h
      | e => imageFail s h e
    | (s, _) => imageFail s h 4

/-- An image read from address a in hub h's view; of one with no valid header only the header is read. -/
def fetchImage (s : State) (h a : Nat) : State × Option Bytes :=
  match mrd s h a 64 with
  | (s, .ok, b) =>
    if !(imageHead b) then (s, some b) else
    match mrd s h a (imageBytes b) with
    | (s, .ok, b) => (s, some b)
    | (s, _, _) => (s, none)
  | (s, _, _) => (s, none)

/-- H[0] has read the image from the host or through the debugger, so H[1] may copy it. -/
def imageRead (s : State) : Bool := decide (6 ≤ rdF s 0 R.BOOTSTAT 31 28) || decide (1 ≤ rdF s 0 R.BOOTSTAT 27 24)

/-- Step 5: the flash, or a wait for the host or the debugger; H[1] follows H[0] (R398, R400, R401). -/
def step5 (s : State) (h : Nat) : State :=
  let s := setStage s h 5
  if bootSrc s = 0 || bootSrc s = 3 then
    match fetchImage s h flashBase with
    | (s, img) => takeImage s h img
  else if h = 1 && imageRead s then
    match fetchImage s h 0x010010000000 with
    | (s, img) => takeImage s h img
  else setBoot s h .waitImage

/-- Every hub that waits for an image takes this one, H[0] first. -/
def bootTake (s : State) (img : Option Bytes) : State :=
  (List.range 2).foldl (fun s h => if live s h && bootOf s h = .waitImage then takeImage s h img else s) s

/-- Step 4 ends when no channel trains: one must be ready. -/
def step4End (s : State) (h : Nat) : State :=
  let l := (List.range 4).filter (chanOk s h)
  if l.any (fun k => chanState s h k == 1) then setBoot s h .waitTrain
  else if l.any (fun k => chanState s h k == 2) then step5 s h
  else bootFail s h 5

/-- Capacity of a channel in GiB. -/
def dimmOf (s : State) (h k : Nat) : Nat := tget (fun _ => 32) s.boot.dimm (4 * h + k)

/-- Step 4: every populated channel trains, or leaves self-refresh (R265). -/
def step4 (s : State) (h : Nat) (warm : Bool) : State :=
  let s := setStage s h 4
  step4End ((List.range 4).foldl (fun s k =>
    if !(chanOk s h k) then s
    else if warm then (if chanState s h k = 3 then setChanState s h k 2 else s)
    else if dimmOf s h k = 0 then s
    else setChanState (wrF (wrB s h (R.MCCFG k) 31 true) h (R.MCCFG k) 23 16 (dimmOf s h k)) h k 1) s) h

/-- CALSTAT of a calibration page (R404, R405). -/
def calStatus (s : State) (h : Nat) (b : Bytes) : Nat :=
  if leAt b 0 4 ≠ 0x4E43414C || leAt b 4 2 ≠ 1 then 1
  else if leAt b 4092 4 ≠ (crc32 (b.take 4092)).toNat then 2
  else if leAt b 6 2 ≠ rdF s h R.IDENT 31 16 || leAt b 8 8 ≠ s.boot.serial.toNat then 3 else 0

/-- Step 3: the calibration page, or the defaults with EV_CTRL_CHECK. -/
def step3 (s : State) (h : Nat) (warm : Bool) : State :=
  let s := setStage s h 3
  let (s, st, b) := mrd s h (flashBase + 0xFF0000) 4096
  let c := if st = .ok then calStatus s h b else 4
  let s := wrF s h R.CALSTAT 2 0 c
  let s := { s with boot := { s.boot with cal := if c = 0 then b else [] } }
  step4 (if c = 0 then s else journal s h evCtrlCheck false noPart (detail [(16, 1, 11), (17, 1, c)])) h warm

/-- Step 2: the fuses; cold, the factory column repair of each sheet. -/
def step2 (s : State) (h : Nat) (warm : Bool) : State :=
  let s := setStage s h 2
  step3 (if warm then s else (homed s h).foldl (fun s sh =>
    setCsr s h (R.SHCOLREP sh) (tget (fun _ => 0xFFFFFFFF) s.boot.colrep sh)) s) h warm

/-- Step 1: cores 1 to 31 leave service; warm, on-chip memories and powered sheets are cleared, or kept for the
debugger, with core 0 halted until RESUME (R277, R401). -/
def step1 (s : State) (h : Nat) (warm : Bool) : State :=
  let s := setStage s h 1
  let s := (List.range 32).foldl (fun s c =>
    if c = 0 then s else updCore s (32 * h + c) (fun x => { x with rstate := .out })) s
  let s := updCore s (32 * h) (fun c => { c with rstate := .running, bare := true })
  if !warm then step2 s h warm
  else if rdB s h R.DBGCTL 30 then
    setBoot (haltCore (wrB s h R.DBGCTL 30 false) (32 * h) 1 false) h .waitKeep
  else
    let s := clearMems s h 0x7F
    step2 ((homed s h).foldl (fun s sh =>
      if (getSheet s sh).state = .idle then clearSheet s sh else s) s) h warm

/-- A reset ends: every RPOS latch takes its ruling's position (R44), and the boot ROM of every hub starts. -/
def bootStart (s : State) (warm : Bool) : State :=
  let s := { s with rul := { s.rul with latch := s.rul.pos } }
  (List.range 2).foldl (fun s h => if live s h then step1 s h warm else s) s

/-- BOOTSEL as sampled at a release. -/
def sampleSel (s : State) (sel : BitVec 2) (warm : Bool) : State :=
  (List.range 2).foldl (fun s h =>
    if hubOk s h then wrB (wrF s h R.BOOTSTAT 21 20 sel.toNat) h R.BOOTSTAT 18 warm else s) s

/-! ## POR_N (R397) -/

/-- The machine as POR_N leaves it: every field at its reset value, but for what lies outside the reset's reach: the
part and its fuses, the flash, main memory where its devices kept it, the anchor registers, the pins and the
journal of what the pins carried. -/
def porState (s : State) (kept : Bool) : State :=
  let z := State.reset
  let main (k : Nat) : Bool := kept && decide (k < mainTop)
  { z with
    part := s.part
    rul := { z.rul with level := s.rul.level }
    mem := { z.mem with cells := tkeep (fun k => main k || (flashBase ≤ k && k < romBase)) s.mem.cells
                        bad := tkeep main s.mem.bad }
    evi := { z.evi with ancState := s.evi.ancState, ancDir := s.evi.ancDir, ancW := s.evi.ancW, ancD := s.evi.ancD }
    lan := { z.lan with msix := s.lan.msix, sent := s.lan.sent, pfcOut := s.lan.pfcOut }
    fab := { z.fab with vccio := s.fab.vccio }
    dbg := { z.dbg with pinOut := s.dbg.pinOut }
    boot := { z.boot with
      dimm := s.boot.dimm, serial := s.boot.serial, wrapKey := s.boot.wrapKey, colrep := s.boot.colrep,
      fuse := s.boot.fuseNew.foldl (fun t e => tset (fun _ => none) t e.1 e.2) s.boot.fuse }
    pwr := { z.pwr with power := s.pwr.power, pfail := s.pwr.pfail, pcap := s.pwr.pcap, refStop := s.pwr.refStop }
    resp := s.resp
    fresh := s.fresh
    pending := s.pending }

/-! ## WARM_N (R397 and the rules it names) -/

/-- Every register at its WARM_N value. -/
def warmCsr (s : State) : Tab W32 :=
  s.csr.foldl (fun (t : Tab W32) e =>
    tset (csrDflt s.part) t e.1 (regWarm s.part (e.1 / 0x4000000) (e.1 % 0x4000000) e.2)) []

/-- A core at WARM_N: what is marked U stays; a load in progress into it is abandoned with what it would replace
(R239). -/
def warmCore (s : State) (i : Nat) (c : Core) : Core :=
  let loading := match mcLoadOf s (i / 32) with | some l => fld l.cores (i % 32) (i % 32) == 1 | none => false
  let slept := domOf s (64 * (i / 32) + 36 + i % 32 / 8) == .off
  let r := { Core.reset with rstate := if rdB s (i / 32) (R.TNEST (i % 32)) 31 then .out else .idle }
  if loading || slept then { r with mode := rdB s (i / 32) (R.MCCTL (i % 32)) 0 } else
  { r with wcs := c.wcs, dtab := c.dtab, pmatch := c.pmatch, plen := c.plen, clen := c.clen, corg := c.corg,
           patchVer := c.patchVer, tabVer := c.tabVer, pkey := c.pkey, tkey := c.tkey, mode := c.mode }

/-- A sheet at WARM_N (R81, R84): IDLE if powered, a gang of one, its queues empty. -/
def warmSheet (s : State) (sh : Nat) (x : SheetSt) : SheetSt :=
  { sheetDflt sh with
    state := if x.state == .off || domOf s (128 + sh) == .off then .off else .idle
    x := x.x, y := x.y, c := x.c, m := x.m, t := x.t }

/-- A domain at WARM_N: tiles switched off stay off, a die or sheet without power too; every other one is on. -/
def warmDom (s : State) (ix : Nat) (d : DomState) : DomState :=
  if ix < 128 && ix % 64 < 36 then (if rdB s (ix / 64) (R.NTILE (ix % 64)) 30 then .tileOff else .on)
  else if ix < 128 then .on
  else if ix < 160 then (if d = .off then .off else .on)
  else if d = .off && !(rdB s (dieHome s (ix - 160)) (R.NDIE (ix - 160)) 31) then .off else .on

/-- Dirty L1 lines are not written back: each line's stores that had not reached the L2 are lost. Which had is not
the spec's: a free decision for each line (R277). -/
def warmDirty (s : State) : State :=
  let lines := (s.mem.dirty.map (fun e => e.1 / 64)).eraseDups
  let s := (lines.zipIdx).foldl (fun s p =>
    if Config.freeBool (s.fresh + p.2) then
      (s.mem.dirty.filter (fun e => e.1 / 64 == p.1)).foldl (fun s e => match e.2 with
        | some (_, b) => wbs s e.1 [b]
        | none => s) s
    else s) s
  { s with mem := { s.mem with dirty := [], parity := [] }, fresh := s.fresh + lines.length }

/-- STATE fields that WARM_N sets from what stood before: channels, fabric regions, lanes, Depol links off. -/
def warmStates (s t : State) : State :=
  (List.range 2).foldl (fun t h =>
    if !(hubOk t h) then t else
    let t := (List.range 4).foldl (fun t k =>
      if chanState s h k = 2 || chanState s h k = 3 then setChanState t h k 3
      else if chanState s h k = 5 then setChanState t h k 5 else t) t
    let t := (List.range 16).foldl (fun t r =>
      let v := regionState s h r
      if v = frHELD || v = frRUNNING || v = frFENCED then setRegion t h r frHELD else t) t
    let t := (List.range 16).foldl (fun t n =>
      if !(laneOk t h n) then t
      else if (leadOf s h n).isSome then wrF t h (R.LCTL n) 3 0 4
      else if rdB s h (R.LCTL n) 31 && rdF s h (R.LCTL n) 27 24 ≠ 0 then wrF t h (R.LCTL n) 3 0 1 else t) t
    let t := if rdB s h R.PCICFG 31 then setPort (setPort t h 0 0xF 0) h 1 0xF 0 else t
    (List.range 7).foldl (fun t k =>
      if dplOk t h k then setDplState t h k (if rdB s h (R.DPLCTL k) 31 then 1 else 0) else t) t) t

/-- PC and the G and F registers of every core are X after WARM_N (R167): free values. -/
def warmRegs (s : State) : State :=
  (List.range 64).foldl (fun s i =>
    if hubOk s (i / 32) then
      let (s, c) := scrambleRegs s (getCore s i)
      setCore (drawn s) i { c with pc := Config.freeBits 48 s.fresh }
    else s) s

/-- What WARM_N leaves (R43, R49, R114, R140, R165, R220, R239, R262, R265, R277, R313, R332, R352, R368, R375,
R394). -/
def warmApply (s : State) : State :=
  let s := warmDirty s
  let z := State.reset
  let t : State := { s with
    csr := warmCsr s
    cpu := { cores := s.cpu.cores.foldl (fun (t : Tab Core) e =>
        tset (fun _ => Core.reset) t e.1 (warmCore s e.1 e.2)) [], mcLoad := [] }
    rul := { z.rul with pos := tkeep (fun k => decide (0x401 ≤ k % 2048)) s.rul.pos, level := s.rul.level, deb := s.rul.deb }
    arr := { z.arr with planes := s.arr.planes, bad := s.arr.bad
                        sheets := s.arr.sheets.foldl (fun (t : Tab SheetSt) e =>
                          tset sheetDflt t e.1 (warmSheet s e.1 e.2)) [] }
    tok := z.tok
    dsp := { z.dsp with trLost := s.dsp.trLost }
    net := { z.net with
      dom := s.net.dom.foldl (fun (t : Tab DomState) e => tset domDflt t e.1 (warmDom s e.1 e.2)) []
      emul := s.net.emul
      depol := s.net.depol.foldl (fun (t : Tab Depol) e =>
        tset (fun _ => dplDflt) t e.1 { dplDflt with failed := e.2.failed }) [] }
    evi := { z.evi with ancState := s.evi.ancState, ancDir := s.evi.ancDir, ancW := s.evi.ancW, ancD := s.evi.ancD }
    lan := { z.lan with msix := s.lan.msix, sent := s.lan.sent, pfcOut := s.lan.pfcOut }
    fab := { s.fab with targets := [], mresp := [], loadImg := [], pass2 := [], relReq := [] }
    svc := { z.svc with jbuf := s.svc.jbuf, jlost := s.svc.jlost }
    dbg := { s.dbg with presp := [], marginQ := [], traceQ := [], stepping := [] }
    boot := { s.boot with st := [], keep := [], fusing := [] }
    pwr := { s.pwr with power := if s.pwr.power = .stroke then .on else s.pwr.power, warmDue := false, warmRel := false } }
  let t := warmStates s t
  let t := (List.range 2).foldl (fun t h => if domOf s (64 * h + 40) = .off then wakeFabric t h else t) t
  -- dies that were waking at WARM_N are on
  warmRegs ((List.range 6).foldl (fun t a => if domOf s (160 + a) = .waking then setDom t (160 + a) .on else t) t)

/-! ## Commands -/

/-- POR_N_ASSERT (R397): `kept` says whether the memory devices keep their contents (R265). -/
def execPorNAssert (kept : Bool) (s : State) : Out :=
  if s.pwr.power = .off then .next s else
  let t := porState s kept
  .next { t with pwr := { t.pwr with power := if s.pwr.power = .aux then .aux else .on } }

/-- POR_N_RELEASE (R401): the boot ROM starts on the cold path. -/
def execPorNRelease (sel : BitVec 2) (s : State) : Out :=
  if s.pwr.porn || s.pwr.power = .off then .next s else
  let s := { s with pwr := { s.pwr with power := .on, porn := true, warmn := true, refStop := [] } }
  .next (bootStart (sampleSel s sel false) false)

/-- WARM_N_ASSERT (R397); during a stroke it takes effect after step 7 (R306). -/
def execWarmNAssert (s : State) : Out :=
  if !s.pwr.porn || !s.pwr.warmn || s.pwr.power = .aux || s.pwr.power = .off then .next s else
  if (List.range 2).any (fun h => strokeOf s h == .running) then
    .next { s with pwr := { s.pwr with warmDue := true, warmRel := false } }
  else
    let t := warmApply s
    .next { t with pwr := { t.pwr with warmn := false } }

/-- WARM_N_RELEASE (R401): the boot ROM starts on the warm path. A release before a postponed WARM_N has taken effect
samples BOOTSEL; the boot ROM starts once it has taken effect. -/
def execWarmNRelease (sel : BitVec 2) (s : State) : Out :=
  if !s.pwr.porn || (s.pwr.warmn && !s.pwr.warmDue) then .next s else
  let s := sampleSel s sel true
  if s.pwr.warmDue then .next { s with pwr := { s.pwr with warmRel := true } } else
  .next (bootStart { s with pwr := { s.pwr with warmn := true } } true)

/-- CHANNEL_TRAINED (R265, R401 step 4). The memory channel that an SVC CHRETURN trains ends through Service. -/
def channelTrained (s : State) (h k : Nat) (ok : Bool) : State :=
  let s := chanTrained s h k ok
  if bootOf s h = .waitTrain then step4End s h else s

/-- NVME_READY_TIMEOUT: a controller that does not become ready is FAILED; a ring without any other cannot be
recovered (R402). -/
def execNvmeReadyTimeout (h : Hub) (t : Fin 8) (s : State) : Out :=
  if !(live s h.val) || bootOf s h.val ≠ .waitDry || !(rdB s h.val (R.TGT t.val) 31) then .next s else
  let s := failTarget s h.val t.val
  .next (if ringsServed s h.val then s else step9 (recoverLater s h.val) h.val)

/-- SEGMENT_ISSUE: in recovery drying a ready controller of an enabled ring carries it to its end (R309, R402);
otherwise as `segmentIssue`. -/
def execSegmentIssue (h : Hub) (r : Fin 4) (t : Fin 8) (s : State) : Out :=
  if bootOf s h.val = .waitDry then
    if live s h.val && ringEn s h.val r.val && recoverTarget s h.val r.val t.val then
      .next (step9 (recoverHub s h.val) h.val)
    else .next s
  else .next (segmentIssue s h.val r.val t.val)

/-- BOOTCTL_GO: the debugger's image is in place in common memory (R400). -/
def execBootctlGo (m : Master) (h : Hub) (v : W32) (s : State) : Out :=
  if !(live s h.val) || !(mayDebug s m h.val) || fld v 31 31 = 0 || bootSrc s ≠ 2 ||
      bootOf s h.val ≠ .waitImage then .next s else
  match fetchImage s h.val 0x010000000000 with
  | (s, img) => .next (bootTake s img)

end Sys2Proof.Machine
end

