-- ==== Sys2Proof/Machine/Power.lean ====
section
/-! DEFINITION. Supplies, clocks, the array clock's division, temperature, fuses, and the end of the final stroke
(R261, R304 to R308, R404, R410 to R416). -/
namespace Sys2Proof.Machine

/-! ## Supplies and clocks (R261, R395, R413) -/

/-- What VAUX alone keeps is lost with it: the anchor registers, the counts and DRY_OK (R307, R308, R395). -/
def vauxClear (s : State) : State :=
  { s with
    rul := State.reset.rul
    evi := { s.evi with ancState := [], ancDir := [], ancW := [], ancD := [] }
    pwr := { s.pwr with dryOk := false, thermTrip := [], porn := false } }

/-- The supplies other than VAUX are gone: what the always-on block holds stays, and main memory where its devices
kept it. -/
def auxState (s : State) : State :=
  let z := porState s (Config.freeBool s.fresh)
  let vaux (k : Nat) : Bool :=
    let o := k % 0x4000000
    (R.EDGECFG 0 ≤ o && o ≤ R.EDGECFG 9) || o == R.ALARMSTAT
  drawn { z with
    csr := tkeep vaux s.csr
    rul := { z.rul with pos := tkeep (fun k => decide (0x401 ≤ k % 2048)) s.rul.pos, level := s.rul.level, deb := s.rul.deb }
    pwr := { z.pwr with power := .aux, porn := s.pwr.porn, dryOk := s.pwr.dryOk, thermTrip := s.pwr.thermTrip } }

/-- SUPPLY_REMOVAL: every supply but VAUX, or VAUX too (R261). -/
def execSupplyRemoval (vaux : Bool) (s : State) : Out :=
  if s.pwr.power = .off then .next s else
  let s := if s.pwr.power = .aux then s else auxState s
  .next (if vaux then vauxClear { s with pwr := { s.pwr with power := .off } } else s)

/-- VAUX_POWER_UP: the anchor registers are cleared and DRY_OK is low; the board holds POR_N low (R307, R308, R395). -/
def execVauxPowerUp (s : State) : Out :=
  if s.pwr.power ≠ .off then .next s else .next (vauxClear { s with pwr := { s.pwr with power := .aux } })

/-- REFCLK_STOP: the hub does nothing further until POR_N; its peer sees the hub-to-hub link go DOWN (R413). -/
def execRefclkStop (h : Hub) (s : State) : Out :=
  if !(live s h.val) then .next s else
  let s := { s with pwr := { s.pwr with refStop := tset (fun _ => false) s.pwr.refStop h.val true } }
  .next (if live s (1 - h.val) && dplRuns s (1 - h.val) 6 then endDown s (1 - h.val) 6 else s)

/-! ## Temperature (R415, R416) -/

/-- Hub h can read die d: an array die that it homes and that is on, or itself (TSENS). -/
def dieReads (s : State) (h d : Nat) : Bool :=
  if d < 6 then dieOk s d && dieHome s d == h && domOf s (160 + d) == .on else d == 6 + h
def sensorIx (d k : Nat) : Nat := 4 * d + k
/-- TSENS.VALID. -/
def sensorValid (s : State) (h i : Nat) : Bool := rdB s h (R.TSENS i) 31 && dieReads s h (i / 4)
/-- A valid reading, in 1/16 °C. -/
def sensorTemp (s : State) (h i : Nat) : Int := ((csr s h (R.TSENS i)).setWidth 16).toInt
/-- The valid readings of a hub. -/
def readings (s : State) (h : Nat) : List Int :=
  ((List.range 32).filter (sensorValid s h)).map (sensorTemp s h)
/-- PWRSTAT.TMAX: the hottest valid reading in whole °C, saturating. -/
def tmax (s : State) (h : Nat) : Nat :=
  (readings s h).foldl (fun a t => max a (if t < 0 then 0 else min (t.toNat / 16) 255)) 0

/-- Throttling against TTHROT: it begins at TTHROT and ends 5 °C below it (R415). -/
def settleThrottle (s : State) (h : Nat) : State :=
  let lim : Int := rdF s h R.PWRCTL 7 0
  let l := readings s h
  if l.any (fun t => decide (16 * lim ≤ t)) then wrB s h R.PWRSTAT 5 true
  else if l.all (fun t => decide (t < 16 * (lim - 5))) then wrB s h R.PWRSTAT 5 false else s

/-- Offset of a sensor in the calibration page, in 1/16 °C (R404, R405). -/
def calOffset (s : State) (i : Nat) : BitVec 16 := BitVec.ofNat 16 (leAt s.boot.cal (0x140 + 2 * i) 2)

/-- A reading with its offset. A sum beyond 16 bits is not stated: a free value. -/
def trimmed (s : State) (raw off : BitVec 16) : State × BitVec 16 :=
  let t := raw.toInt + off.toInt
  if (BitVec.ofInt 16 t).toInt = t then (s, BitVec.ofInt 16 t) else (drawn s, Config.freeBits 16 s.fresh)

/-- TEMPERATURE_SAMPLE: sensor k of die d gives a reading (R415); 115 °C pulls THERMTRIP_N low until POR_N (R416). -/
def execTemperatureSample (h : Hub) (d : Fin 8) (k : Fin 4) (raw : BitVec 16) (s : State) : Out :=
  if !(live s h.val) || !(dieReads s h.val d.val) then .next s else
  let i := sensorIx d.val k.val
  let (s, t) := trimmed s raw (calOffset s i)
  let s := setCsr s h.val (R.TSENS i) (0x80000000 ||| t.setWidth 32)
  let s := settleThrottle s h.val
  .next (if 16 * 115 ≤ t.toInt then
      { s with pwr := { s.pwr with thermTrip := tset (fun _ => false) s.pwr.thermTrip h.val true } } else s)

/-! ## Division of ACLK (R410 to R412) -/

def pcapLow (s : State) (h : Nat) : Bool := tget (fun _ => false) s.pwr.pcap h
/-- E, the effective division (R410). -/
def effDiv (s : State) (h : Nat) : Nat :=
  max (rdF s h R.PWRCTL 25 24) (max (if pcapLow s h then rdF s h R.PWRCTL 21 20 else 0) (if rdB s h R.PWRSTAT 5 then 3 else 0))
/-- Least FWDIV that a VACODE permits (R411). -/
def leastDiv (vacode : Nat) : Nat := if vacode = 15 then 0 else if 7 ≤ vacode then 1 else 2

/-- PWRCTL by P0; a TTHROT out of range or a FWDIV below the least for its VACODE discards the write (R411). -/
def writePwrctl (s : State) (m : Master) (h : Nat) (v : W32) : State :=
  if !(asP0 s m) || fld v 7 0 < 60 || 110 < fld v 7 0 || fld v 25 24 < leastDiv (fld v 11 8) then s else
  settleThrottle (setCsr s h R.PWRCTL (v &&& 0x03300FFF)) h

/-- PWRCTL_WRITE (R410, R411). -/
def execPwrctlWrite (m : Master) (h : Hub) (v : W32) (s : State) : Out :=
  .next (if live s h.val then writePwrctl s m h.val v else s)

/-- PCAP_N_CHANGE: the level of the hub's PCAP_N ball, a VAUX pin (R410). -/
def execPcapNChange (h : Hub) (low : Bool) (s : State) : Out :=
  if !(hubOk s h.val) then .next s else
  .next { s with pwr := { s.pwr with pcap := tset (fun _ => false) s.pwr.pcap h.val low } }

/-- DIVISION_CHANGE: every sheet of the hub has taken the effective division, and DIVEFF shows it (R410). -/
def execDivisionChange (h : Hub) (s : State) : Out :=
  .next (if live s h.val then wrF s h.val R.PWRSTAT 1 0 (effDiv s h.val) else s)

/-! ## Fuses (R404) -/

def fusingOf (s : State) (h : Nat) : Option (Nat × BitVec 256) := tget (fun _ => none) s.boot.fusing h
/-- Slot k is programmed, now or since the last POR_N. -/
def slotUsed (s : State) (k : Nat) : Bool :=
  (tget (fun _ => none) s.boot.fuse k).isSome || (tget (fun _ => none) s.boot.fuseNew k).isSome
def fuseData (s : State) (h : Nat) : BitVec 256 :=
  of256 ((List.range 8).flatMap (fun i => natLe 4 (csr s h (R.FUSEDATA i)).toNat))

/-- FUSEPRG by P0: SEL 1 to 4, and GO begins programming; while BUSY a write is discarded. -/
def writeFuseprg (s : State) (m : Master) (h : Nat) (v : W32) : State :=
  let sel := fld v 18 16
  if !(asP0 s m) || sel = 0 || 4 < sel || rdB s h R.FUSEPRG 30 then s else
  let s := wrF s h R.FUSEPRG 18 16 sel
  if fld v 31 31 = 0 then s else
  { wrB s h R.FUSEPRG 30 true with boot := { s.boot with
      fusing := tset (fun _ => none) s.boot.fusing h (some (sel, fuseData s h)) } }

/-- FUSE_PROGRAM (R404). -/
def execFuseProgram (m : Master) (h : Hub) (v : W32) (s : State) : Out :=
  .next (if live s h.val then writeFuseprg s m h.val v else s)

/-- FUSE_PROGRAM_DONE: `ok` says whether the slot verified; what it holds takes effect at the next POR_N (R404). -/
def execFuseProgramDone (h : Hub) (ok : Bool) (s : State) : Out :=
  if !(live s h.val) then .next s else
  match fusingOf s h.val with
  | none => .next s
  | some (k, v) =>
    let s := wrB { s with boot := { s.boot with fusing := tset (fun _ => none) s.boot.fusing h.val none } } h.val R.FUSEPRG 30 false
    if slotUsed s k then .next (wrF s h.val R.FUSESTAT 1 0 1)
    else if ok then
      .next (wrF { s with boot := { s.boot with fuseNew := tset (fun _ => none) s.boot.fuseNew k (some v) } } h.val R.FUSESTAT 1 0 0)
    else .next (wrF s h.val R.FUSESTAT 1 0 2)

/-! ## The end of the final stroke (R304 step 7, R306) -/

/-- Every hub in service has reached step 7. -/
def strokeDone (s : State) : Bool :=
  (List.range 2).all (fun h => !(hubInService s h) || strokeOf s h == .finished)

/-- What follows step 7 on every hub: DRY_OK, or the warm reset that the device watchdog or a postponed WARM_N asks
for. -/
def strokeEnd (s : State) : State :=
  let wd := s.evi.cause == 2
  let sel := BitVec.ofNat 2 (bootSrc s)
  let due := s.pwr.warmDue
  let rel := s.pwr.warmRel
  let s := if wd then s else { s with pwr := { s.pwr with dryOk := true } }
  if due && !rel then
    let t := warmApply s
    { t with pwr := { t.pwr with warmn := false } }
  else if due || wd then bootStart (sampleSel (warmApply s) sel true) true
  else s

/-- STROKE_FLUSH_COMPLETE: everything of hub h is dry and every namespace written is flushed (R304). -/
def execStrokeFlushComplete (h : Hub) (s : State) : Out :=
  if !(live s h.val) || strokeOf s h.val ≠ .running || bootOf s h.val = .waitDry || !(allDry s h.val) then .next s else
  let s := { s with evi := { s.evi with
    flush := tset (fun _ => []) s.evi.flush h.val []
    stroke := tset (fun _ => .none) s.evi.stroke h.val .finished } }
  let s := setAncState s h.val
    (if anyRingFailed s h.val then 1 else if ancStateOf s h.val = 3 then 3 else 0)
  .next (if strokeDone s then strokeEnd s else s)

end Sys2Proof.Machine
end

