-- ==== Sys2Proof/Machine/Service.lean ====
section
/-! DEFINITION. Partitions, in-service repair, hub takeover, watchdog expiry and the journal's ring (R52, R83,
R353 to R369, R259). The mailbox (Machine/Mailbox.lean) checks the commands' requesters and arguments. -/
namespace Sys2Proof.Machine

/-! ## Windows of channels (R361) -/

/-- A base lies in the window of channel k of hub h. -/
def inWindow (h k a : Nat) : Bool := decide (chanBase h k ≤ a) && decide (a < chanBase h k + 0x800000000)
/-- A 48-bit base held in two registers. -/
def base48 (s : State) (h lo hi : Nat) : Nat := (csr s h lo).toNat + rdF s h hi 15 0 * 2 ^ 32

/-- Bases of the enabled evidence rings of hub j. -/
def ringBases (s : State) (j : Nat) : List Nat :=
  ((List.range 4).filter (ringEn s j)).map (ringBase s j)
/-- Bases of every other enabled structure of hub j that R361 names. -/
def enabledBases (s : State) (j : Nat) : List Nat :=
  ((List.range 8).filter (fun p => rdB s j (R.BLTCTL p) 31)).map (fun p => base48 s j (R.BLTBASELO p) (R.BLTBASEHI p)) ++
  (if rdB s j R.TRCTL 31 && !(rdB s j R.TRCTL 30) then [base48 s j R.TRBASELO R.TRBASEHI] else []) ++
  (if rdF s j R.CLTSIZE 20 0 ≠ 0 then [cltBase s j] else []) ++
  ((List.range 2).filter (fun f => (streamsOf s j).any (fun e => e.1 / 1024 % 2 == f))).map
    (fun f => base48 s j (R.STBASELO f) (R.STBASEHI f)) ++
  ((List.range 8).filter (fun t => rdB s j (R.TGT t) 31)).flatMap
    (fun t => [base48 s j (R.SQBASELO t) (R.SQBASEHI t), base48 s j (R.CQBASELO t) (R.CQBASEHI t)]) ++
  (if rdB s j R.JCTL 31 then [base48 s j R.JBASELO R.JBASEHI] else []) ++
  ((List.range 16).filter (fun n => rdB s j (R.RXSIZE n) 31)).map (fun n => base48 s j (R.RXBASELO n) (R.RXBASEHI n)) ++
  ((List.range 16).filter (fun n => rdB s j (R.TXSIZE n) 31)).map (fun n => base48 s j (R.TXBASELO n) (R.TXBASEHI n)) ++
  ((List.range 64).filter (fun c => rdB s j (R.LCH c) 31 && !(rdB s j (R.LCH c) 29))).map
    (fun c => base48 s j (R.LCHBASELO c) (R.LCHBASEHI c)) ++
  ((List.range 8).filter (fun p => rdB s j (R.SDCTL p) 31)).map (fun p => base48 s j (R.SNAPLO p) (R.SNAPHI p)) ++
  ((loadOf s j).map (fun l => imgAddr l.1)).toList ++ ((mcLoadOf s j).map (fun l => l.image.toNat)).toList

/-- The window rule: an enabled structure lies in the channel's window; with `force` only evidence rings count. -/
def windowUsed (s : State) (h k : Nat) (force : Bool) : Bool :=
  (List.range 2).any (fun j => hubOk s j &&
    (ringBases s j ++ (if force then [] else enabledBases s j)).any (inWindow h k))

/-! ## PART (R353, R354) -/

def partEn (s : State) (p : Nat) : Bool := rdB s 0 (R.PCFG p) 31

/-- Partition p owns a resource of hub j, holds a context, or has a quota or share there. -/
def ownsOn (s : State) (j p : Nat) : Bool :=
  csr s j (R.PCORES p) != 0 || rdF s j (R.PCFG p) 3 0 != 0 ||
  (homed s j).any (fun sh => rdF s j (R.SHCFG sh) 26 24 == p) ||
  (List.range 16).any (fun b => bankOwner s j b == p) ||
  csr s j (R.MARKQ p) != 0 || rdF s j (R.CTXQ p) 28 16 != 0 || csr s j (R.LIGQ p) != 0 || rdB s j (R.BLTCTL p) 31 ||
  (List.range 4096).any (fun f => rdF s j (R.FLOW f) 30 28 == p) ||
  (List.range 16).any (fun n => rdF s j (R.LCTL n) 22 20 == p) ||
  rdF s j R.PCICFG 10 8 == p || rdF s j R.PCICFG 14 12 == p || rdF s j R.PCICFG 18 16 == p ||
  (List.range 64).any (fun c => rdF s j (R.LCH c) 28 26 == p) ||
  (List.range 1024).any (fun r => rdF s j (R.RCFG r) 27 25 == p) ||
  (streamsOf s j).any (fun e => ePart e.2 == p) ||
  (List.range 4).any (fun r => rdF s j (R.ERCTL r) 30 28 == p) ||
  (List.range 8).any (fun t => rdF s j (R.TGT t) 29 27 == p) ||
  (List.range 16).any (fun r => rdF s j (R.FREG r) 26 24 == p) || ctxUsed s j p != 0

/-- The state code of a PART that is refused, 0 when it is carried out (R354, R356). -/
def partCode (s : State) (op p hub : Nat) (mask : W32) : Nat :=
  let hubs := (List.range 2).filter (hubOk s)
  match op with
  | 1 => if partEn s p then 2 else 0
  | 2 => if p = 0 || hubs.any (fun j => ownsOn s j p) then 3 else 0
  | 3 =>
    if (List.range 32).any (fun c => fld mask c c == 1 && (getCore s (32 * hub + c)).rstate != .out) then 2
    else if !(partEn s p) then 7 else 0
  | _ => if (List.range 4).any (fun k => fld mask k k == 1 && windowUsed s hub k false) then 5 else 0

/-- Give the resources of a mask to p, from whoever had them. -/
def giveMask (s : State) (h p hi : Nat) (off : Nat → Nat) (mask : W32) : State :=
  (List.range 8).foldl (fun s q =>
    let v := rdF s h (off q) hi 0
    wrF s h (off q) hi 0 (BitVec.ofNat 32 v &&& ~~~mask ||| (if q = p then mask else 0)).toNat) s

/-- A PART that is carried out. -/
def partDo (s : State) (op p hub plane : Nat) (mask : W32) : State :=
  let both (f : State → Nat → State) : State := (List.range 2).foldl (fun s j => if hubOk s j then f s j else s) s
  match op with
  | 1 => both (fun s j => wrB (wrF s j (R.PCFG p) 30 30 plane) j (R.PCFG p) 31 true)
  | 2 => both (fun s j => wrB s j (R.PCFG p) 31 false)
  | 3 => giveMask s hub p 31 R.PCORES mask
  | _ => giveMask s hub p 3 R.PCFG mask

/-! ## SVC: what each operation asks and does (R355 to R361) -/

/-- Kinds of resource: sheet, core, array die, channel, hub. -/
def svcKind (op : Nat) : Nat :=
  if op ≤ 4 then 0 else if op ≤ 6 then 1 else if op ≤ 8 then 2 else if op ≤ 10 then 3 else 4
/-- Another operation on the resource is in progress; a change of the sheet's gang that AGANG began counts as one. -/
def svcBusy (s : State) (op h i : Nat) : Bool :=
  s.svc.svcs.any (fun v => svcKind v.op == svcKind op && v.index == i && (svcKind op == 0 || svcKind op == 2 || v.hub == h)) ||
  (svcKind op == 0 && changing s i)

/-- The index names a resource of the part. -/
def svcPresent (s : State) (op h i : Nat) : Bool :=
  hubOk s h && (match svcKind op with
    | 0 => decide (i < 24) && sheetOk s i
    | 1 => decide (i < 32)
    | 2 => dieOk s i
    | 3 => decide (i < 4) && chanOk s h i
    | _ => i == 0)

/-- A replacement sheet fits (R357). -/
def fitReplacement (s : State) (sh r : Nat) : Bool :=
  decide (r < 24) && sheetOk s r && r != sh && isGang s r && (members s r).length == 1 &&
  (getSheet s r).state == .idle && sheetPart s r == sheetPart s sh && hubInService s (sheetHome s r) &&
  !(changing s r) && !(s.svc.svcs.any (fun v => svcKind v.op == 0 && v.index == r))

/-- The resource's state allows the operation (the table of R355). -/
def svcLegal (s : State) (op h i : Nat) : Bool :=
  let st := (getSheet s i).state
  match op with
  | 1 => (st == .idle || st == .run || st == .fault) &&
      (members s (getSheet s i).gid).all (fun m => m == i || (getSheet s m).state != .fault)
  | 2 => st == .evac
  | 3 | 4 => st == .evac || st == .retired
  | 5 => (getCore s (32 * h + i)).rstate != .out
  | 6 => (getCore s (32 * h + i)).rstate == .out && !(rdB s h (R.TNEST i) 31)
  | 7 => (domOf s (160 + i) == .on || domOf s (160 + i) == .off) && dieQuiet s i
  | 8 => domOf s (160 + i) == .off
  | 9 => chanState s h i == 2 || chanState s h i == 3 || chanState s h i == 5
  | 10 => chanState s h i == 4
  | _ => s.svc.taken.isNone

/-- The state code of an SVC that is refused, 0 when it starts (R356); of several the lowest. -/
def svcCode (s : State) (box op h i arg : Nat) (force : Bool) : Nat :=
  if !(reach s box h) || !(svcLegal s op h i) then 2
  else if op = 1 && arg ≠ 0xFF && !(fitReplacement s i arg) then 4
  else if op = 9 && windowUsed s h i force then 5
  else if svcBusy s op h i then 6
  else if op = 11 && !force && live s (1 - h) && reach s h (1 - h) then 8 else 0

/-- A resource leaves service by command: EV_ISOLATE, reason 1 (R371). -/
def leftService (s : State) (h kind i : Nat) : State :=
  journal s h evIsolate false noPart (detail [(16, 1, kind), (17, 1, i), (18, 1, 1)])

/-- RETURN of a core: idle, its G and F registers undefined (R360). -/
def returnCore (s : State) (h c : Nat) : State :=
  let (s, x) := scrambleRegs s (getCore s (32 * h + c))
  let s := setCore s (32 * h + c) { x with rstate := .idle }
  placeBacklog s h (corePart s (32 * h + c))

/-- RETURN of a sheet: through CLEAR, as a gang of one (R358). -/
def returnSheet (s : State) (sh : Nat) : State :=
  updSheet (setDom (singles s [sh]) (128 + sh) .waking) sh (fun x => { x with state := .clear })

/-- DIEOFF: the home port is fenced, its link OFF, and PWREN 0 asks for the power-off (R359). -/
def dieOff (s : State) (a : Nat) : State :=
  let h := dieHome s a
  let k := dieLink h a
  let s := leftService s h 5 a
  let s := setDplState (wrB (wrB s h (R.DPLCTL k) 30 true) h (R.DPLCTL k) 31 false) h k 0
  let s := wrB s h (R.NDIE a) 31 false
  if domOf s (160 + a) = .on then setDom s (160 + a) .fencing else s

/-- DIEON: the link trains and the die is powered (R359). -/
def dieOn (s : State) (a : Nat) : State :=
  let h := dieHome s a
  let k := dieLink h a
  wakeDie (wrB (wrB s h (R.DPLCTL k) 30 false) h (R.DPLCTL k) 31 true) a

/-- A channel's bit in every CHMASK. -/
def clearChmask (s : State) (h k : Nat) : State :=
  (List.range 8).foldl (fun s q => wrF s h (R.PCFG q) k k 0) s

/-- Start of an SVC operation that no state code refuses; what ends at once ends here. -/
def svcStart (s : State) (box : Hub) (op h i arg : Nat) (force : Bool) (tok : Option W64) : State :=
  let s := { s with svc := { s.svc with svcs := s.svc.svcs ++ [{ op := op, hub := h, index := i, tok := tok, box := box }] } }
  match op with
  | 1 => addChange s (.evac i (if arg = 0xFF then none else some arg))
  | 2 => updSheet s i (fun x => { x with state := .test })
  | 3 => returnSheet s i
  | 4 => svcEnd (updSheet s i (fun x => { x with state := .retired })) 4 h i 0
  | 5 =>
    let c := 32 * h + i
    let s := leftService s h 1 i
    if force || (getCore s c).isIdle then abandon s c
    else moveReady (updCore s c (fun x => { x with drain := true })) c
  | 6 => svcEnd (returnCore s h i) 6 h i 0
  | 7 => if domOf s (160 + i) = .off then svcEnd s 7 h i 0 else dieOff s i
  | 8 => dieOn s i
  | 9 => svcEnd (leftService (clearChmask (setChanState s h i 4) h i) h 6 i) 9 h i 0
  | 10 => setChanState s h i 1
  | _ => startTakeover { s with svc := { s.svc with tkForce := tset (fun _ => false) s.svc.tkForce h force } } h

/-! ## Sheets: EVAC takes effect, self-test (R83, R357, R358) -/

/-- The members' gang with s replaced by r. -/
def replaceSheet (s : State) (sh r : Nat) : State :=
  let x := getSheet s sh
  let ms := members s x.gid
  let gid := if x.gid = sh then r else x.gid
  let s := ms.foldl (fun s m => if m = sh then s else updSheet s m (fun y => { y with gid := gid })) s
  let s := seat (singles s [sh]) r gid x.gw x.gh x.gx x.gy
  if gid = x.gid then s else setGang (setGang s gid (getGang s x.gid)) x.gid gangDflt

/-- A pending evacuation of sheet sh takes effect (R357). -/
def evacEffect (s : State) (sh : Nat) : State :=
  match (pendingChanges s).find? (fun e => match e.2 with | .evac e _ => e == sh | _ => false) with
  | some (id, .evac e r) =>
    let c := GChange.evac e r
    if !(changeReady s id c) then s else
    let h := sheetHome s sh
    let g := (getSheet s sh).gid
    let s := unqueueChange s id (changeGangs s c)
    let ms := members s g
    let s := match r with
      | some r => replaceSheet s sh r
      | none => freshGangs (singles s ms) ms
    let s := updSheet s sh (fun x => { x with state := .evac, inQ := [], outQ := [], stack := [] })
    svcEnd (leftService (faultOver s g) h 2 sh) 1 h sh 0
  | _ => s

/-- EVAC_EFFECT (R357). -/
def execEvacEffect (sh : Sheet) (s : State) : Out :=
  .next (if live s (sheetHome s sh.val) then evacEffect s sh.val else s)

/-- BIST_COMPLETE: the self-test ends with its findings (R83, R358). -/
def execBistComplete (sh : Sheet) (logicf : Bool) (bad : BitVec 132) (s : State) : Out :=
  if !(live s (sheetHome s sh.val)) || (getSheet s sh.val).state ≠ .test then .next s else
  let s := bistDone s sh.val logicf bad
  let failed := (getSheet s sh.val).state == .retired
  .next (svcEnd s 2 (sheetHome s sh.val) sh.val (b2n failed))

/-! ## Power domains (R257 to R259, R403) -/

/-- The sheets of a die lose their power with it: OFF, contents lost. -/
def dieSheetsOff (s : State) (a : Nat) : State :=
  (List.range 4).foldl (fun s k =>
    let sh := 4 * a + k
    setDom (updSheet (clearSheet s sh) sh (fun x => { x with state := .off })) (128 + sh) .off) s

/-- POWER_REMOVE (R258); DIEOFF ends when the die is off (R355). -/
def execPowerRemove (h : Hub) (d : Domain) (s : State) : Out :=
  let j := domHub s h.val d
  if !(live s j) || domOf s (domIx h.val d) ≠ .acked then .next s else
  match d with
  | .die a => .next (svcEnd (powerRemove (dieSheetsOff s a.val) h.val d) 7 j a.val 0)
  | _ => .next (powerRemove s h.val d)

/-- With MCAUTO the loader reloads the recorded images into the cores of a cluster before they enter service (R403). -/
def reloadCluster (s : State) (h g : Nat) : State :=
  if !(tget (fun _ => false) s.boot.mcauto h) then s else
  let l := (List.range 8).map (fun k => 32 * h + 8 * g + k)
  let was := l.map (fun i => (getCore s i).rstate)
  let s := l.foldl (fun s i => updCore s i (fun c => { c with rstate := .out })) s
  let load (s : State) (a : Nat) : State := if a = 0 then s else (mcRun s h a (BitVec.ofNat 32 (0xFF * 2 ^ (8 * g)))).1
  let s := load (load s (base48 s h R.MCIMGPLO R.MCIMGPHI)) (base48 s h R.MCIMGCLO R.MCIMGCHI)
  (l.zip was).foldl (fun s e => updCore s e.1 (fun c => { c with rstate := e.2 })) s

/-- The first readings of a woken die are still to come. -/
def staleSensors (s : State) (h a : Nat) : State :=
  (List.range 4).foldl (fun s k => wrB s h (R.TSENS (sensorIx a k)) 31 false) s

/-- WAKE_COMPLETE: a woken domain is on, cleared, and delivers its held packets in order (R17, R259, R403). -/
def execWakeComplete (h : Hub) (d : Domain) (s : State) : Out :=
  let j := domHub s h.val d
  let ix := domIx h.val d
  if !(live s j) || domOf s ix ≠ .waking then .next s else
  match d with
  | .sheet sh => .next (clearDone s sh.val)
  | .cluster g =>
    let s := (List.range 8).foldl (fun s k => wakeCore s (32 * h.val + 8 * g.val + k)) s
    .next (deliverHeld (setDom (reloadCluster s h.val g.val) ix .on) ix)
  | .fabric => .next (deliverHeld (setDom (wakeFabric s h.val) ix .on) ix)
  | .die a =>
    let k := dieLink j a.val
    if dplState s j k = 1 then .next s else
    let up := dplState s j k == 3 || dplState s j k == 4
    .next (svcEnd (deliverHeld (setDom (staleSensors s j a.val) ix .on) ix) 8 j a.val (b2n !up))
  | .tile _ => .next (deliverHeld (setDom s ix .on) ix)

/-- CHANNEL_TRAINED (R265); it ends an SVC CHRETURN, and the channel is P0's again. -/
def execChannelTrained (h : Hub) (k : Fin 4) (ok : Bool) (s : State) : Out :=
  if !(live s h.val) || !(chanOk s h.val k.val) || chanState s h.val k.val ≠ 1 then .next s else
  let back := s.svc.svcs.any (fun v => v.op == 10 && v.hub == h.val && v.index == k.val)
  let s := if back then wrF s h.val (R.PCFG 0) k.val k.val 1 else s
  .next (svcEnd (channelTrained s h.val k.val ok) 10 h.val k.val (b2n !ok))

/-! ## Hub takeover (R363, R364) -/

/-- What die a reports of its home link: 0 UP, 1 DOWN or OFF, 2 neither. A hub without clocks drives none. -/
def homeLink (s : State) (peer a : Nat) : Nat :=
  let st := dplState s peer (dieLink peer a)
  if !(live s peer) || st = 5 || st = 0 then 1 else if st = 3 || st = 4 then 0 else 2

/-- Step 2 and 3 for one die: its standby link carries traffic, its sheets move with their groups and are cleared. -/
def adoptDie (s : State) (h peer a : Nat) : State :=
  let s := (List.range 4).foldl (fun s k =>
    let sh := 4 * a + k
    setCsr (setCsr s h (R.SHCFG sh) (csr s peer (R.SHCFG sh))) h (R.SHCOLREP sh) (csr s peer (R.SHCOLREP sh))) s
  let s := if dplState s h (dieLink h a) = 2 then setDplState s h (dieLink h a) 3 else s
  let s := setDplState s peer (dieLink peer a) 5
  let s := { s with arr := { s.arr with home := tset (fun a => if a < 3 then 0 else 1) s.arr.home a h } }
  (List.range 4).foldl (fun s k =>
    let sh := 4 * a + k
    let st := (getSheet s sh).state
    let s := setGang s sh gangDflt
    if st == .off || st == .evac || st == .test || st == .retired then s
    else updSheet s sh (fun x => { x with state := .clear, inQ := [], outQ := [], stack := [] })) s

/-- Step 5: the taken hub's cores are out of service; its contexts, instances, flows and marks are lost. -/
def dropHub (s : State) (p : Nat) : State :=
  let s := (List.range 32).foldl (fun s c => updCore s (32 * p + c) (fun x => { x with
    rstate := .out, running := none, bare := false, sleep := false, drain := false, preempt := false, fpu := none,
    lladdr := 0, portWait := false, ports := [], micro := none })) s
  let keep (n : Nat) (k : Nat) : Bool := k / n != p
  { s with
    rul := { s.rul with marks := tkeep (keep 16384) s.rul.marks
                        fired := s.rul.fired.filter (fun t => t.dst.val != p) }
    tok := { s.tok with
      transit := s.tok.transit.filter (fun t => t.dst.val != p), aq := tkeep (keep 16) s.tok.aq
      spill := tkeep (keep 16) s.tok.spill, blook := tkeep (keep 16) s.tok.blook
      entries := s.tok.entries.filter (fun e => e.hub.val != p), ctxs := tkeep (keep 4096) s.tok.ctxs
      cancels := s.tok.cancels.filter (fun c => c.dst.val != p), sweeps := s.tok.sweeps.filter (fun e => e.1.val != p)
      affin := s.tok.affin.filter (fun e => e.1 / 0x100000 != p && e.2 / 32 != p)
      marker := tkeep (keep 8) s.tok.marker, throttled := tkeep (keep 8) s.tok.throttled }
    dsp := { s.dsp with
      inbox := tkeep (keep 1) s.dsp.inbox, ready := tkeep (keep 32) s.dsp.ready, backlog := tkeep (keep 8) s.dsp.backlog
      frames := tkeep (keep 8192) s.dsp.frames, flows := tkeep (keep 4096) s.dsp.flows
      ligs := s.dsp.ligs.filter (fun e => e.hub.val != p) } }

/-- Changes that wait on a gang of a taken hub are lost with its issue queues. -/
def dropChanges (s : State) (dies : List Nat) : State :=
  (pendingChanges s).foldl (fun s e =>
    if (changeSheets s e.2).any (fun sh => dies.contains (sh / 4)) then unqueueChange s e.1 (changeGangs s e.2) else s) s

/-- A takeover ends: 2 done, 3 peer alive, 4 dies disagree. -/
def endTakeover (s : State) (h st : Nat) : State :=
  let s := wrF s h R.TKCTL 27 25 st
  let s := { s with svc := { s.svc with tkForce := tset (fun _ => false) s.svc.tkForce h false } }
  svcEnd s 11 h 0 (if st = 2 then 0 else 1)

/-- The steps of R364. -/
def adoptHub (s : State) (h : Nat) (byCmd : Bool) : State :=
  let peer := 1 - h
  let dies := (List.range 6).filter (fun a => dieOk s a && dieHome s a == peer)
  let s := wrB s h (R.DPLCTL 6) 30 true
  let s := { s with svc := { s.svc with taken := some (hubFin peer) } }
  let s := alarm (journal s h evIsolate true noPart
    (detail [(16, 1, 8), (17, 1, peer), (18, 1, if byCmd then 1 else 5)])) h 2
  let s := dies.foldl (fun s a => adoptDie s h peer a) (dropChanges s dies)
  let s := if rdB s h R.MIRCTL 31 && !(rdB s h R.MIRCTL 29) then adopt s h false else s
  endTakeover (dropHub s peer) h 2

/-- TAKEOVER_ADOPT: the peer-homed dies have reported the state of their home links (R363). -/
def execTakeoverAdopt (h : Hub) (s : State) : Out :=
  if !(live s h.val) || !(hubOk s 1) || rdF s h.val R.TKCTL 27 25 ≠ 1 || s.svc.taken.isSome then .next s else
  let peer := 1 - h.val
  let l := ((List.range 6).filter (fun a => dieOk s a && dieHome s a == peer)).map (homeLink s peer)
  let byCmd := s.svc.svcs.any (fun v => v.op == 11 && v.hub == h.val)
  if tget (fun _ => false) s.svc.tkForce h.val || l.all (· == 1) then .next (adoptHub s h.val byCmd)
  else if l.all (· == 0) then .next (endTakeover s h.val 3)
  else .next (alarm (endTakeover s h.val 4) h.val 2)

/-! ## Watchdogs (R52) -/

/-- An expiry that is due, with the units that arrived beyond it. -/
def wdExpiry (s : State) (h w : Nat) : Option Nat := tget (fun _ => none) s.rul.wdDue (wdKey h w)
def wdTaken (s : State) (h w : Nat) : State :=
  { s with rul := { s.rul with wdDue := tset (fun _ => none) s.rul.wdDue (wdKey h w) none } }

/-- EV_WATCHDOG. -/
def wdRecord (s : State) (h part core dev act : Nat) (alarm : Bool) : State :=
  journal s h evWatchdog alarm part (detail [(16, 1, dev), (17, 1, core), (18, 1, act)])

/-- CORE_WATCHDOG_EXPIRY: WATCH and a reload the first time; the second time the core is drained by force (R52). -/
def execCoreWatchdogExpiry (c : CoreId) (s : State) : Out :=
  let h := c.hub.val
  let w := c.num.val
  let i := coreIx c
  let k := wdKey h w
  match wdExpiry s h w with
  | none => .next s
  | some more =>
    if !(live s h) then .next s else
    let p := corePart s i
    let s := wdTaken s h w
    if !(tget (fun _ => false) s.rul.wdOnce k) then
      let s := { s with rul := { s.rul with wdOnce := tset (fun _ => false) s.rul.wdOnce k true } }
      let s := unquiet (wdRecord (updCore s i (fun x => { x with watch := true })) h p w 0 1 false) p
      .next (wdCount (setCsr s h (R.WDCNT w) (csr s h (R.WDLOAD w))) h w more)
    else
      let s := wdRecord s h p w 0 2 false
      let s := journal s h evIsolate false p (detail [(16, 1, 1), (17, 1, w), (18, 1, 2)])
      .next (if (getCore s i).rstate = .out then s else abandon s i)

/-- DEVICE_WATCHDOG_EXPIRY: ALARMSTAT.DEVWD, and with ACT the final stroke and a warm reset (R52). -/
def execDeviceWatchdogExpiry (h : Hub) (s : State) : Out :=
  match wdExpiry s h.val 32 with
  | none => .next s
  | some _ =>
    if !(live s h.val) then .next s else
    let act := rdB s h.val (R.WDCFG 32) 30
    let s := wdRecord (alarm (wdTaken s h.val 32) h.val 0) h.val noPart 0 1 (if act then 4 else 3) true
    .next (if act then startStroke s 2 else s)

/-! ## The journal's ring (R369) -/

/-- JCTL by P0: JPAGES is guarded by EN, 0 discards the write; setting EN writes what waits on chip. -/
def writeJctl (s : State) (m : Master) (h : Nat) (v : W32) : State :=
  let old := csr s h R.JCTL
  if !(asP0 s m) || fld v 19 0 = 0 || (fld old 31 31 = 1 && fld v 19 0 ≠ fld old 19 0) then s else
  let s := setCsr s h R.JCTL (v &&& 0x800FFFFF)
  if fld old 31 31 = 0 && fld v 31 31 = 1 then jflush s h else s

/-- JOURNAL_ENABLE (R369). -/
def execJournalEnable (m : Master) (h : Hub) (v : W32) (s : State) : Out :=
  .next (if live s h.val then writeJctl s m h.val v else s)

end Sys2Proof.Machine
end

