-- ==== Sys2Proof/Machine/Csr.lean ====
section
/-! DEFINITION. Reads and writes of registers: which answer, what a read shows, and what a write does by its access
codes (R15), its owner, and the rules that discard it (R16, R427, R428). -/
namespace Sys2Proof.Machine

/-! ## Which registers answer (R5, R85, R249, R380) -/

/-- The tile whose block holds the register at `off` (R241). -/
def csrTile (off : Nat) : Nat :=
  match off / 0x100000 with
  | 2 => tAIU
  | 3 => tMTC
  | 4 => tDSP
  | 5 => if off < 0x520000 then tCore (off / 0x1000 % 0x20) else tSYS
  | 7 =>
    if off < 0x704000 then tMC (off / 0x1000 % 4)
    else if 0x708100 ≤ off && off < 0x708180 then tCore ((off - 0x708100) / 4)
    else if 0x708000 ≤ off && off < 0x7080A0 then
      (match (off - 0x708000) / 0x20 with | 0 => tL2 0 | 1 => tL2 1 | 2 => tCMM 0 | 3 => tCMM 1 | _ => tAIU)
    else tSYS
  | 8 => tCHP
  | 9 => tLN (off / 0x80000 % 2)
  | 10 => tPCI
  | 11 => tFAB (if 0xB00280 ≤ off && off < 0xB00300 then 4 else 0)
  | 15 => tMIR
  | _ => tSYS

/-- The debug block answers the debug master at FULL, and the boot ROM, which may write the overstrike units. -/
def debugAnswers (s : State) (m : Master) : Bool :=
  dbgFull s m || match m with | .bootRom _ => true | _ => false

/-- A register group of hub h answers: its block is there and not fenced (assumption 102). -/
def csrAnswers (s : State) (m : Master) (h off : Nat) : Bool :=
  decide (off < 0x1000000) && !(tileIso s h (csrTile off)) &&
  (if 0xD00000 ≤ off && off < 0xE00000 then debugAnswers s m
   else if 0x201000 ≤ off && off < 0x219000 then
     let sh := (off - 0x201000) / 0x1000
     sheetOk s sh && sheetHome s sh == h
   else if 0x604040 ≤ off && off < 0x604058 then
     let a := (off - 0x604040) / 4
     dieOk s a && dieHome s a == h
   else if 0x700000 ≤ off && off < 0x704000 then chanOk s h (off / 0x1000 % 4)
   else if 0x900000 ≤ off && off < 0xA00000 then laneOk s h (off / 0x10000 % 16)
   else true)

/-- The register at `off` of hub h answers a master that stands on hub eh. -/
def csrOk (s : State) (m : Master) (eh h off : Nat) : Bool := reach s eh h && csrAnswers s m h off

/-- A read without side effects (R381). -/
def isPeek : Master → Bool
  | .debug _ _ => true
  | _ => false

/-! ## What a read shows -/

/-- Bits of a register that a read returns: those of every field but WO (R15). -/
def readMask (d : RegDesc) : W32 :=
  BitVec.ofNat 32 (d.flds.foldl (fun a f => if f.acc = .wo then a else a + f.mask) 0)

def w32 (n : Nat) : W32 := BitVec.ofNat 32 n

def viewGlobal (s : State) (h : Nat) (d : RegDesc) (i : Nat) (old : W32) : W32 :=
  if d.base = R.PWRSTAT then
    setFld (setFld (setFld old 15 8 (tmax s h)) 6 6 (b2n (tget (fun _ => false) s.pwr.thermTrip h))) 4 4 (b2n (pcapLow s h))
  else if d.base = R.TSENS 0 then setFld old 31 31 (b2n (sensorValid s h i))
  else old

def viewRulings (s : State) (m : Master) (h : Nat) (d : RegDesc) (i : Nat) (old : W32) : W32 :=
  if d.base = R.RUMARKS then setFld old 14 0 (marksOf s h).length
  else if d.base = R.RPOSLO 0 then lo32 (rulPos s h i)
  else if d.base = R.RPOSHI 0 then
    hi32 (if isPeek m then rulPos s h i else tget (fun _ => 0) s.rul.latch (2048 * h + i))
  else old

/-- SHSTAT.STATE codes. -/
def stateCode : ShState → Nat
  | .off => 0 | .clear => 1 | .idle => 2 | .run => 3 | .halt => 4 | .fault => 5 | .evac => 6 | .test => 7 | .retired => 8

def viewArray (s : State) (h : Nat) (d : RegDesc) (i : Nat) (old : W32) : W32 :=
  let G := getGang s i
  let x := getSheet s i
  if d.base = R.AIFLT0 0 then (if gangHere s h i then G.flt0 else 0)
  else if d.base = R.AIFLT1 0 then (if gangHere s h i then G.flt1 else 0)
  else if d.base = R.AIQ 0 then
    if !(gangHere s h i) then 0 else
    let chg := G.queue.any (fun q => match q with | .change _ => true | _ => false)
    w32 (b2n chg * 2 ^ 16 + (match G.claim with | some c => 2 ^ 15 + c % 32 * 2 ^ 8 | none => 0) + min (wordsIn G.queue) 64)
  else if d.base = R.SHSTAT 0 then
    let gang := getGang s x.gid
    w32 (sheetHome s i * 2 ^ 11 + b2n (!gang.blots.isEmpty) * 2 ^ 10 + b2n (!x.outQ.isEmpty) * 2 ^ 9 +
      b2n (!x.inQ.isEmpty) * 2 ^ 8 + stateCode x.state)
  else if d.base = R.SHGANG 0 then w32 (x.gid * 2 ^ 20 + x.gh * 2 ^ 15 + x.gw * 2 ^ 10 + x.gy * 2 ^ 5 + x.gx)
  else if d.base = R.SHBLOT 0 then (getGang s x.gid).finder
  else if d.base = R.SHLPIN 0 then x.inRuns.setWidth 32 <<< 16
  else if d.base = R.SHLPOUT 0 then x.outRuns.setWidth 32 <<< 16
  else old

def ctxCode : CtxState → Nat
  | .free => 0 | .live => 1 | .purge => 2

def viewMatch (s : State) (h : Nat) (d : RegDesc) (i : Nat) (old : W32) : W32 :=
  let c := rdF s h R.CTXSEL 11 0
  if d.base = R.CTXINFO0 then
    let x := getCtx s h c
    w32 (ctxCode x.state * 2 ^ 30 + x.part * 2 ^ 27 + usedBy s h c % 2 ^ 26)
  else if d.base = R.CTXINFO1 then w32 ((ctxEntries s h c).filter (fun e => e.place != .way)).length
  else if d.base = R.CTXINFO2 then (getCtx s h c).late
  else if d.base = R.MBSTAT 0 then w32 (bankOcc s h i * 2 ^ 16 + min (getAq s h i).length 2047)
  else if d.base = R.CTXQ 0 then setFld old 12 0 (ctxUsed s h i)
  else if d.base = R.MSOCC 0 then w32 (b2n (throttledNow s h i) * 2 ^ 31 + storeUsed s h i)
  else if d.base = R.PGCAP 0 then w32 (bankCap s h i)
  else if d.base = R.BLTUSE 0 then
    let pages := poolPages s h i
    w32 (b2n (poolTotal s h i != 0 && decide (poolTotal s h i ≤ pages)) * 2 ^ 31 + pages)
  else old

/-- DCORE.RSTATE of core i (06). -/
def rstateCode (s : State) (i : Nat) : Nat :=
  let c := getCore s i
  match c.rstate with
  | .out => 4
  | .resuming => 2
  | .saving => 3
  | .running => 1
  | .idle => if wakingOut s i then 4 else if c.running.isSome || c.bare then 1 else 0

def viewDispatch (s : State) (h : Nat) (d : RegDesc) (i : Nat) (old : W32) : W32 :=
  if d.base = R.FRCOUNT 0 then
    setFld old 26 16 ((List.range (frameCount s h i)).filter (fun f => frameUsed s h i f)).length
  else if d.base = R.BACKLOG 0 then w32 (backlogOf s h i).length
  else if d.base = R.DCSTATE 0 then
    let cls := match (getCore s (32 * h + i)).running with | some x => x.cls | none => 0
    w32 (cls * 16 + rstateCode s (32 * h + i))
  else if d.base = R.RLON 0 then w32 (readyOf s (32 * h + i)).on.length
  else if d.base = R.RLSPILL 0 then w32 (readyOf s (32 * h + i)).spilled
  else if d.base = R.CANSTAT then
    match sweepsOf s h with
    | [] => 0
    | e :: l => w32 (2 ^ 31 + (l.length + 1) * 2 ^ 16 + e.2.1.toNat)
  else if d.base = R.LIGOCC then w32 (s.dsp.ligs.filter (fun e => e.hub.val == h && e.onchip)).length
  else if d.base = R.LIGU 0 then w32 (s.dsp.ligs.filter (fun e => e.hub.val == h && e.onchip && e.part == i)).length
  else if d.base = R.NEXTALLOC 0 then (flowOf s h i).alloc
  else if d.base = R.NEXTREL 0 then (flowOf s h i).rel
  else if d.base = R.FLOWPEND 0 then
    let x := flowOf s h i
    let wait := flowPending x != 0 && (match ligAt s h i x.rel with | some e => e.fill.isNone | none => false)
    w32 (b2n wait * 2 ^ 31 + flowPending x)
  else old

def viewCore (s : State) (h : Nat) (d : RegDesc) (i j : Nat) (old : W32) : W32 :=
  let c := getCore s (32 * h + i)
  if d.base = R.MCLEN 0 then w32 (c.clen * 2 ^ 13 + c.plen)
  else if d.base = R.CORG 0 then w32 c.corg
  else if d.base = R.DTAB 0 0 then
    let v := tget (fun _ => 0) c.dtab (j / 2)
    if j % 2 = 0 then lo32 v else hi32 v
  else if d.base = R.PMATCH 0 0 then tget (fun _ => 0) c.pmatch j
  else old

/-- STATE code of a domain, with its ISO bit. -/
def domCode (iso : Bool) : DomState → Nat
  | .on => if iso then 5 else 0
  | .fencing => 1
  | .acked => 1
  | .off => 3
  | .waking => 4
  | .isolated => 5
  | .tileOff => 6

/-- NTILE's RO fields: packets that the tile's router holds for a sleeping region, the handshake and the state. -/
def viewTile (s : State) (h t : Nat) (old : W32) : W32 :=
  let own := domOf s (64 * h + t)
  let reg := (tileRegion t).map (fun g => 64 * h + 36 + g)
  let held := match reg with
    | some ix => ((heldOf s ix).filter (fun k => fld k 85 80 == t)).length
    | none => 0
  let st := if own = .on then (match reg with | some ix => domOf s ix | none => own) else own
  let busy := st == .fencing || st == .acked
  let iso := rdB s h (R.NTILE t) 31 ||
    (match tileRegion t with | some g => rdB s h (R.NREG g) 30 | none => false)
  setFld (setFld (setFld (setFld old 23 16 (min held 0xFF)) 7 7 (b2n busy)) 6 6 (b2n (st == .acked))) 3 0 (domCode iso st)

def viewNet (s : State) (h : Nat) (d : RegDesc) (i : Nat) (old : W32) : W32 :=
  if d.base = R.NTILE 0 then viewTile s h i old
  else if d.base = R.NREG 0 then setFld old 3 0 (domCode (fld old 30 30 == 1) (domOf s (64 * h + 36 + i)))
  else if d.base = R.NDIE 0 then setFld old 3 0 (domCode false (domOf s (160 + i)))
  else old

def viewMem (d : RegDesc) (i : Nat) (old : W32) : W32 :=
  if i = 4 && (d.base = R.UECC 0 || d.base = R.UELOC0 0 || d.base = R.UELOC1 0) then 0
  else if d.base = R.UMWDISC 0 && (i < 2 || i = 4) then 0
  else old

def viewEvid (s : State) (h : Nat) (d : RegDesc) (i : Nat) (old : W32) : W32 :=
  if d.base = R.ECTL then setFld old 29 28 (match strokeOf s h with | .none => 0 | .running => 1 | .finished => 2)
  else if d.base = R.ADMITTED then w32 (admitted s h)
  else if d.base = R.WET then
    if (List.range 4).any (ringEn s h) then w32 ((wetBytes s h + strokeReserve s h) / 1024) else 0
  else if d.base = R.QOCC 0 then w32 (ringQ s h i).length
  else if d.base = R.ANCSTATE then w32 (ancStateOf s h)
  else if d.base = R.ANCDIRLO then w32 (ancDirOf s h)
  else if d.base = R.ANCDIRHI then w32 (ancDirOf s h / 2 ^ 32)
  else if d.base = R.ANCWSEQLO 0 then w32 (ancWOf s h i)
  else if d.base = R.ANCWSEQHI 0 then w32 (ancWOf s h i / 2 ^ 32)
  else if d.base = R.ANCDSEQLO 0 then w32 (ancDOf s h i)
  else if d.base = R.ANCDSEQHI 0 then w32 (ancDOf s h i / 2 ^ 32)
  else old

def viewLane (s : State) (h : Nat) (d : RegDesc) (i : Nat) (old : W32) : W32 :=
  if d.base = R.RSVOCC 0 then w32 (occBytes s h i / 1024) else old

/-- A fabric register; IOIN reads the pins. -/
def viewFab (s : State) (h : Nat) (d : RegDesc) (i : Nat) (old : W32) : W32 :=
  if d.base = R.IOIN 0 then ioin s h i else old

def viewDebug (s : State) (h : Nat) (d : RegDesc) (i : Nat) (old : W32) : W32 :=
  let c := getCore s (32 * h + i)
  if d.base = R.DSTAT 0 then
    let cause := if c.rstate = .out then 5 else if c.halted then c.haltCause else 0
    w32 (b2n c.halted * 2 ^ 31 + b2n c.asleep * 2 ^ 30 + b2n c.forced * 2 ^ 29 + cause)
  else if d.base = R.DRDATALO 0 then lo32 (drdata s (32 * h + i))
  else if d.base = R.DRDATAHI 0 then hi32 (drdata s (32 * h + i))
  else if d.base = R.DGCTL 0 then
    if gangHere s h i then w32 (b2n (getGang s i).haltReq * 2 ^ 31 + b2n (getGang s i).halted) else 0
  else if d.base = R.PATCHRAM 0 then patchWord s h i
  else old

def viewBoot (s : State) (d : RegDesc) (old : W32) : W32 :=
  if d.base = R.FUSEPRG then
    setFld old 4 0 ((List.range 5).foldl (fun a k => a + b2n (slotUsed s k) * 2 ^ k) 0)
  else if d.base = R.TKCTL && s.part ≠ .yq8680 then setFld old 31 31 0
  else old

/-- The value a read of the register shows, reserved and WO fields as 0. -/
def csrView (s : State) (m : Master) (h : Nat) (d : RegDesc) (i j : Nat) (off : Nat) : W32 :=
  let old := csr s h off
  let v := match off / 0x100000 with
    | 0 => viewGlobal s h d i old
    | 1 => viewRulings s m h d i old
    | 2 => viewArray s h d i old
    | 3 => viewMatch s h d i old
    | 4 => viewDispatch s h d i old
    | 5 => viewCore s h d i j old
    | 6 => viewNet s h d i old
    | 7 => viewMem d i old
    | 8 => viewEvid s h d i old
    | 9 => viewLane s h d i old
    | 11 => viewFab s h d i old
    | 12 => viewBoot s d old
    | 13 => viewDebug s h d i old
    | 14 => viewBoot s d old
    | _ => old
  v &&& readMask d

/-- Fields that a read clears. -/
def rcMask (d : RegDesc) : W32 :=
  BitVec.ofNat 32 (d.flds.foldl (fun a f => if f.acc = .rc then a + f.mask else a) 0)

/-- A 4-byte read of a register that answers: the value, and what reading does (R15, R44, R381). -/
def csrRead (s : State) (m : Master) (h off : Nat) : State × W32 :=
  match findReg off with
  | none => (s, 0)
  | some (d, i, j, _) =>
    let v := csrView s m h d i j off
    let s := if d.base = R.IOIN 0 && bankOn s h i then drawn s else s
    if isPeek m then (s, v) else
    let s := if rcMask d = 0 then s else setCsr s h off (csr s h off &&& ~~~(rcMask d))
    (if d.base = R.RPOSLO 0 then latchPos s m h i else s, v)

/-! ## Who may write (R44, R85, R98, R169, R380 and the register chapters) -/

def ownerOf (s : State) (m : Master) (p : Nat) : Bool := asP0 s m || masterPart s m == p

/-- The master may write the register; the hooks below ask again for those that have their own rule. -/
def mayWrite (s : State) (m : Master) (h : Nat) (d : RegDesc) (i : Nat) : Bool :=
  let b := d.base
  if b = R.SDCTL 0 || b = R.STALLTAGLO 0 || b = R.STALLTAGHI 0 || b = R.SNAPLO 0 || b = R.SNAPHI 0 || b = R.SDSTAT 0 ||
      b = R.AFFLIM 0 then ownerOf s m i
  else if b = R.DCPREEMPT 0 then ownerOf s m (corePart s (32 * h + i))
  else if b = R.LCHBASELO 0 || b = R.LCHBASEHI 0 || b = R.LCHNSLOT 0 then mayLch s m h i
  else if R.LTS 0 ≤ b && b ≤ R.TXTAIL 0 then ownerOf s m (rdF s h (R.LCTL i) 22 20)
  else if b = R.RPADDRLO || b = R.RPADDRHI || b = R.RPDATA then ownerOf s m (portPart s h 0) || ownerOf s m (portPart s h 1)
  else if b = R.MBDB || b = R.MBDONE || b = R.MBCMD 0 0 then
    asP0 s m || match m with | .host _ => true | _ => false
  else if b = R.FRAWADDR || b = R.FRAWBUF 0 then dbgFull s m
  else if 0xD00000 ≤ b && b < 0xE00000 then
    dbgFull s m || ((b = R.OVS 0 || b = R.OVSLO 0 || b = R.PATCHRAM 0) && debugAnswers s m)
  else asP0 s m

/-! ## Writes that are discarded whole (R427, R428) -/

/-- Fields hi to lo change while a guard holds. -/
def guarded (g : Bool) (old v : W32) (hi lo : Nat) : Bool := g && fld old hi lo != fld v hi lo

/-- A power of two from 16 to 4,096. -/
def ringLen (n : Nat) : Bool := [16, 32, 64, 128, 256, 512, 1024, 2048, 4096].contains n

/-- The shares of eight registers with share p replaced by n. -/
def sumWith (f : Nat → Nat) (p n : Nat) : Nat :=
  (List.range 8).foldl (fun a q => a + (if q = p then n else f q)) 0

/-- SHCOLREP names physical columns 0x00 to 0x83, each once, or 0xFF. -/
def colrepOk (v : W32) : Bool :=
  let l := (List.range 4).map (fun k => fld v (8 * k + 7) (8 * k))
  l.all (fun c => c == 0xFF || decide (c < 0x84)) && (l.filter (· != 0xFF)).length == ((l.filter (· != 0xFF)).eraseDups).length

/-- MBPART0 or MBPART1 may take v: no owner 8 to 0xE; a bank whose owner changes holds nothing, and neither its old nor
its new owner has LIVE contexts on the hub. -/
def mbpartOk (s : State) (h first : Nat) (old v : W32) : Bool :=
  (List.range 8).all (fun k =>
    let o := fld old (4 * k + 3) (4 * k)
    let n := fld v (4 * k + 3) (4 * k)
    let b := first + k
    let lives (p : Nat) : Bool :=
      s.tok.ctxs.any (fun e => e.1 / 4096 == h && e.2.state == .live && e.2.part == p)
    (decide (n < 8) || n == 15) &&
    (o == n || (!(s.tok.entries.any (fun e => e.hub.val == h && e.bank == b)) && (getAq s h b).isEmpty &&
      (getSpill s h b).isEmpty && (getBlook s h b).isEmpty && !(lives o) && !(lives n))))

def scrctlOk (v : W32) : Bool := fld v 31 30 != 3 && ridOk (fld v 26 16) && fld v 7 0 != 0
def pagesOk (v : W32) : Bool := decide (1 ≤ fld v 20 0) && decide (fld v 20 0 ≤ 1048576)
def anyUsed (s : State) (h : Nat) : Bool := !(chainsOf s h).isEmpty
def anyOpenOn (s : State) (h : Nat) : Bool := !(openChains s h).isEmpty

/-- The write of v over old is one that the register takes; those with hooks of their own judge for themselves. -/
def csrLegal (s : State) (h : Nat) (d : RegDesc) (i j : Nat) (old v : W32) : Bool :=
  let b := d.base
  match b / 0x100000 with
  | 1 =>
    if b = R.RUCTL then ridOk (fld v 10 0)
    else if b = R.EDGECFG 0 then fld v 29 28 != 3
    else if b = R.MARKQ 0 then decide (sumWith (fun p => rdF s h (R.MARKQ p) 14 0) i (fld v 14 0) ≤ 16384)
    else if b = R.WDCFG 0 then ridOk (fld v 10 0)
    else true
  | 2 =>
    let en := rdB s h (R.LCH i) 31
    if b = R.LCHBASELO 0 then !(guarded en old v 31 9)
    else if b = R.LCHBASEHI 0 then !(guarded en old v 15 0)
    else if b = R.LCHNSLOT 0 then
      !(guarded en old v 16 0) && decide (1 ≤ fld v 16 0) && decide (fld v 16 0 ≤ 65536)
    else
      let st := (getSheet s i).state
      if b = R.SHCFG 0 then !(guarded (st != .off && st != .idle) old v 26 24)
      else if b = R.SHCOLREP 0 then colrepOk v && !(guarded (st != .off && st != .evac && st != .retired) old v 31 0)
      else true
  | 3 =>
    if b = R.MBPART0 then mbpartOk s h 0 old v
    else if b = R.MBPART1 then mbpartOk s h 8 old v
    else if b = R.CTXQ 0 then decide (sumWith (fun p => rdF s h (R.CTXQ p) 28 16) i (fld v 28 16) ≤ 4096)
    else true
  | 4 =>
    if b = R.AFFLIM 0 then decide (fld v 8 0 ≤ 256)
    else if b = R.FRCOUNT 0 then
      let used := (List.range (frameCount s h i)).any (fun f => frameUsed s h i f)
      decide (fld v 10 0 ≤ 1024) && !(guarded used old v 10 0) &&
        decide (rdF s h (R.FRBASE i) 23 6 * 64 + 640 * fld v 10 0 ≤ 0x1000000)
    else if b = R.LIGQ 0 then decide (sumWith (fun p => rdF s h (R.LIGQ p) 16 0) i (fld v 16 0) ≤ 65536)
    else
      let en := rdB s h R.TRCTL 31
      if b = R.TRCTL then !(guarded en old v 30 30)
      else if b = R.TRBASELO then !(guarded en old v 31 12)
      else if b = R.TRBASEHI then !(guarded en old v 15 0)
      else if b = R.TRSIZE then pagesOk v && !(guarded en old v 20 0)
      else true
  | 5 => b != R.TSAVE 0 || decide (fld v 23 6 * 64 ≤ 0xFFFF80)
  | 7 =>
    if b = R.MCCFG 0 then
      let en := fld old 31 31 == 1
      !(guarded en old v 9 4) && (fld v 9 8 == 1 || (fld v 9 8 == 2 && fld v 7 7 == 1)) && decide (fld v 6 4 ≤ 2)
    else if b = R.MCSCRCTL 0 || b = R.UMSCRCTL 0 then scrctlOk v
    else true
  | 8 =>
    if b = R.WETLIM then decide (fld v 12 0 ≤ 4096) && !(guarded (anyUsed s h) old v 12 0)
    else if b = R.RSVX then decide (fld v 31 16 < fld v 15 0)
    else if b = R.SKADDRLO then fld v 7 0 == 0
    else if b = R.CSABASELO then fld v 11 0 == 0 && !(guarded (anyOpenOn s h) old v 31 0)
    else if b = R.CSABASEHI then !(guarded (anyOpenOn s h) old v 15 0)
    else if b = R.ERBASELO 0 then !(guarded (ringEn s h i) old v 31 21)
    else if b = R.ERBASEHI 0 then !(guarded (ringEn s h i) old v 15 0)
    else if b = R.ERDRY 0 then ridOk (fld v 26 16)
    else if b = R.SEGMAX 0 then decide (4 ≤ fld v 10 0) && decide (fld v 10 0 ≤ 1024)
    else true
  | 9 =>
    if b = R.RXSIZE 0 || b = R.TXSIZE 0 then ringLen (fld v 12 0)
    else if b = R.RSVBAND 0 then decide (fld v 14 0 ≤ 16384)
    else true
  | 10 => b != R.MBCMD 0 0 || !(rdB s h R.MBDB i)
  | 11 =>
    if b = R.FIMGLO then fld v 5 0 == 0
    else if b = R.FPORT 0 then !(guarded (fld old 31 31 == 1) old v 27 24)
    else true
  | 12 =>
    if b = R.BTCTL then ridOk (fld v 26 16)
    else if b = R.BTPERIOD then v != 0
    else if b = R.JBASELO then !(guarded (rdB s h R.JCTL 31) old v 31 12)
    else if b = R.JBASEHI then !(guarded (rdB s h R.JCTL 31) old v 15 0)
    else
      let en := rdB s h R.MTCTL 31
      if b = R.MTCTL then !(guarded en old v 30 30)
      else if b = R.MTBASELO then !(guarded en old v 31 12)
      else if b = R.MTBASEHI then !(guarded en old v 15 0)
      else if b = R.MTSIZE then pagesOk v && !(guarded en old v 20 0)
      else if b = R.TPCTL then fld v 1 0 != 3
      else true
  | 13 => b != R.DW 0 0 || (fld v 31 30 != 3 && decide (fld v 21 16 ≤ 47) && decide (j < 8))
  | _ => true

/-! ## The write itself -/

/-- A register after a write of v, by the access codes of its fields (R15). -/
def fieldsWrite (d : RegDesc) (old v : W32) : W32 :=
  d.flds.foldl (fun a f =>
    let k := w32 f.mask
    match f.acc with
    | .rw => (a &&& ~~~k) ||| (v &&& k)
    | .w1c => a &&& ~~~(v &&& k)
    | .w1s => a ||| (v &&& k)
    | _ => a) old

/-- MBDB: each 1 rings its slot, in ascending order; a slot still pending is ignored and counted (R328). -/
def ringBells (s : State) (m : Master) (h : Nat) (v : W32) : State :=
  let host := match m with | .host _ => true | _ => false
  (List.range 8).foldl (fun s k =>
    if fld v k k = 0 then s
    else if rdB s h R.MBDB k then bump s h R.MBERR 31 0 1
    else
      let s := wrB s h R.MBDB k true
      let l := tget (fun _ => []) s.lan.bells h ++ [{ slot := k, part := masterPart s m, host := host }]
      { s with lan := { s.lan with bells := tset (fun _ => []) s.lan.bells h l } }) s

/-- Registers whose write is more than their access codes; `none` for the others. -/
def csrHook (s : State) (m : Master) (h : Nat) (d : RegDesc) (i j k : Nat) (v : W32) : Option State :=
  let b := d.base
  match b / 0x100000 with
  | 0 => if b = R.PWRCTL then some (writePwrctl s m h v) else none
  | 1 =>
    if b = R.PTPSTEP then some (writePtpstep s m h v)
    else if b = R.RCFG 0 then some (writeRcfg s m h i v)
    else if b = R.RCFGX 0 then some (writeRcfg s m h (0x400 + i) v)
    else if b = R.RFMT 0 then some (writeRfmt s m h i v)
    else if b = R.LMON 0 then some (if asP0 s m then writeLmon s h i v else s)
    else if b = R.WDLOAD 0 then some (writeWdload s m h i v)
    else if b = R.WDKICK 0 then some (writeWdkick s m h i v)
    else none
  | 2 =>
    if b = R.LCH 0 then some (writeLch s m h i v)
    else if b = R.LCHWR 0 then some (writeLchwr s m h i v)
    else if b = R.LCHRD 0 then some (writeLchrd s m h i v)
    else if b = R.SHCTL 0 then some (writeShctl s m i v)
    else none
  | 3 =>
    if b = R.CLTBASELO then some (writeCltbase s m h false v)
    else if b = R.CLTBASEHI then some (writeCltbase s m h true v)
    else if b = R.CLTSIZE then some (writeCltsize s m h v)
    else if b = R.BLTCTL 0 then some (writeBltctl s m h i v)
    else none
  | 4 => if b = R.FLOW 0 then some (writeFlow s m h i v) else none
  | 5 => if b = R.MCSTART then some (writeMcstart s m h v) else none
  | 6 =>
    if b = R.NEPOCH then some (writeNepoch s m h v)
    else if b = R.NRTAB 0 0 0 then some (writeNrtab s m h i j k v)
    else if b = R.NLSTAT 0 then some (writeNlstat s m h i v)
    else if b = R.NTILE 0 then some (writeNtile s m h i v)
    else if b = R.NREG 0 then some (if hi : i < 5 then writeNreg s m h ⟨i, hi⟩ v else s)
    else if b = R.NDIE 0 then some (if hi : i < 6 then writeNdie s m h ⟨i, hi⟩ v else s)
    else if b = R.DPLCTL 0 then some (writeDplctl s m h i v)
    else none
  | 7 =>
    if b = R.MCINIT 0 then some (writeMcinit s m h i v)
    else if b = R.MEMCLR then some (writeMemclr s m h v)
    else none
  | 8 =>
    if b = R.ECTL then some (writeEctl s m h v)
    else if b = R.SKCTL then some (writeSkctl s m h v)
    else if b = R.ERCTL 0 then some (writeErctl s m h i v)
    else if R.TGT 0 ≤ b && b ≤ R.TGTTAIL 0 then some (writeTgt s m h i ((b - R.TGT 0) / 4) v)
    else none
  | 9 =>
    if b = R.LCTL 0 then some (writeLctl s m h i v)
    else if b = R.STCTL 0 then some (writeStctl s m h i v)
    else none
  | 10 =>
    if b = R.PCICFG then some (writePcicfg s m h v)
    else if b = R.RPCMD then some (writeRpcmd s m h v)
    else none
  | 11 =>
    if b = R.FLOAD then some (writeFload s m h v)
    else if b = R.FCONT then some (writeFcont s m h v)
    else if b = R.FREG 0 then some (writeFreg s m h i v)
    else if b = R.FRAWGO then some (writeFrawgo s (dbgFull s m) h v)
    else none
  | 12 => if b = R.JCTL then some (writeJctl s m h v) else none
  | 13 =>
    if !(dbgFull s m) then none
    else if b = R.DBGCTL then some (writeDbgctl s h v)
    else if b = R.DCTL 0 then some (writeDctl s (32 * h + i) v)
    else if b = R.DRDATALO 0 then some (writeDrdata s (32 * h + i) false v)
    else if b = R.DRDATAHI 0 then some (writeDrdata s (32 * h + i) true v)
    else if b = R.DGCTL 0 then some (writeDgctl s h i v)
    else if b = R.DGINJ 0 0 then some (writeDginj s h i j v)
    else none
  | 14 => if b = R.FUSEPRG then some (writeFuseprg s m h v) else none
  | 15 => if b = R.MIRCTL then some (writeMirctl s m h v) else none
  | _ => none

/-- What follows from a plain write: counts that start again, and what depends on the register. -/
def afterWrite (s : State) (h : Nat) (d : RegDesc) (old v : W32) : State :=
  let b := d.base
  if b = R.TRCTL && fld old 31 31 = 0 && fld v 31 31 = 1 then setCsr s h R.TRWR 0
  else if b = R.MBPART0 || b = R.MBPART1 then settle s h
  else if R.WETLIM ≤ b && b ≤ R.DRYBYTESHI then settleXoff (settleBorrow (writeCsaHeader s h) h) h
  else if R.ERCTL 0 ≤ b && b ≤ R.QOCC 0 then writeCsaHeader s h
  else if b = R.CSABASELO || b = R.CSABASEHI then setAncDir s h
  else s

/-- A 4-byte write of v to a register of hub h that answers (R15, R16, R427, R428). -/
def csrWrite (s : State) (m : Master) (h off : Nat) (v : W32) : State :=
  match findReg off with
  | none => s
  | some (d, i, j, k) =>
    match csrHook s m h d i j k v with
    | some t => t
    | none =>
      if d.base = R.BOOTCTL then s
      else if !(mayWrite s m h d i) then s
      else if d.base = R.MBDB then ringBells s m h v
      else if d.base = R.PATCHRAM 0 then writePatch s h i v
      else
        let old := csr s h off
        if !(csrLegal s h d i j old v) then s else
        let v := if (d.base = R.WDCFG 0 && i < 32) then setFld v 30 30 0
          else if d.base = R.TKCTL && s.part ≠ .yq8680 then setFld v 31 31 0 else v
        afterWrite (setCsr s h off (fieldsWrite d old v)) h d old v

/-- A posted write that is not performed is counted by the absorber it meets: at the target, or where the way to its
hub ends (R5, R249). -/
def csrAbsorb (s : State) (eh h : Nat) : State := bump s (if reach s eh h then h else eh) R.NISODISC 31 0 1

/-- The boot ROM takes the debugger's image when BOOTCTL is written (R400). -/
def csrStore (s : State) (m : Master) (h off : Nat) (v : W32) : State :=
  if off = R.BOOTCTL then (match execBootctlGo m (hubFin h) v s with | .next t => t | _ => s) else csrWrite s m h off v

/-- A write of a register that answers, or its discarding (R249). -/
def csrPost (s : State) (m : Master) (eh h off : Nat) (v : W32) : State :=
  if csrOk s m eh h off then csrStore s m h off v else csrAbsorb s eh h

end Sys2Proof.Machine
end

