-- ==== Sys2Proof/Machine/Access.lean ====
section
/-! DEFINITION. Accesses of a scribe core: windows (R169), alignment (R183), watchpoints (R390), loads and stores of
each region, and the fetch (R171, R181 to R187, R214, R249, R271 to R273, R342, R391). -/
namespace Sys2Proof.Machine

/-! ## How an instruction ends -/

/-- The outcome of an instruction's own rule. -/
inductive Res
  /-- completed; PC moves on by 4 -/
  | next (s : State)
  /-- completed; PC goes to the address -/
  | jump (s : State) (pc : BitVec 48)
  /-- completed or ended; the rule has set PC itself -/
  | done (s : State)
  /-- not completed: what has been done stands, and PC stays -/
  | wait (s : State)
  /-- a precise trap at the instruction (R214) -/
  | trap (s : State) (cause : Nat) (value : W64)
  /-- the TRAP instruction's trap, whose EPC is the next instruction -/
  | after (s : State) (cause : Nat) (value : W64)
  /-- the core halts before the instruction has an effect -/
  | halt (s : State) (cause : Nat)

/-- A step of a rule that gives a value, or ends the instruction. -/
abbrev Eff (α : Type) := Except Res (State × α)

/-- Go on with the value. -/
def Eff.bind {α β : Type} (a : Eff α) (f : State → α → Eff β) : Eff β :=
  match a with
  | .ok (s, v) => f s v
  | .error r => .error r

/-- Finish with the value. -/
def Eff.fin {α : Type} (a : Eff α) (f : State → α → Res) : Res :=
  match a with
  | .ok (s, v) => f s v
  | .error r => r

/-! ## Trap causes (R214) -/

def trIllegal : Nat := 0x01
def trEmu : Nat := 0x02
def trPrefix : Nat := 0x03
def trAlign : Nat := 0x04
def trAccess : Nat := 0x05
def trMemerr : Nat := 0x06
def trCtrlchk : Nat := 0x07
def trFpe : Nat := 0x08
def trIdz : Nat := 0x09
def trState : Nat := 0x0A
def trToken : Nat := 0x0B
def trTrap : Nat := 0x0C
def trBrk : Nat := 0x0D
def trArray : Nat := 0x0E
def trWatch : Nat := 0x0F

/-- TRAPV of ACCESS, MEMERR and CTRLCHK: a kind in [63:60] and what it names below (R169, R214). -/
def kindValue (kind x : Nat) : W64 := BitVec.ofNat 64 (kind * 2 ^ 60 + x % 2 ^ 48)

/-! ## Windows (R169) -/

/-- Window k of core i permits every need of the mask `need` (4 fetch, 2 store, 1 load) at address a. -/
def winPermits (s : State) (i k a need : Nat) : Bool :=
  let h := i / 32
  let c := i % 32
  let w := (csr s h (R.WINCTL c k)).toNat
  let base := rdF s h (R.WINHI c k) 15 0 * 2 ^ 32 + rdF s h (R.WINBASELO c k) 31 12 * 2 ^ 12
  let lim := rdF s h (R.WINHI c k) 31 16 * 2 ^ 32 + rdF s h (R.WINLIMLO c k) 31 12 * 2 ^ 12
  w / 8 % 2 == 1 && (w % 8 &&& need) == need && decide (base ≤ lim) && decide (base ≤ a) && decide (a ≤ lim + 0xFFF)

/-- Some window permits the access. -/
def winOk (s : State) (i a need : Nat) : Bool := (List.range 8).any (fun k => winPermits s i k a need)

/-! ## Checks of a data access (R183, R169, R390, in the order of R219) -/

/-- The region takes only accesses of 4 and 8 bytes: CSR space and fabric ports (R183, R342). -/
def wordsOnly : Region → Bool
  | .csr _ _ => true
  | .fport _ _ _ => true
  | _ => false

/-- The first watchpoint of those that match which does something: an ACT of 1 raises nothing inside a handler. -/
def watchPick (s : State) (i : Nat) (l : List Nat) : Option Nat :=
  l.find? (fun w => watchAct s i w == 2 || (watchAct s i w == 1 && !((getCore s i).ps psINTRAP)))

/-- Watchpoints of an access of n bytes at a, which its other checks have passed (R390). -/
def watchCheck (s : State) (i a n : Nat) (ld st : Bool) : Eff Unit :=
  if !((getCore s i).ports.isEmpty) then .ok (s, ()) else
  let l := watchHits s i a n ld st
  match watchPick s i l with
  | none => .ok (countHits s i l, ())
  | some w =>
    if watchAct s i w = 2 then
      if (getCore s i).fpu.isSome then .error (.wait s) else .error (.halt (countHits s i l) 4)
    else .error (.trap (countHits s i l) trWatch (watchValue a w st))

/-- Alignment, windows and watchpoints of an access of n bytes at ea. `need` is 1 load, 2 store, 3 both; `kind` the
ACCESS kind. -/
def dataCheck (s : State) (i : Nat) (ea : W64) (n need kind : Nat) : Eff Unit :=
  let a := ea.toNat
  if a % n ≠ 0 || (n < 4 && wordsOnly (region (i / 32) a)) then .error (.trap s trAlign ea)
  else if !(winOk s i a need) then .error (.trap s trAccess (kindValue kind a))
  else watchCheck s i a n (need % 2 == 1) (decide (2 ≤ need))

/-! ## The L1 data cache (R273) -/

def lineOf64 (k : Nat) : Nat := k / 64 * 64
/-- Index of a line in the parity table. -/
def parityIx (i k : Nat) : Nat := i * 2 ^ 48 + lineOf64 k
def dirtyAt (s : State) (k : Nat) : Option (Nat × Byte) := tget (fun _ => none) s.mem.dirty k
/-- Core i holds the line of k dirty. -/
def ownsDirty (s : State) (i k : Nat) : Bool :=
  s.mem.dirty.any (fun e => e.1 / 64 == k / 64 && match e.2 with | some (o, _) => o == i | none => false)
/-- Another core holds the line of k dirty: it is written back for this access. -/
def takeLine (s : State) (i k : Nat) : State := if ownsDirty s i k then s else dropDirty s k 1

/-- A dirty line with a parity error is lost: main memory keeps the bytes it held. -/
def loseLine (s : State) (i k : Nat) : State :=
  let mine := s.mem.dirty.filter (fun e => e.1 / 64 == k / 64)
  let s := mine.foldl (fun s e => match e.2 with | some (_, b) => wbs s e.1 [b] | none => s) s
  let s := dropDirty s k 1
  journal s (i / 32) evMemUncorr false noPart (memDetail 0x40 0 0 (i % 32) (lineOf64 k))

/-- Parity of the line of k in core i's L1: a clean line is fetched again and counted; a dirty one is lost and the
access fails. -/
def parityCheck (s : State) (i k : Nat) : State × Bool :=
  if !(tget (fun _ => false) s.mem.parity (parityIx i k)) then (s, true) else
  let s := { s with mem := { s.mem with parity := tset (fun _ => false) s.mem.parity (parityIx i k) false } }
  if ownsDirty s i k then (loseLine s i k, false)
  else (bump s (i / 32) (R.L1ERR (i % 32)) 31 0 1, true)

/-- The bytes of a store to main memory, in the L1 line that core i now owns. -/
def l1Put (s : State) (i k : Nat) (bs : Bytes) : State :=
  let d := (List.range bs.length).foldl (fun (d : Tab (Option (Nat × Byte))) j =>
    match tget (fun _ => none) d (k + j) with
    | some _ => d
    | none => tset (fun _ => none) d (k + j) (some (i, rb s (k + j)))) s.mem.dirty
  let s := wbs { s with mem := { s.mem with dirty := d } } k bs
  dropRes s (some i) k bs.length

/-! ## Loads -/

/-- MEMERR of kind `kind` at a. -/
def memTrap (s : State) (kind a : Nat) : Res := .trap s trMemerr (kindValue kind a)

/-- A read of n bytes of memory by core i. The boot ROM reads as 0 from every partition but P0 (R12). -/
def memLoad (s : State) (i a n : Nat) : Eff W64 :=
  let eh := i / 32
  let val (s : State) : Eff W64 := .ok (s, BitVec.ofNat 64 (leNat (viewBytes s eh a n)))
  let fromMem (s : State) : Eff W64 :=
    match mrd s eh a n with
    | (s, .ok, _) => val s
    | (s, .isolated, _) => .error (memTrap s 2 a)
    | (s, .uncorr, _) => .error (memTrap s 1 a)
  match region eh a with
  | .main _ _ =>
    match parityCheck (takeLine s i a) i a with
    | (s, false) => .error (memTrap s 1 a)
    | (s, true) => if ownsDirty s i a then val s else fromMem s
  | .rom => if corePart s i = 0 then fromMem s else .ok (s, 0)
  | _ => fromMem s

/-- A register read of 4 or 8 bytes by core i, an 8-byte one as two of 4 bytes, the lower first (R183). -/
def csrLoad (s : State) (i h off n a : Nat) : Eff W64 :=
  let m := Master.core (coreOf i)
  let one (s : State) (off : Nat) : Eff W32 :=
    if csrOk s m (i / 32) h off then .ok (csrRead s m h off) else .error (memTrap s 2 a)
  Eff.bind (one s off) (fun s lo =>
    if n ≤ 4 then .ok (s, lo.setWidth 64)
    else Eff.bind (one s (off + 4)) (fun s hi => .ok (s, cat64 hi lo)))

/-- The answer that the instruction at hand has had for address a. -/
def portAnswer (c : Core) (a : Nat) : Option (Option W64) := (c.ports.find? (fun e => e.1 == a)).map (·.2)
/-- The element at hand is complete: its answers have been used. -/
def portsUsed (s : State) (i : Nat) : State :=
  if (getCore s i).ports.isEmpty then s else updCore s i (fun c => { c with ports := [] })

/-- A read of a fabric port by core i: it waits for user logic, and takes the answer up when it has come (R342). -/
def portLoad (s : State) (i h p off n a : Nat) (fin : Option PortFin) : Eff W64 :=
  match portAnswer (getCore s i) a with
  | some (some v) => .ok (s, v)
  | some none => .error (memTrap s 2 a)
  | none =>
    if (getCore s i).portWait then .error (.wait s)
    else if !(reach s (i / 32) h) || !(portOpen s h p) then .error (memTrap s 2 a)
    else if 16 ≤ (targetsOf s h p).length then .error (.wait s)
    else
      let t : TAcc := { core := coreOf i, write := false, size8 := n == 8, off := BitVec.ofNat 28 off, data := 0, fin := fin }
      .error (.wait (updCore (setTargets s h p (targetsOf s h p ++ [t])) i (fun c => { c with portWait := true })))

/-- The tile of core i is fenced: what the core sends meets an absorber (R249). -/
def coreCut (s : State) (i : Nat) : Bool := tileIso s (i / 32) (tCore (i % 32))

/-- A load of n bytes at address a, which its checks have passed; the value zero-extended. -/
def loadAt (s : State) (i a n : Nat) (fin : Option PortFin) : Eff W64 :=
  if coreCut s i then .error (memTrap s 2 a) else
  match region (i / 32) a with
  | .csr h off => csrLoad s i h off n a
  | .fport h p off => portLoad s i h p off n a fin
  | .hole => .error (memTrap s 2 a)
  | _ => memLoad s i a n

/-! ## Stores -/

/-- A MEMERR for an earlier store is pending; the first keeps its place until it is taken. -/
def storeErr (s : State) (i kind a : Nat) : State :=
  updCore s i (fun c => match c.memerr with | some _ => c | none => { c with memerr := some (kindValue kind a) })

/-- The line of a store to main memory is filled into core i's L1 (R271, R273): the kind of MEMERR when it cannot be. -/
def lineFill (s : State) (i a : Nat) : State × Option Nat :=
  let eh := i / 32
  match parityCheck (takeLine s i a) i a with
  | (s, false) => (s, some 1)
  | (s, true) =>
    if ownsDirty s i a then (s, none)
    else if !(memServes s eh a) then (s, some 2)
    else match checkRange s (lineOf64 (absKey eh a)) 64 0 with
      | (s, .ok) => (s, none)
      | (s, _) => (s, some 3)

/-- A posted write that meets nothing is counted where its way ends (R249). -/
def absorbed (s : State) (i : Nat) : State := bump s (i / 32) R.NISODISC 31 0 1

/-- One 4-byte register write by core i, or its discarding. -/
def csrPut (s : State) (i h off : Nat) (v : W32) : State := csrPost s (.core (coreOf i)) (i / 32) h off v

/-- The margin port at register offset `off` (R391). -/
def marginAt (off : Nat) : Option Nat :=
  if 0xC08000 ≤ off && off < 0xC08800 && off % 8 = 0 then some ((off - 0xC08000) / 8) else none

/-- A store of 4 or 8 bytes to CSR space (R183). -/
def csrStoreAt (s : State) (i h off n : Nat) (v : W64) : Eff Unit :=
  match marginAt off with
  | some k =>
    if !(csrOk s (.core (coreOf i)) (i / 32) h off) then .ok (csrAbsorb s (i / 32) h, ())
    else if marginWaits s i h k then .error (.wait s)
    else .ok (marginStore s i h k (n == 8) v, ())
  | none =>
    let s := csrPut s i h off (lo32 v)
    .ok (if n ≤ 4 then s else csrPut s i h (off + 4) (hi32 v), ())

/-- A store to a fabric port: posted; it waits while 16 accesses are outstanding (R342). -/
def portStore (s : State) (i h p off n : Nat) (v : W64) : Eff Unit :=
  if !(reach s (i / 32) h) || !(portOpen s h p) then .ok (csrAbsorb s (i / 32) h, ())
  else if 16 ≤ (targetsOf s h p).length then .error (.wait s)
  else
    let t : TAcc := { core := coreOf i, write := true, size8 := n == 8, off := BitVec.ofNat 28 off, data := v, fin := none }
    .ok (setTargets s h p (targetsOf s h p ++ [t]), ())

/-- Bytes of a value, low first. -/
def valBytes (n : Nat) (v : W64) : Bytes := natLe n (v.toNat % 2 ^ (8 * n))

/-- An uncached store to memory: posted; refused for uncorrectable data it raises MEMERR later (R249, R272). -/
def postStore (s : State) (i a n : Nat) (v : W64) : State :=
  match mwr s (i / 32) (some i) a (valBytes n v) with
  | (s, .ok) => s
  | (s, .isolated) => absorbed s i
  | (s, .uncorr) => storeErr s i 1 a

/-- A store of the low n bytes of v at address a, which its checks have passed. -/
def storeAt (s : State) (i a n : Nat) (v : W64) : Eff Unit :=
  if coreCut s i then
    .ok (match region (i / 32) a with | .main _ _ => storeErr s i 2 a | _ => absorbed s i, ())
  else
  match region (i / 32) a with
  | .csr h off => csrStoreAt s i h off n v
  | .fport h p off => portStore s i h p off n v
  | .hole => .ok (absorbed s i, ())
  | .main _ _ =>
    match lineFill s i a with
    | (s, none) => .ok (l1Put s i a (valBytes n v), ())
    | (s, some kind) => .ok (storeErr s i kind a, ())
  | _ => .ok (postStore s i a n v, ())

/-! ## Checked loads and stores -/

/-- A load with its checks. -/
def coreLoadV (s : State) (i : Nat) (ea : W64) (n : Nat) (fin : Option PortFin) : Eff W64 :=
  Eff.bind (dataCheck s i ea n 1 2) (fun s _ => loadAt s i ea.toNat n fin)

/-- A store with its checks. -/
def coreStoreV (s : State) (i : Nat) (ea : W64) (n : Nat) (v : W64) : Eff Unit :=
  Eff.bind (dataCheck s i ea n 2 3) (fun s _ => storeAt s i ea.toNat n v)

/-! ## Locked accesses (R185 to R187) -/

/-- LDL and STC reach main and common memory, the atomics common memory alone. -/
def lockRegion (i a : Nat) (atomic : Bool) : Bool :=
  match region (i / 32) a with
  | .main _ _ => !atomic
  | .common _ => true
  | _ => false

/-- Checks of a locked access of 8 bytes. -/
def lockCheck (s : State) (i : Nat) (ea : W64) (atomic : Bool) : Eff Unit :=
  let a := ea.toNat
  if a % 8 ≠ 0 then .error (.trap s trAlign ea)
  else if !(winOk s i a 3) then .error (.trap s trAccess (kindValue 4 a))
  else if !(lockRegion i a atomic) then .error (.trap s trAccess (kindValue 7 a))
  else watchCheck s i a 8 true true

/-- A locked store whose errors are precise: common memory writes, main memory goes through the L1. -/
def lockStore (s : State) (i a : Nat) (v : W64) : Eff Unit :=
  if coreCut s i then .error (memTrap s 2 a) else
  match region (i / 32) a with
  | .main _ _ => Eff.bind (memLoad s i a 8) (fun s _ =>
      match lineFill s i a with
      | (s, none) => .ok (l1Put s i a (valBytes 8 v), ())
      | (s, some kind) => .error (memTrap s (if kind = 2 then 2 else 1) a))
  | _ =>
    match mwr s (i / 32) (some i) a (valBytes 8 v) with
    | (s, .ok) => .ok (s, ())
    | (s, .isolated) => .error (memTrap s 2 a)
    | (s, .uncorr) => .error (memTrap s 1 a)

/-! ## The fetch -/

/-- The word at PC, or the trap of item 4 of R219. An instruction line lies in memory: CSR space and the fabric ports
answer a fetch ISOLATED (assumption 106). The two low bits of PC take no part. -/
def fetchAt (s : State) (i : Nat) (pc : BitVec 48) : Eff W32 :=
  let a := pc.toNat / 4 * 4
  if !(winOk s i a 4) then .error (.trap s trAccess (kindValue 1 a)) else
  if coreCut s i then .error (memTrap s 2 a) else
  match region (i / 32) a with
  | .csr _ _ => .error (memTrap s 2 a)
  | .fport _ _ _ => .error (memTrap s 2 a)
  | .hole => .error (memTrap s 2 a)
  | _ => Eff.bind (memLoad s i a 4) (fun s v => .ok (s, lo32 v))

end Sys2Proof.Machine
end

