-- ==== Sys2Proof/Machine/Flags.lean ====
section
/-! DEFINITION. Flag computations of the integer, decimal and comparison instructions (R172, R173, R176, R178, R180,
R185, R190, R209) and the branch conditions (R181). -/
namespace Sys2Proof.Machine

/-- N, Z, C and V replaced in a PSTAT word. -/
def putNZCV (p : W32) (n z c v : Bool) : W32 :=
  setFld (setFld (setFld (setFld p psN psN (b2n n)) psZ psZ (b2n z)) psC psC (b2n c)) psV psV (b2n v)

/-- N and Z of a result; C and V stay (R172, AND to ANDN). -/
def putNZ (p : W32) (r : W64) : W32 := setFld (setFld p psN psN (b2n r.msb)) psZ psZ (b2n (r == 0))

/-- Sum of a, b and a carry: result, carry, signed overflow (R172). -/
def addParts (a b : W64) (cin : Bool) : W64 × Bool × Bool :=
  let r := a + b + BitVec.ofNat 64 (b2n cin)
  (r, decide (2 ^ 64 ≤ a.toNat + b.toNat + b2n cin), a.msb == b.msb && r.msb != a.msb)

/-- a − b − (1 − carry): result, carry (1 means no borrow), signed overflow (R172). -/
def subParts (a b : W64) (cin : Bool) : W64 × Bool × Bool :=
  let r := a - b - BitVec.ofNat 64 (b2n (!cin))
  (r, decide (b.toNat + b2n (!cin) ≤ a.toNat), a.msb != b.msb && r.msb != a.msb)

/-- PSTAT after an addition or subtraction with these parts. -/
def arithFlags (p : W32) (r : W64 × Bool × Bool) : W32 := putNZCV p r.1.msb (r.1 == 0) r.2.1 r.2.2

/-- V alone (R176). -/
def putV (p : W32) (v : Bool) : W32 := setFld p psV psV (b2n v)

/-- DC; BD set, never cleared, when a bad digit was read (R178, R180). -/
def putDec (p : W32) (dc bad : Bool) : W32 :=
  let p := setFld p psDC psDC (b2n dc)
  if bad then setFld p psBD psBD 1 else p

/-- Z alone. -/
def putZ (p : W32) (z : Bool) : W32 := setFld p psZ psZ (b2n z)

/-- C alone. -/
def putC (p : W32) (c : Bool) : W32 := setFld p psC psC (b2n c)

/-- Relation of a floating-point comparison. -/
inductive FRel where
  | lt | eq | gt | un
  deriving DecidableEq, Repr

/-- PSTAT after FCMP (R209). -/
def fcmpFlags (p : W32) : FRel → W32
  | .lt => putNZCV p true false false false
  | .eq => putNZCV p false true true false
  | .gt => putNZCV p false false true false
  | .un => putNZCV p false false true true

/-- Branch condition `cond` holds (R181). -/
def condHolds (c : Core) (cond : Nat) : Bool :=
  let n := c.ps psN
  let z := c.ps psZ
  let cy := c.ps psC
  let v := c.ps psV
  match cond with
  | 0x0 => z
  | 0x1 => !z
  | 0x2 => cy
  | 0x3 => !cy
  | 0x4 => n
  | 0x5 => !n
  | 0x6 => v
  | 0x7 => !v
  | 0x8 => cy && !z
  | 0x9 => !cy || z
  | 0xA => n == v
  | 0xB => n != v
  | 0xC => !z && n == v
  | 0xD => z || n != v
  | 0xE => true
  | _ => c.ps psBD

end Sys2Proof.Machine
end

