-- ==== Sys2Proof/Machine/Traps.lean ====
section
/-! DEFINITION. How a core runs one instruction: the boundary, trap entry and return, the double trap, asynchronous
events and interrupts (R112, R151, R200, R206, R214 to R219). -/
namespace Sys2Proof.Machine

/-! ## Floating-point state at a boundary (R200, R206) -/

/-- An FPE is pending (FPSR.PEND). -/
def Core.fpePend (c : Core) : Bool := fld c.fpsr 8 8 == 1
/-- TRAPV of the pending FPE. -/
def Core.fpeValue (c : Core) : W64 := BitVec.ofNat 64 (fld c.fpsr 15 12 * 2 ^ 56 + c.fpePc.toNat)
/-- The pending FPE is taken. -/
def Core.fpeTaken (c : Core) : Core := { c with fpsr := setFld (setFld c.fpsr 8 8 0) 15 12 0 }

/-! ## The double trap (R217, R372) -/

/-- The core records the trap of `cause` at `pc` and leaves service at once. -/
def doubleTrap (s : State) (i cause : Nat) (pc : BitVec 48) : State :=
  let h := i / 32
  let c := i % 32
  let p := corePart s i
  let s := setCsr s h (R.TNEST c) (BitVec.ofNat 32 (2 ^ 31 + cause % 256))
  let s := setCsr (setCsr s h (R.TNPCLO c) (pc.setWidth 32)) h (R.TNPCHI c) (BitVec.ofNat 32 (pc.toNat / 2 ^ 32))
  let s := journal s h evIsolate (p == 0) p (detail [(16, 1, 1), (17, 1, c), (18, 1, 3)])
  abandon (if p = 0 then alarm s h 3 else s) i

/-! ## Taking a trap (R215) -/

/-- Address of the trap slot of level `lvl` (R215). -/
def trapSlot (s : State) (i lvl : Nat) : Nat :=
  0x010000000000 + rdF s (i / 32) (R.TSAVE (i % 32)) 23 6 * 64 + 64 * lvl
def trapVector (s : State) (i : Nat) : BitVec 48 :=
  BitVec.ofNat 48 (rdF s (i / 32) (R.TVECHI (i % 32)) 15 0 * 2 ^ 32 + rdF s (i / 32) (R.TVECLO (i % 32)) 31 2 * 4)

/-- The six slot writes, 8 bytes each; whether one was refused for uncorrectable data. -/
def slotWrites (s : State) (i slot : Nat) (vs : List W64) : State × Bool :=
  let r := vs.foldl (fun (r : State × Bool × Nat) v =>
    let (s, bad, k) := r
    if coreCut s i then (absorbed s i, bad, k + 1) else
    match mwr s (i / 32) (some i) (slot + 8 * k) (natLe 8 v.toNat) with
    | (s, .ok) => (s, bad, k + 1)
    | (s, .isolated) => (absorbed s i, bad, k + 1)
    | (s, .uncorr) => (s, true, k + 1)) (s, false, 0)
  (r.1, r.2.1)

/-- Level of the trap that runs (TRAPC.LEVEL). -/
def Core.level (c : Core) : Nat := fld c.trapc 9 9

/-- Registers of a core at trap entry, after the slot has been written. -/
def trapRegs (c : Core) (slot : Nat) (epc : BitVec 48) (trapc trapv : W64) (vec : BitVec 48) : Core :=
  let sh := if c.ps psINTRAP then some (c.epc, c.trapc, c.trapv) else c.shadow
  let c := { c with shadow := sh, epc := epc.setWidth 64, trapc := trapc, trapv := trapv, lladdr := 0, pc := vec,
                    sleep := false, bare := c.bare || c.running.isNone, rstate := .running, ports := [], micro := none }
  let c := (c.setPs psIE false).setPs psINTRAP true
  ((c.setG 1 (BitVec.ofNat 64 slot)).setG 2 trapc).setG 3 trapv

/-- TRAPC of an entry: cause, ASYNC, LEVEL, and PSTAT as it stood. -/
def trapcOf (c : Core) (cause : Nat) (async : Bool) : W64 :=
  BitVec.ofNat 64 (c.pstat.toNat * 2 ^ 32 + b2n (c.ps psINTRAP) * 2 ^ 9 + b2n async * 2 ^ 8 + cause)

/-- Entry of a trap whose EPC is `epc`, with the unit idle and no other FPE due. -/
def enterTrap (s : State) (i : Nat) (epc : BitVec 48) (cause : Nat) (value : W64) (async : Bool) : State :=
  let c := getCore s i
  if c.ps psINTRAP && c.level == 1 then doubleTrap s i cause epc else
  let slot := trapSlot s i (b2n (c.ps psINTRAP))
  let tc := trapcOf c cause async
  let (s, bad) := slotWrites s i slot [c.gr 1, c.gr 2, c.gr 3, epc.setWidth 64, tc, value]
  let s := updCore s i (fun c => trapRegs c slot epc tc value (trapVector s i))
  if bad then doubleTrap s i cause epc else s

/-- Taking a trap (R215): a pending FPE is delivered first, at `at_`, the instruction the core stands before. -/
def takeTrap (s : State) (i : Nat) (at_ epc : BitVec 48) (cause : Nat) (value : W64) (async : Bool) : State :=
  let c := getCore s i
  if c.fpePend && cause ≠ trFpe then
    enterTrap (updCore s i Core.fpeTaken) i at_ trFpe c.fpeValue true
  else enterTrap s i epc cause value async

/-- The pending FPE as a trap at the instruction (R206). -/
def takeFpe (s : State) (i : Nat) : State :=
  let c := getCore s i
  enterTrap (updCore s i Core.fpeTaken) i c.pc trFpe c.fpeValue true

/-- Return from a trap (R216). -/
def trapReturn (c : Core) : Core :=
  let ps := hi32 c.trapc &&& pstatMask
  let pc := c.epc.setWidth 48
  let c := if c.level = 1 then
      match c.shadow with
      | some (e, t, v) => { c with epc := e, trapc := t, trapv := v, shadow := none }
      | none => c
    else c
  { c with pstat := ps, lladdr := 0, pc := pc }

/-! ## Events at a boundary (R218, R219) -/

/-- The core is at code of its own: it runs an instance, or code without one (R151). -/
def Core.busy (c : Core) : Bool := c.rstate == .running && (c.running.isSome || c.bare)

/-- The core can reach a boundary: its hub has been handed off and serves, its domain is on, it is in service, not
halted, and no read of a fabric port is outstanding. -/
def coreLive (s : State) (i : Nat) : Bool :=
  let h := i / 32
  let c := getCore s i
  serving s h && tget (fun _ => .off) s.boot.st h == .done && domOf s (64 * h + 36 + i % 32 / 8) == .on &&
  domOf s (64 * h + tCore (i % 32)) != .tileOff && c.rstate != .out && !c.halted && !c.portWait

/-- The core accepts asynchronous events: an idle core all, another with IE = 1 and INTRAP = 0 (R218). -/
def evAccept (c : Core) : Bool := c.isIdle || (c.ps psIE && !(c.ps psINTRAP))
/-- An event is accepted before the next instruction. -/
def eventDue (c : Core) : Bool := evAccept c && c.eventPend

/-- The core is at a boundary at which it would take an event: no halt comes first, and the instruction at hand has not
been answered by a port, nor is it a micro-routine in progress. -/
def atBoundary (s : State) (i : Nat) : Bool := coreLive s i && !(haltDue s i) && (getCore s i).ports.isEmpty && (getCore s i).micro.isNone

/-- A trap of item 1 to 3 of R219 at the boundary. An idle core runs no instance: CTX and TAG become 0, EPC 0 (R112;
assumption 107 for the other causes). -/
def asyncTrap (s : State) (i cause : Nat) (value : W64) : State :=
  let s := if (getCore s i).isIdle then updCore s i (fun c => { c with ctx := 0, tag := 0, pc := 0 }) else s
  let pc := (getCore s i).pc
  takeTrap s i pc pc cause value true

/-- With an FPE pending the trap is not taken, and the event stays pending. -/
def asyncTake (s : State) (i : Nat) (clear : Core → Core) (cause : Nat) (value : W64) : State :=
  let c := getCore s i
  if !(atBoundary s i) || !(evAccept c) || c.fpu.isSome then s
  else if c.fpePend then asyncTrap s i cause value
  else asyncTrap (updCore s i clear) i cause value

/-- WATCH of a core watchdog. -/
def watchTrap (s : State) (i : Nat) : State :=
  if (getCore s i).watch then asyncTake s i (fun c => { c with watch := false }) trWatch 1 else s
/-- ARRAY, after WATCH. -/
def arrayTrap (s : State) (i : Nat) : State :=
  match (getCore s i).array with
  | some v => if (getCore s i).watch then s else asyncTake s i (fun c => { c with array := none }) trArray v
  | none => s
/-- MEMERR of an earlier store, after WATCH and ARRAY. -/
def storeTrap (s : State) (i : Nat) : State :=
  let c := getCore s i
  match c.memerr with
  | some v =>
    if c.watch || c.array.isSome then s else asyncTake s i (fun c => { c with memerr := none }) trMemerr v
  | none => s

/-- Pre-emption (R151): the running codelet is saved at the head of its class and the class-3 instance taken. -/
def preempt (s : State) (i : Nat) : State :=
  let c := getCore s i
  if !(atBoundary s i) || !c.preempt || !(evAccept c) || c.watch || c.array.isSome || c.memerr.isSome || c.fpu.isSome then s
  else if c.fpePend then takeFpe s i
  else
    let s := updCore s i (fun c => { c with preempt := false, sleep := false })
    match c.running with
    | none => s
    | some x =>
      match freeFrames s (i / 32) x.part with
      | [] => s
      | f :: fs =>
        if !((readyOf s i).on.any (fun y => y.cls == 3)) then s else
        let k := Config.freeNat s.fresh % (f :: fs).length
        let (s, y) := saveFrame (drawn s) i x ((f :: fs).getD k f) false
        settle (coreNext (joinHead s i y) i) (i / 32)

/-- A dispatch interrupt of an idle core (R150). -/
def dispatchTake (s : State) (i : Nat) : State :=
  let c := getCore s i
  if !(atBoundary s i) || !c.isIdle || c.watch || c.array.isSome || c.memerr.isSome || (readyOf s i).len = 0 then s
  else settle (coreNext s i) (i / 32)

/-! ## Running one instruction -/

/-- What an instruction reads and writes, for the interlock with the floating-point unit (R200): general registers,
and whether it reads or writes N, Z, C or V. -/
structure Foot where
  reads  : List Nat := []
  writes : List Nat := []
  flags  : Bool := false

/-- General register that an operation in flight writes, that it reads, and whether it writes flags. -/
def FpOp.writesG (o : FpOp) : Option Nat :=
  if o.major = 0x12 && (fld o.func 5 0 = 8 || fld o.func 5 0 = 9 || fld o.func 5 0 = 0xC || fld o.func 5 0 = 0xE)
  then some o.rd.val else none
def FpOp.readsG (o : FpOp) : Option Nat :=
  if o.major = 0x12 && (fld o.func 5 0 = 0xA || fld o.func 5 0 = 0xB || fld o.func 5 0 = 0xD) then some o.ra.val else none
def FpOp.setsFlags (o : FpOp) : Bool := o.major == 0x10 && (fld o.func 5 0 == 0xA || fld o.func 5 0 == 0xB)

/-- The instruction must wait for the operation in flight. -/
def hazard (c : Core) (f : Foot) : Bool :=
  match c.fpu with
  | none => false
  | some o =>
    (match o.writesG with | some r => r != 0 && (f.reads ++ f.writes).contains r | none => false) ||
    (match o.readsG with | some r => r != 0 && f.writes.contains r | none => false) ||
    (o.setsFlags && f.flags)

/-- One instruction: its footprint, whether a prefix may repeat it (R189), how it meets the floating-point unit, and its
rule. -/
structure Op where
  foot : Foot
  rep  : Bool := false
  /-- it waits for the floating-point unit and delivers a pending FPE (R206) -/
  fp   : Bool := false
  /-- the word is illegal, and what it is (R223) -/
  ill  : Bool := false
  word : W32 := 0
  run  : Nat → State → Res

/-- Carry out the outcome of an instruction that began in state `s0`. A trap waits until the unit is idle. -/
def finish (s0 : State) (i : Nat) : Res → State
  | .next s => updCore s i (fun c => { c with pc := c.pc + 4, ports := [], micro := none })
  | .jump s pc => updCore s i (fun c => { c with pc := pc, ports := [], micro := none })
  | .done s => s
  | .wait s => s
  | .trap s cause v =>
    if (getCore s0 i).fpu.isSome then s0 else takeTrap s i (getCore s i).pc (getCore s i).pc cause v false
  | .after s cause v =>
    if (getCore s0 i).fpu.isSome then s0 else
    takeTrap s i (getCore s i).pc ((getCore s i).pc + 4) cause v false
  | .halt s cause => if (getCore s0 i).fpu.isSome then s0 else haltCore s i cause false

/-- The core executes its next instruction: it runs code, and no halt or event comes first. -/
def canStep (s : State) (i : Nat) : Bool :=
  let c := getCore s i
  coreLive s i && c.busy && !c.asleep && c.micro.isNone && (!c.ports.isEmpty || (!(haltDue s i) && !(eventDue c)))

/-- The boundary before an instruction: the core takes the decode mode its MCCTL holds (R235), and a core that has
left SLEEP is awake. -/
def boundary (s : State) (i : Nat) : State := setMode (updCore s i (fun c => { c with sleep := false })) i

/-- ILLEGAL with its word (R214). -/
def illegal (s : State) (w : W32) : Res := .trap s trIllegal (w.setWidth 64)
/-- EMU with its word; `tab` when a table-range word met an invalid entry (R225). -/
def emulate (s : State) (w : W32) (tab : Bool) : Res := .trap s trEmu (BitVec.ofNat 64 (b2n tab * 2 ^ 32 + w.toNat))

/-- What an instruction that has been fetched does. -/
def opRes (i : Nat) (o : Op) (s : State) : Res :=
  if o.ill then illegal s o.word
  else if hazard (getCore s i) o.foot then .wait s
  else o.run i s

/-- Before the fetch: a delivery point waits for the unit, and a pending FPE is taken there (R206, R219). -/
def beforeFetch (s : State) (i : Nat) (o : Op) (k : State → State) : State :=
  let c := getCore s i
  if o.fp && !o.ill then
    if c.fpu.isSome then s else if c.fpePend then takeFpe s i else k s
  else k s

/-- Fetch at PC, then run the instruction that the word is. -/
def stepOp (s : State) (i : Nat) (o : Op) : State :=
  beforeFetch (boundary s i) i o (fun s =>
    match fetchAt s i (getCore s i).pc with
    | .error r => finish s i r
    | .ok (t, _) => finish s i (opRes i o t))

/-- A row of the table that is an instruction of core c. -/
def runRow (c : CoreId) (o : Op) (s : State) : State :=
  if canStep s (coreIx c) then stepOp s (coreIx c) o else s

/-! ## Commands -/

/-- ARRAY_TRAP (R112, R219). -/
def execArrayTrap (c : CoreId) (s : State) : Out := .next (arrayTrap s (coreIx c))
/-- WATCH_TRAP (R52, R219). -/
def execWatchTrap (c : CoreId) (s : State) : Out := .next (watchTrap s (coreIx c))
/-- STORE_MEMERR (R214, R219). -/
def execStoreMemerr (c : CoreId) (s : State) : Out := .next (storeTrap s (coreIx c))
/-- DISPATCH_INTERRUPT (R150). -/
def execDispatchInterrupt (c : CoreId) (s : State) : Out := .next (dispatchTake s (coreIx c))
/-- PREEMPTION_INTERRUPT (R151). -/
def execPreemptionInterrupt (c : CoreId) (s : State) : Out := .next (preempt s (coreIx c))

end Sys2Proof.Machine
end

