-- ==== Sys2Proof/Machine/Integer.lean ====
section
/-! DEFINITION. Integer instructions, multiply and divide, decimal instructions, branches and jumps
(R172 to R181): majors 0x02 to 0x06 and 0x0C to 0x0F. -/
namespace Sys2Proof.Machine

/-! ## Shapes -/

/-- An instruction that computes a result and PSTAT from a core's registers. -/
def regOp (f : Foot) (rd : Nat) (g : Core → W64 × W32) : Op :=
  { foot := f, rep := true
    run := fun i s => .next (updCore s i (fun c => let r := g c; { c.setG rd r.1 with pstat := r.2 })) }

/-- rd := g(ra, rb), no flag changed. -/
def rrr (rd ra rb : Nat) (g : W64 → W64 → W64) : Op :=
  regOp { reads := [ra, rb], writes := [rd] } rd (fun c => (g (c.gr ra) (c.gr rb), c.pstat))
/-- rd := g(ra), no flag changed. -/
def rr (rd ra : Nat) (g : W64 → W64) : Op :=
  regOp { reads := [ra], writes := [rd] } rd (fun c => (g (c.gr ra), c.pstat))

/-- Sum or difference of ra and rb, flags with S (R172). -/
def arith (sf : Bool) (usesC : Bool) (rd ra rb : Nat) (g : Core → W64 → W64 → W64 × Bool × Bool) : Op :=
  regOp { reads := [ra, rb], writes := [rd], flags := sf || usesC } rd (fun c =>
    let r := g c (c.gr ra) (c.gr rb)
    (r.1, if sf then arithFlags c.pstat r else c.pstat))
/-- Bitwise operation, N and Z with S. -/
def logic (sf : Bool) (rd ra rb : Nat) (g : W64 → W64 → W64) : Op :=
  regOp { reads := [ra, rb], writes := [rd], flags := sf } rd (fun c =>
    let r := g (c.gr ra) (c.gr rb)
    (r, if sf then putNZ c.pstat r else c.pstat))

/-- 1 or 0 as a register value. -/
def bit64 (b : Bool) : W64 := BitVec.ofNat 64 (b2n b)

/-! ## Major 0x02 (R172) -/

def opAdd (sf : Bool) (rd ra rb : Nat) : Op := arith sf false rd ra rb (fun _ a b => addParts a b false)
def opSub (sf : Bool) (rd ra rb : Nat) : Op := arith sf false rd ra rb (fun _ a b => subParts a b true)
def opAdc (sf : Bool) (rd ra rb : Nat) : Op := arith sf true rd ra rb (fun c a b => addParts a b (c.ps psC))
def opSbc (sf : Bool) (rd ra rb : Nat) : Op := arith sf true rd ra rb (fun c a b => subParts a b (c.ps psC))
def opAnd (sf : Bool) (rd ra rb : Nat) : Op := logic sf rd ra rb (fun a b => a &&& b)
def opOr (sf : Bool) (rd ra rb : Nat) : Op := logic sf rd ra rb (fun a b => a ||| b)
def opXor (sf : Bool) (rd ra rb : Nat) : Op := logic sf rd ra rb (fun a b => a ^^^ b)
def opAndn (sf : Bool) (rd ra rb : Nat) : Op := logic sf rd ra rb (fun a b => a &&& ~~~b)
/-- CMP: rd and S take no part. -/
def opCmp (ra rb : Nat) : Op :=
  regOp { reads := [ra, rb], flags := true } 0 (fun c =>
    let r := subParts (c.gr ra) (c.gr rb) true
    (r.1, arithFlags c.pstat r))
def opSlt (rd ra rb : Nat) : Op := rrr rd ra rb (fun a b => bit64 (a.slt b))
def opSltu (rd ra rb : Nat) : Op := rrr rd ra rb (fun a b => bit64 (a.ult b))
def opMin (rd ra rb : Nat) : Op := rrr rd ra rb (fun a b => if a.slt b then a else b)
def opMax (rd ra rb : Nat) : Op := rrr rd ra rb (fun a b => if a.slt b then b else a)
def opMinu (rd ra rb : Nat) : Op := rrr rd ra rb (fun a b => if a.ult b then a else b)
def opMaxu (rd ra rb : Nat) : Op := rrr rd ra rb (fun a b => if a.ult b then b else a)

/-! ## Major 0x03 (R173) -/

def sx12 (imm : BitVec 12) : W64 := imm.signExtend 64
def zx12 (imm : BitVec 12) : W64 := imm.setWidth 64
def opAddi (rd ra : Nat) (imm : BitVec 12) : Op := rr rd ra (fun a => a + sx12 imm)
def opAddis (rd ra : Nat) (imm : BitVec 12) : Op :=
  regOp { reads := [ra], writes := [rd], flags := true } rd (fun c =>
    let r := addParts (c.gr ra) (sx12 imm) false
    (r.1, arithFlags c.pstat r))
def opAndi (rd ra : Nat) (imm : BitVec 12) : Op := rr rd ra (fun a => a &&& zx12 imm)
def opOri (rd ra : Nat) (imm : BitVec 12) : Op := rr rd ra (fun a => a ||| zx12 imm)
def opXori (rd ra : Nat) (imm : BitVec 12) : Op := rr rd ra (fun a => a ^^^ zx12 imm)
/-- CMPI: rd takes no part. -/
def opCmpi (ra : Nat) (imm : BitVec 12) : Op :=
  regOp { reads := [ra], flags := true } 0 (fun c =>
    let r := subParts (c.gr ra) (sx12 imm) true
    (r.1, arithFlags c.pstat r))
def opSlti (rd ra : Nat) (imm : BitVec 12) : Op := rr rd ra (fun a => bit64 (a.slt (sx12 imm)))
def opSltiu (rd ra : Nat) (imm : BitVec 12) : Op := rr rd ra (fun a => bit64 (a.ult (sx12 imm)))
def opShori (rd ra : Nat) (imm : BitVec 12) : Op := rr rd ra (fun a => (a <<< 12) ||| zx12 imm)

/-! ## Major 0x04 (R174) -/

/-- Bits [5:0] of a shift count. -/
def cnt6 (b : W64) : Nat := fld b 5 0
def opSll (rd ra rb : Nat) : Op := rrr rd ra rb (fun a b => a <<< cnt6 b)
def opSrl (rd ra rb : Nat) : Op := rrr rd ra rb (fun a b => a >>> cnt6 b)
def opSra (rd ra rb : Nat) : Op := rrr rd ra rb (fun a b => a.sshiftRight (cnt6 b))
def opRor (rd ra rb : Nat) : Op := rrr rd ra rb (fun a b => a.rotateRight (cnt6 b))
def opSlli (rd ra : Nat) (sh : BitVec 6) : Op := rr rd ra (fun a => a <<< sh.toNat)
def opSrli (rd ra : Nat) (sh : BitVec 6) : Op := rr rd ra (fun a => a >>> sh.toNat)
def opSrai (rd ra : Nat) (sh : BitVec 6) : Op := rr rd ra (fun a => a.sshiftRight sh.toNat)
def opRori (rd ra : Nat) (sh : BitVec 6) : Op := rr rd ra (fun a => a.rotateRight sh.toNat)
/-- Leading zeros, 64 for 0. -/
def clz64 (a : W64) : Nat := ((List.range 64).find? (fun k => a.getLsbD (63 - k))).getD 64
/-- Trailing zeros, 64 for 0. -/
def ctz64 (a : W64) : Nat := ((List.range 64).find? (fun k => a.getLsbD k)).getD 64
/-- Number of 1 bits. -/
def pop64 (a : W64) : Nat := ((List.range 64).filter (fun k => a.getLsbD k)).length
/-- The eight bytes in the opposite order. -/
def bswap64 (a : W64) : W64 := BitVec.ofNat 64 (beNat (natLe 8 a.toNat))
def opClz (rd ra : Nat) : Op := rr rd ra (fun a => BitVec.ofNat 64 (clz64 a))
def opCtz (rd ra : Nat) : Op := rr rd ra (fun a => BitVec.ofNat 64 (ctz64 a))
def opPopc (rd ra : Nat) : Op := rr rd ra (fun a => BitVec.ofNat 64 (pop64 a))
def opBswap (rd ra : Nat) : Op := rr rd ra bswap64
/-- BEXT: SH + 1 bits of ra from bit rb[5:0]. -/
def opBext (rd ra rb : Nat) (sh : BitVec 6) : Op :=
  rrr rd ra rb (fun a b => (a >>> cnt6 b) &&& BitVec.ofNat 64 (2 ^ (sh.toNat + 1) - 1))

/-! ## Major 0x05 (R175, R176) -/

def opMul (rd ra rb : Nat) : Op := rrr rd ra rb (fun a b => a * b)
def opMulh (rd ra rb : Nat) : Op :=
  rrr rd ra rb (fun a b => ((a.signExtend 128 * b.signExtend 128) >>> 64).setWidth 64)
def opMulhu (rd ra rb : Nat) : Op :=
  rrr rd ra rb (fun a b => ((a.setWidth 128 * b.setWidth 128) >>> 64).setWidth 64)
def opMul32 (rd ra rb : Nat) : Op :=
  rrr rd ra rb (fun a b => (lo32 a).signExtend 64 * (lo32 b).signExtend 64)

/-- Quotient, remainder and V of a division whose divisor is not 0 or whose DZE is 0 (R176). -/
def divParts (signed : Bool) (a b : W64) : W64 × W64 × Bool :=
  if b = 0 then (BitVec.allOnes 64, a, true)
  else if signed then
    if a = BitVec.intMin 64 && b = BitVec.allOnes 64 then (BitVec.intMin 64, 0, true)
    else (a.sdiv b, a.srem b, false)
  else (a / b, a % b, false)

/-- DIV, DIVU, REM and REMU; IDZ with the dividend when DZE is 1. -/
def divOp (signed rem : Bool) (rd ra rb : Nat) : Op :=
  { foot := { reads := [ra, rb], writes := [rd], flags := true }, rep := true
    run := fun i s =>
      let c := getCore s i
      if c.gr rb = 0 && c.ps psDZE then .trap s trIdz (c.gr ra) else
      let r := divParts signed (c.gr ra) (c.gr rb)
      .next (setCore s i { c.setG rd (if rem then r.2.1 else r.1) with pstat := putV c.pstat r.2.2 }) }
def opDiv (rd ra rb : Nat) : Op := divOp true false rd ra rb
def opDivu (rd ra rb : Nat) : Op := divOp false false rd ra rb
def opRem (rd ra rb : Nat) : Op := divOp true true rd ra rb
def opRemu (rd ra rb : Nat) : Op := divOp false true rd ra rb

/-! ## Major 0x06 (R178 to R180) -/

/-- Digit k. -/
def digit (a : W64) (k : Nat) : Nat := fld a (4 * k + 3) (4 * k)
/-- Some nibble is a bad digit. -/
def anyBad (a : W64) : Bool := (List.range 16).any (fun k => decide (10 ≤ digit a k))

/-- One digit of an addition: digit and carry. -/
def dAddStep (a b c : Nat) : Nat × Nat := if 10 ≤ a + b + c then ((a + b + c - 10) % 16, 1) else (a + b + c, 0)
/-- One digit of a subtraction: digit and borrow. -/
def dSubStep (a b c : Nat) : Nat × Nat := if a < b + c then ((a + 10 + 16 - b - c) % 16, 1) else (a - b - c, 0)

/-- Sixteen digit steps from the lowest: value and final carry. -/
def decSteps (f : Nat → Nat → Nat → Nat × Nat) (a b : W64) : W64 × Bool :=
  let r := (List.range 16).foldl (fun (q : Nat × Nat) k =>
    let d := f (digit a k) (digit b k) q.2
    (q.1 + d.1 * 16 ^ k, d.2)) (0, 0)
  (BitVec.ofNat 64 r.1, r.2 == 1)

def opDadd (rd ra rb : Nat) : Op :=
  regOp { reads := [ra, rb], writes := [rd], flags := true } rd (fun c =>
    let r := decSteps dAddStep (c.gr ra) (c.gr rb)
    (r.1, putZ (putDec c.pstat r.2 (anyBad (c.gr ra) || anyBad (c.gr rb))) (r.1 == 0)))
def opDsub (rd ra rb : Nat) : Op :=
  regOp { reads := [ra, rb], writes := [rd], flags := true } rd (fun c =>
    let r := decSteps dSubStep (c.gr ra) (c.gr rb)
    (r.1, putZ (putDec c.pstat r.2 (anyBad (c.gr ra) || anyBad (c.gr rb))) (r.1 == 0)))
/-- DADJ never sets BD. -/
def opDadj (rd ra : Nat) : Op :=
  regOp { reads := [ra], writes := [rd], flags := true } rd (fun c =>
    let r := decSteps dAddStep (c.gr ra) 0
    (r.1, putZ (putDec c.pstat r.2 false) (r.1 == 0)))
/-- DCMP: DC as DSUB, Z := (ra = rb), nothing written. -/
def opDcmp (ra rb : Nat) : Op :=
  regOp { reads := [ra, rb], flags := true } 0 (fun c =>
    let r := decSteps dSubStep (c.gr ra) (c.gr rb)
    (r.1, putZ (putDec c.pstat r.2 (anyBad (c.gr ra) || anyBad (c.gr rb))) (c.gr ra == c.gr rb)))

/-- Digits to shift: min(rb[4:0], 16). -/
def digitCount (b : W64) : Nat := min (fld b 4 0) 16
/-- DSHL and DSHR read every nibble of ra; rb is a count. -/
def opDshl (rd ra rb : Nat) : Op :=
  regOp { reads := [ra, rb], writes := [rd] } rd (fun c =>
    let a := c.gr ra
    let n := digitCount (c.gr rb)
    (a <<< (4 * n), putDec c.pstat (decide (a.toNat / 2 ^ (64 - 4 * n) % 2 ^ (4 * n) ≠ 0)) (anyBad a)))
def opDshr (rd ra rb : Nat) : Op :=
  regOp { reads := [ra, rb], writes := [rd] } rd (fun c =>
    let a := c.gr ra
    let n := digitCount (c.gr rb)
    (a >>> (4 * n), putDec c.pstat (decide (1 ≤ n) && decide (5 ≤ digit a (n - 1))) (anyBad a)))

/-! ### BTOD and DTOB: long instructions, one digit a step (R179, R191) -/

/-- Steps of a long instruction under its count: `f` does one element; between elements the core would take an event
that has become due, and a step of the debugger ends (R191, R384). -/
def longSteps (i : Nat) (f : State → Except Res State) (fin : State → Res) : Nat → State → Res
  | 0, s => fin s
  | n + 1, s =>
    match f s with
    | .error r => r
    | .ok t =>
      if n ≠ 0 && (eventDue (getCore t i) || haltDue t i || (getCore t i).stepReq) then .wait t else longSteps i f fin n t

/-- One step of BTOD. The nibble that enters a step is the digit it produces, which is below 10. -/
def btodStep (rd ra i : Nat) (s : State) : Except Res State :=
  .ok (updCore s i (fun c =>
    let a := c.gr ra
    let c := { c with cnt := c.cnt - 1 }
    (c.setG rd ((c.gr rd >>> 4) ||| ((a % 10) <<< 60))).setG ra (a / 10)))
/-- One step of DTOB: the highest nibble of ra enters. -/
def dtobStep (rd ra i : Nat) (s : State) : Except Res State :=
  .ok (updCore s i (fun c =>
    let a := c.gr ra
    let d := a >>> 60
    let c := { c with cnt := c.cnt - 1, pstat := if 10 ≤ d.toNat then setFld c.pstat psBD psBD 1 else c.pstat }
    (c.setG rd (c.gr rd * 10 + d)).setG ra (a <<< 4)))

def putDC (c : Core) (b : Bool) : Core := c.setPs psDC b
def opBtod (w : W32) (rd ra : Nat) : Op :=
  { foot := { reads := [rd, ra], writes := [rd, ra] }, ill := rd == ra, word := w
    run := fun i s =>
      longSteps i (btodStep rd ra i) (fun s => .next (updCore s i (fun c => putDC c (c.gr ra != 0)))) (getCore s i).cnt.toNat s }
def opDtob (w : W32) (rd ra : Nat) : Op :=
  { foot := { reads := [rd, ra], writes := [rd, ra] }, ill := rd == ra, word := w
    run := fun i s =>
      longSteps i (dtobStep rd ra i) (fun s => .next (updCore s i (fun c => putDC c false))) (getCore s i).cnt.toNat s }

/-! ## Majors 0x0C to 0x0F (R181) -/

def opBr (disp : BitVec 26) : Op :=
  { foot := {}, run := fun i s => .jump s (brTarget (getCore s i).pc (disp.signExtend 64)) }
/-- BL: the link is the address after the branch. -/
def opBl (disp : BitVec 26) : Op :=
  { foot := { writes := [31] }
    run := fun i s =>
      let pc := (getCore s i).pc
      .jump (updCore s i (fun c => c.setG 31 ((pc + 4).setWidth 64))) (brTarget pc (disp.signExtend 64)) }
def opBcc (cond : BitVec 4) (disp : BitVec 22) : Op :=
  { foot := { flags := cond.toNat < 0xE }
    run := fun i s =>
      if condHolds (getCore s i) cond.toNat then .jump s (brTarget (getCore s i).pc (disp.signExtend 64)) else .next s }
def opJr (ra : Nat) : Op :=
  { foot := { reads := [ra] }
    run := fun i s =>
      let a := (getCore s i).gr ra
      if fld a 1 0 ≠ 0 then .trap s trAlign a else .jump s (a.setWidth 48) }
/-- JLR takes G[ra] before rd is written. -/
def opJlr (rd ra : Nat) : Op :=
  { foot := { reads := [ra], writes := [rd] }
    run := fun i s =>
      let c := getCore s i
      let a := c.gr ra
      if fld a 1 0 ≠ 0 then .trap s trAlign a
      else .jump (setCore s i (c.setG rd ((c.pc + 4).setWidth 64))) (a.setWidth 48) }

/-! ## Words (R170) -/

/-- A word of format R. -/
def encR (major rd ra rb func : Nat) : W32 :=
  BitVec.ofNat 32 (major * 2 ^ 26 + rd * 2 ^ 21 + ra * 2 ^ 16 + rb * 2 ^ 11 + func)
/-- A word of format I. -/
def encI (major rd ra imm : Nat) : W32 := BitVec.ofNat 32 (major * 2 ^ 26 + rd * 2 ^ 21 + ra * 2 ^ 16 + imm)

/-! ## Instruction rows -/

/-- ADD (R172). -/
def execAdd (c : CoreId) (setf : Bool) (rd : Reg) (ra : Reg) (rb : Reg) (s : State) : Out :=
  .next (runRow c (opAdd setf rd ra rb) s)
/-- SUB (R172). -/
def execSub (c : CoreId) (setf : Bool) (rd : Reg) (ra : Reg) (rb : Reg) (s : State) : Out :=
  .next (runRow c (opSub setf rd ra rb) s)
/-- ADC (R172). -/
def execAdc (c : CoreId) (setf : Bool) (rd : Reg) (ra : Reg) (rb : Reg) (s : State) : Out :=
  .next (runRow c (opAdc setf rd ra rb) s)
/-- SBC (R172). -/
def execSbc (c : CoreId) (setf : Bool) (rd : Reg) (ra : Reg) (rb : Reg) (s : State) : Out :=
  .next (runRow c (opSbc setf rd ra rb) s)
/-- AND (R172). -/
def execAnd (c : CoreId) (setf : Bool) (rd : Reg) (ra : Reg) (rb : Reg) (s : State) : Out :=
  .next (runRow c (opAnd setf rd ra rb) s)
/-- OR (R172). -/
def execOr (c : CoreId) (setf : Bool) (rd : Reg) (ra : Reg) (rb : Reg) (s : State) : Out :=
  .next (runRow c (opOr setf rd ra rb) s)
/-- XOR (R172). -/
def execXor (c : CoreId) (setf : Bool) (rd : Reg) (ra : Reg) (rb : Reg) (s : State) : Out :=
  .next (runRow c (opXor setf rd ra rb) s)
/-- ANDN (R172). -/
def execAndn (c : CoreId) (setf : Bool) (rd : Reg) (ra : Reg) (rb : Reg) (s : State) : Out :=
  .next (runRow c (opAndn setf rd ra rb) s)
/-- CMP (R172). -/
def execCmp (c : CoreId) (_setf : Bool) (_rd : Reg) (ra : Reg) (rb : Reg) (s : State) : Out :=
  .next (runRow c (opCmp ra rb) s)
/-- SLT (R172). -/
def execSlt (c : CoreId) (rd : Reg) (ra : Reg) (rb : Reg) (s : State) : Out := .next (runRow c (opSlt rd ra rb) s)
/-- SLTU (R172). -/
def execSltu (c : CoreId) (rd : Reg) (ra : Reg) (rb : Reg) (s : State) : Out := .next (runRow c (opSltu rd ra rb) s)
/-- MIN (R172). -/
def execMin (c : CoreId) (rd : Reg) (ra : Reg) (rb : Reg) (s : State) : Out := .next (runRow c (opMin rd ra rb) s)
/-- MAX (R172). -/
def execMax (c : CoreId) (rd : Reg) (ra : Reg) (rb : Reg) (s : State) : Out := .next (runRow c (opMax rd ra rb) s)
/-- MINU (R172). -/
def execMinu (c : CoreId) (rd : Reg) (ra : Reg) (rb : Reg) (s : State) : Out := .next (runRow c (opMinu rd ra rb) s)
/-- MAXU (R172). -/
def execMaxu (c : CoreId) (rd : Reg) (ra : Reg) (rb : Reg) (s : State) : Out := .next (runRow c (opMaxu rd ra rb) s)
/-- ADDI (R173). -/
def execAddi (c : CoreId) (rd : Reg) (ra : Reg) (imm : BitVec 12) (s : State) : Out :=
  .next (runRow c (opAddi rd ra imm) s)
/-- ADDIS (R173). -/
def execAddis (c : CoreId) (rd : Reg) (ra : Reg) (imm : BitVec 12) (s : State) : Out :=
  .next (runRow c (opAddis rd ra imm) s)
/-- ANDI (R173). -/
def execAndi (c : CoreId) (rd : Reg) (ra : Reg) (imm : BitVec 12) (s : State) : Out :=
  .next (runRow c (opAndi rd ra imm) s)
/-- ORI (R173). -/
def execOri (c : CoreId) (rd : Reg) (ra : Reg) (imm : BitVec 12) (s : State) : Out :=
  .next (runRow c (opOri rd ra imm) s)
/-- XORI (R173). -/
def execXori (c : CoreId) (rd : Reg) (ra : Reg) (imm : BitVec 12) (s : State) : Out :=
  .next (runRow c (opXori rd ra imm) s)
/-- CMPI (R173). -/
def execCmpi (c : CoreId) (_rd : Reg) (ra : Reg) (imm : BitVec 12) (s : State) : Out :=
  .next (runRow c (opCmpi ra imm) s)
/-- SLTI (R173). -/
def execSlti (c : CoreId) (rd : Reg) (ra : Reg) (imm : BitVec 12) (s : State) : Out :=
  .next (runRow c (opSlti rd ra imm) s)
/-- SLTIU (R173). -/
def execSltiu (c : CoreId) (rd : Reg) (ra : Reg) (imm : BitVec 12) (s : State) : Out :=
  .next (runRow c (opSltiu rd ra imm) s)
/-- SHORI (R173). -/
def execShori (c : CoreId) (rd : Reg) (ra : Reg) (imm : BitVec 12) (s : State) : Out :=
  .next (runRow c (opShori rd ra imm) s)
/-- SLL (R174). -/
def execSll (c : CoreId) (rd : Reg) (ra : Reg) (rb : Reg) (s : State) : Out := .next (runRow c (opSll rd ra rb) s)
/-- SRL (R174). -/
def execSrl (c : CoreId) (rd : Reg) (ra : Reg) (rb : Reg) (s : State) : Out := .next (runRow c (opSrl rd ra rb) s)
/-- SRA (R174). -/
def execSra (c : CoreId) (rd : Reg) (ra : Reg) (rb : Reg) (s : State) : Out := .next (runRow c (opSra rd ra rb) s)
/-- ROR (R174). -/
def execRor (c : CoreId) (rd : Reg) (ra : Reg) (rb : Reg) (s : State) : Out := .next (runRow c (opRor rd ra rb) s)
/-- SLLI (R174). -/
def execSlli (c : CoreId) (rd : Reg) (ra : Reg) (sh : BitVec 6) (s : State) : Out :=
  .next (runRow c (opSlli rd ra sh) s)
/-- SRLI (R174). -/
def execSrli (c : CoreId) (rd : Reg) (ra : Reg) (sh : BitVec 6) (s : State) : Out :=
  .next (runRow c (opSrli rd ra sh) s)
/-- SRAI (R174). -/
def execSrai (c : CoreId) (rd : Reg) (ra : Reg) (sh : BitVec 6) (s : State) : Out :=
  .next (runRow c (opSrai rd ra sh) s)
/-- RORI (R174). -/
def execRori (c : CoreId) (rd : Reg) (ra : Reg) (sh : BitVec 6) (s : State) : Out :=
  .next (runRow c (opRori rd ra sh) s)
/-- CLZ (R174). -/
def execClz (c : CoreId) (rd : Reg) (ra : Reg) (s : State) : Out := .next (runRow c (opClz rd ra) s)
/-- CTZ (R174). -/
def execCtz (c : CoreId) (rd : Reg) (ra : Reg) (s : State) : Out := .next (runRow c (opCtz rd ra) s)
/-- POPC (R174). -/
def execPopc (c : CoreId) (rd : Reg) (ra : Reg) (s : State) : Out := .next (runRow c (opPopc rd ra) s)
/-- BSWAP (R174). -/
def execBswap (c : CoreId) (rd : Reg) (ra : Reg) (s : State) : Out := .next (runRow c (opBswap rd ra) s)
/-- BEXT (R174). -/
def execBext (c : CoreId) (rd : Reg) (ra : Reg) (rb : Reg) (sh : BitVec 6) (s : State) : Out :=
  .next (runRow c (opBext rd ra rb sh) s)
/-- MUL (R175). -/
def execMul (c : CoreId) (rd : Reg) (ra : Reg) (rb : Reg) (s : State) : Out := .next (runRow c (opMul rd ra rb) s)
/-- MULH (R175). -/
def execMulh (c : CoreId) (rd : Reg) (ra : Reg) (rb : Reg) (s : State) : Out := .next (runRow c (opMulh rd ra rb) s)
/-- MULHU (R175). -/
def execMulhu (c : CoreId) (rd : Reg) (ra : Reg) (rb : Reg) (s : State) : Out := .next (runRow c (opMulhu rd ra rb) s)
/-- MUL32 (R175). -/
def execMul32 (c : CoreId) (rd : Reg) (ra : Reg) (rb : Reg) (s : State) : Out := .next (runRow c (opMul32 rd ra rb) s)
/-- DIV (R176). -/
def execDiv (c : CoreId) (rd : Reg) (ra : Reg) (rb : Reg) (s : State) : Out := .next (runRow c (opDiv rd ra rb) s)
/-- DIVU (R176). -/
def execDivu (c : CoreId) (rd : Reg) (ra : Reg) (rb : Reg) (s : State) : Out := .next (runRow c (opDivu rd ra rb) s)
/-- REM (R176). -/
def execRem (c : CoreId) (rd : Reg) (ra : Reg) (rb : Reg) (s : State) : Out := .next (runRow c (opRem rd ra rb) s)
/-- REMU (R176). -/
def execRemu (c : CoreId) (rd : Reg) (ra : Reg) (rb : Reg) (s : State) : Out := .next (runRow c (opRemu rd ra rb) s)
/-- DADD (R178). -/
def execDadd (c : CoreId) (rd : Reg) (ra : Reg) (rb : Reg) (s : State) : Out := .next (runRow c (opDadd rd ra rb) s)
/-- DSUB (R178). -/
def execDsub (c : CoreId) (rd : Reg) (ra : Reg) (rb : Reg) (s : State) : Out := .next (runRow c (opDsub rd ra rb) s)
/-- DADJ (R178). -/
def execDadj (c : CoreId) (rd : Reg) (ra : Reg) (s : State) : Out := .next (runRow c (opDadj rd ra) s)
/-- DCMP (R178). -/
def execDcmp (c : CoreId) (ra : Reg) (rb : Reg) (s : State) : Out := .next (runRow c (opDcmp ra rb) s)
/-- DSHL (R178). -/
def execDshl (c : CoreId) (rd : Reg) (ra : Reg) (rb : Reg) (s : State) : Out := .next (runRow c (opDshl rd ra rb) s)
/-- DSHR (R178). -/
def execDshr (c : CoreId) (rd : Reg) (ra : Reg) (rb : Reg) (s : State) : Out := .next (runRow c (opDshr rd ra rb) s)
/-- BTOD (R179). -/
def execBtod (c : CoreId) (rd : Reg) (ra : Reg) (s : State) : Out :=
  .next (runRow c (opBtod (encR 0x06 rd ra 0 6) rd ra) s)
/-- DTOB (R179). -/
def execDtob (c : CoreId) (rd : Reg) (ra : Reg) (s : State) : Out :=
  .next (runRow c (opDtob (encR 0x06 rd ra 0 7) rd ra) s)
/-- BR (R181). -/
def execBr (c : CoreId) (disp : BitVec 26) (s : State) : Out := .next (runRow c (opBr disp) s)
/-- BL (R181). -/
def execBl (c : CoreId) (disp : BitVec 26) (s : State) : Out := .next (runRow c (opBl disp) s)
/-- BCC (R181). -/
def execBcc (c : CoreId) (cond : BitVec 4) (disp : BitVec 22) (s : State) : Out :=
  .next (runRow c (opBcc cond disp) s)
/-- JR (R181). -/
def execJr (c : CoreId) (ra : Reg) (s : State) : Out := .next (runRow c (opJr ra) s)
/-- JLR (R181). -/
def execJlr (c : CoreId) (rd : Reg) (ra : Reg) (s : State) : Out := .next (runRow c (opJlr rd ra) s)

end Sys2Proof.Machine
end

