-- ==== Sys2Proof/Machine/LoadStore.lean ====
section
/-! DEFINITION. Loads and stores, locked sequences and atomics, block operations and prefixes (R182 to R191, R211):
majors 0x01, 0x08 to 0x0B, 0x13 and 0x19. -/
namespace Sys2Proof.Machine

/-- A loaded value, sign-extended with SX (R182). -/
def extLoad (sx : Bool) (n : Nat) (v : W64) : W64 := if sx then sextN (8 * n) v.toNat else v

/-- A base register that takes the effective address. -/
def putBase (c : Core) (u : Bool) (ra : Nat) (ea : W64) : Core := if u then c.setG ra ea else c

/-- How a load from a port finishes by itself; under a prefix it does not. -/
def portFin (pfx sx fdst : Bool) (rd : Nat) (u : Bool) (ra : Nat) (ea : W64) : Option PortFin :=
  if pfx then none else
  some { sx := sx, fdst := fdst, rd := ⟨rd % 32, Nat.mod_lt _ (by decide)⟩,
         upd := if u then some (⟨ra % 32, Nat.mod_lt _ (by decide)⟩, ea) else none }

/-! ## Majors 0x08 to 0x0A (R182, R183) -/

/-- A load: rd := value; with U the base takes ea after the access. -/
def loadRun (pfx : Bool) (sz : BitVec 2) (sx u : Bool) (rd ra : Nat) (ea : Core → W64) (i : Nat) (s : State) : Res :=
  let a := ea (getCore s i)
  let n := szBytes sz
  (coreLoadV s i a n (portFin pfx sx false rd u ra a)).fin (fun s v =>
    .next (updCore s i (fun c => putBase (c.setG rd (extLoad sx n v)) u ra a)))
/-- A store of G[rd]. -/
def storeRun (sz : BitVec 2) (u : Bool) (rd ra : Nat) (ea : Core → W64) (i : Nat) (s : State) : Res :=
  let c := getCore s i
  let a := ea c
  (coreStoreV s i a (szBytes sz) (c.gr rd)).fin (fun s _ => .next (updCore s i (fun c => putBase c u ra a)))

def opLoad (pfx : Bool) (w : W32) (sz : BitVec 2) (sx u : Bool) (off : BitVec 12) (rd ra : Nat) : Op :=
  { foot := { reads := [ra], writes := if u then [rd, ra] else [rd] }, rep := true
    ill := (sx && sz == 3) || (u && rd == ra), word := w
    run := loadRun pfx sz sx u rd ra (fun c => eaImm (c.gr ra) off (szBytes sz)) }
def opStore (sz : BitVec 2) (u : Bool) (off : BitVec 12) (rd ra : Nat) : Op :=
  { foot := { reads := [rd, ra], writes := if u then [ra] else [] }, rep := true
    run := storeRun sz u rd ra (fun c => eaImm (c.gr ra) off (szBytes sz)) }
def opLoadIndexed (pfx : Bool) (w : W32) (sz : BitVec 2) (sx : Bool) (rd ra rb : Nat) : Op :=
  { foot := { reads := [ra, rb], writes := [rd] }, rep := true, ill := sx && sz == 3, word := w
    run := loadRun pfx sz sx false rd ra (fun c => eaIdx (c.gr ra) (c.gr rb) sz) }
def opStoreIndexed (sz : BitVec 2) (rd ra rb : Nat) : Op :=
  { foot := { reads := [rd, ra, rb] }, rep := true
    run := storeRun sz false rd ra (fun c => eaIdx (c.gr ra) (c.gr rb) sz) }

/-! ## Major 0x13 (R211) -/

def opFpLoad (w : W32) (sz : BitVec 2) (off : BitVec 12) (fd ra : Nat) : Op :=
  { foot := { reads := [ra] }, fp := true, ill := sz == 0, word := w
    run := fun i s =>
      let a := eaImm ((getCore s i).gr ra) off (szBytes sz)
      (coreLoadV s i a (szBytes sz) (portFin false false true fd false ra a)).fin (fun s v =>
        .next (updCore s i (fun c => c.setFr fd v))) }
def opFpStore (w : W32) (sz : BitVec 2) (off : BitVec 12) (fd ra : Nat) : Op :=
  { foot := { reads := [ra] }, fp := true, ill := sz == 0, word := w
    run := fun i s =>
      let c := getCore s i
      (coreStoreV s i (eaImm (c.gr ra) off (szBytes sz)) (szBytes sz) (c.fr fd)).fin (fun s _ => .next s) }

/-! ## Major 0x0B (R185 to R187) -/

/-- The 64-byte granule of an address. -/
def granule (a : W64) : W64 := a &&& ~~~(63 : W64)

def opLdl (rd ra : Nat) : Op :=
  { foot := { reads := [ra], writes := [rd] }
    run := fun i s =>
      let a := (getCore s i).gr ra
      ((lockCheck s i a false).bind (fun s _ => loadAt s i a.toNat 8 none)).fin (fun s v =>
        .next (updCore s i (fun c => { c.setG rd v with lladdr := granule a ||| 1 }))) }

/-- The reservation held is for the granule of a. -/
def holdsRes (c : Core) (a : W64) : Bool := c.reserved && granule c.lladdr == granule a

def opStc (rd ra rb : Nat) : Op :=
  { foot := { reads := [ra, rb], writes := [rd] }
    run := fun i s =>
      let a := (getCore s i).gr ra
      let v := (getCore s i).gr rb
      let ended (s : State) (r : W64) : Res := .next (updCore s i (fun c => { c.setG rd r with lladdr := 0 }))
      (lockCheck s i a false).fin (fun s _ =>
        if holdsRes (getCore s i) a then (lockStore s i a.toNat v).fin (fun s _ => ended s 0) else ended s 1) }

/-- An atomic: what it stores for the old value, and what it writes back; `c` is the core as the instruction began. -/
def atomicOp (rd ra rb : Nat) (flags : Bool) (new : Core → W64 → Option W64) (back : Core → Core → W64 → Core) : Op :=
  { foot := { reads := [rd, ra, rb], writes := [rd], flags := flags }
    run := fun i s =>
      let c := getCore s i
      let a := c.gr ra
      ((lockCheck s i a true).bind (fun s _ => loadAt s i a.toNat 8 none)).fin (fun s old =>
        match new c old with
        | none => .next (updCore s i (fun d => back c d old))
        | some v => (lockStore s i a.toNat v).fin (fun s _ => .next (updCore s i (fun d => back c d old)))) }
def opAadd (rd ra rb : Nat) : Op := atomicOp rd ra rb false (fun c old => some (old + c.gr rb)) (fun _ d old => d.setG rd old)
def opAswap (rd ra rb : Nat) : Op := atomicOp rd ra rb false (fun c _ => some (c.gr rb)) (fun _ d old => d.setG rd old)
/-- ACAS compares with rd; Z := equal. -/
def opAcas (rd ra rb : Nat) : Op :=
  atomicOp rd ra rb true (fun c old => if old = c.gr rd then some (c.gr rb) else none)
    (fun c d old => { d.setG rd old with pstat := putZ d.pstat (old == c.gr rd) })

/-! ## Major 0x19 (R190, R191) -/

/-- The checks of a block operation before any effect: each pointer aligned to the element. -/
def blockAlign (s : State) (ps : List W64) (n : Nat) : Option Res :=
  (ps.find? (fun p => p.toNat % n != 0)).map (fun p => .trap s trAlign p)

/-- Add the element size to registers, and count one element. -/
def blockNext (s : State) (i n : Nat) (rs : List Nat) : State :=
  updCore (portsUsed s i) i (fun c =>
    let c := rs.foldl (fun c r => c.setG r (c.gr r + BitVec.ofNat 64 n)) c
    { c with cnt := c.cnt - 1 })

/-- One element of BMOVE: both checks, then the load, then the store. -/
def bmoveStep (n rd ra i : Nat) (s : State) : Except Res State :=
  let c := getCore s i
  match (dataCheck s i (c.gr ra) n 1 2).bind (fun s _ =>
      (dataCheck s i (c.gr rd) n 2 3).bind (fun s _ =>
        (loadAt s i (c.gr ra).toNat n none).bind (fun s v => storeAt s i (c.gr rd).toNat n v))) with
  | .ok (s, _) => .ok (blockNext s i n [rd, ra])
  | .error r => .error r
def bfillStep (n rd ra i : Nat) (s : State) : Except Res State :=
  let c := getCore s i
  match coreStoreV s i (c.gr rd) n (c.gr ra) with
  | .ok (s, _) => .ok (blockNext s i n [rd])
  | .error r => .error r
/-- One element of BCMP; at a difference the instruction ends with the pointers at it. -/
def bcmpStep (n rd ra i : Nat) (s : State) : Except Res State :=
  let c := getCore s i
  match (dataCheck s i (c.gr rd) n 1 2).bind (fun s _ =>
      (dataCheck s i (c.gr ra) n 1 2).bind (fun s _ =>
        (loadAt s i (c.gr rd).toNat n none).bind (fun s x =>
          (loadAt s i (c.gr ra).toNat n none).bind (fun s y => .ok (s, (x, y)))))) with
  | .ok (s, (x, y)) =>
    if x = y then .ok (blockNext s i n [rd, ra])
    else .error (.next (updCore s i (fun c => { c with pstat := putC (putZ c.pstat false) (decide (y.toNat ≤ x.toNat)) })))
  | .error r => .error r

/-- A block operation: `first` prepares the core; each element is one step of the count. -/
def blockOp (w : W32) (sz : BitVec 2) (rd ra : Nat) (flags : Bool) (ptrs : List Nat) (regs : List Nat) (first : Nat → State → State)
    (step : Nat → Nat → State → Except Res State) : Op :=
  { foot := { reads := [rd, ra], writes := regs, flags := flags }, ill := rd == ra, word := w
    run := fun i s =>
      let c := getCore s i
      let n := szBytes sz
      match blockAlign s (ptrs.map c.gr) n with
      | some r => r
      | none => longSteps i (step n i) (fun s => .next s) c.cnt.toNat (first i s) }

/-- When both pointers are misaligned, the source is named (assumption 108). -/
def opBmove (w : W32) (sz : BitVec 2) (rd ra : Nat) : Op :=
  blockOp w sz rd ra false [ra, rd] [rd, ra] (fun _ s => s) (fun n i s => bmoveStep n rd ra i s)
def opBfill (w : W32) (sz : BitVec 2) (rd ra : Nat) : Op :=
  blockOp w sz rd ra false [rd] [rd] (fun _ s => s) (fun n i s => bfillStep n rd ra i s)
def opBcmp (w : W32) (sz : BitVec 2) (rd ra : Nat) : Op :=
  blockOp w sz rd ra true [ra, rd] [rd, ra]
    (fun i s => updCore s i (fun c => { c with pstat := putZ c.pstat true })) (fun n i s => bcmpStep n rd ra i s)

/-! ## Commands -/

def imm16 (sz : BitVec 2) (b13 b12 : Bool) (off : BitVec 12) : Nat :=
  sz.toNat * 2 ^ 14 + b2n b13 * 2 ^ 13 + b2n b12 * 2 ^ 12 + off.toNat

/-- LOAD (R182). -/
def execLoad (c : CoreId) (sz : BitVec 2) (sx u : Bool) (off : BitVec 12) (rd ra : Reg) (s : State) : Out :=
  .next (runRow c (opLoad false (encI 0x08 rd ra (imm16 sz sx u off)) sz sx u off rd ra) s)
/-- STORE (R182). -/
def execStore (c : CoreId) (sz : BitVec 2) (u : Bool) (off : BitVec 12) (rd ra : Reg) (s : State) : Out :=
  .next (runRow c (opStore sz u off rd ra) s)
/-- LOAD_INDEXED (R182). -/
def execLoadIndexed (c : CoreId) (sz : BitVec 2) (sx : Bool) (rd ra rb : Reg) (s : State) : Out :=
  .next (runRow c (opLoadIndexed false (encR 0x0A rd ra rb (sz.toNat * 512 + b2n sx * 256)) sz sx rd ra rb) s)
/-- STORE_INDEXED (R182). -/
def execStoreIndexed (c : CoreId) (sz : BitVec 2) (rd ra rb : Reg) (s : State) : Out :=
  .next (runRow c (opStoreIndexed sz rd ra rb) s)
/-- FP_LOAD (R211). -/
def execFpLoad (c : CoreId) (sz : BitVec 2) (off : BitVec 12) (fd ra : Reg) (s : State) : Out :=
  .next (runRow c (opFpLoad (encI 0x13 fd ra (sz.toNat * 2 ^ 13 + off.toNat)) sz off fd ra) s)
/-- FP_STORE (R211). -/
def execFpStore (c : CoreId) (sz : BitVec 2) (off : BitVec 12) (fd ra : Reg) (s : State) : Out :=
  .next (runRow c (opFpStore (encI 0x13 fd ra (2 ^ 15 + sz.toNat * 2 ^ 13 + off.toNat)) sz off fd ra) s)
/-- LDL (R185). -/
def execLdl (c : CoreId) (rd ra : Reg) (s : State) : Out := .next (runRow c (opLdl rd ra) s)
/-- STC (R185). -/
def execStc (c : CoreId) (rd ra rb : Reg) (s : State) : Out := .next (runRow c (opStc rd ra rb) s)
/-- AADD (R185). -/
def execAadd (c : CoreId) (rd ra rb : Reg) (s : State) : Out := .next (runRow c (opAadd rd ra rb) s)
/-- ASWAP (R185). -/
def execAswap (c : CoreId) (rd ra rb : Reg) (s : State) : Out := .next (runRow c (opAswap rd ra rb) s)
/-- ACAS (R185). -/
def execAcas (c : CoreId) (rd ra rb : Reg) (s : State) : Out := .next (runRow c (opAcas rd ra rb) s)
/-- BMOVE (R190). -/
def execBmove (c : CoreId) (sz : BitVec 2) (rd ra : Reg) (s : State) : Out :=
  .next (runRow c (opBmove (encR 0x19 rd ra 0 sz.toNat) sz rd ra) s)
/-- BFILL (R190). -/
def execBfill (c : CoreId) (sz : BitVec 2) (rd ra : Reg) (s : State) : Out :=
  .next (runRow c (opBfill (encR 0x19 rd ra 0 (4 + sz.toNat)) sz rd ra) s)
/-- BCMP (R190). -/
def execBcmp (c : CoreId) (sz : BitVec 2) (rd ra : Reg) (s : State) : Out :=
  .next (runRow c (opBcmp (encR 0x19 rd ra 0 (8 + sz.toNat)) sz rd ra) s)

end Sys2Proof.Machine
end

