-- ==== Sys2Proof/Machine/System.lean ====
section
/-! DEFINITION. System instructions and the special-register moves (R151, R192, R206, R216, R222, R382):
majors 0x00 and 0x18. -/
namespace Sys2Proof.Machine

def opNop : Op := { foot := {}, run := fun _ s => .next s }

/-- SLEEP: the core stops fetching; with an event pending that it could take it goes straight on (R218). -/
def opSleep : Op :=
  { foot := {}
    run := fun i s => .next (updCore s i (fun c => if c.eventPend then c else { c with sleep := true })) }

/-- PSTAT that DONE restores inside a handler: from the outermost trap in progress (R151). -/
def outerPstat (c : Core) : W32 :=
  let t := if c.level = 1 then (match c.shadow with | some (_, t, _) => t | none => c.trapc) else c.trapc
  hi32 t &&& pstatMask

/-- DONE ends what the core runs: the core takes its next instance, or becomes idle (R151). -/
def doneRun (i : Nat) (s : State) : Res :=
  let s := updCore s i (fun c =>
    let c := if c.ps psINTRAP then { c with pstat := outerPstat c, shadow := none } else c
    { c with lladdr := 0, preempt := false })
  .done (settle (endInstance s i) (i / 32))
def opDone : Op := { foot := { flags := true }, fp := true, run := doneRun }

/-- YIELD without effect: 1 in rd. -/
def yieldFails (rd i : Nat) (s : State) : Res :=
  .next (updCore s i (fun c => { c.setG rd 1 with lladdr := 0 }))

/-- The saved instance joins the tail of its class in the same core's list; with no room it goes to its blotter. -/
def requeue (s : State) (i : Nat) (x : Inst) : State :=
  match joinTail s i x with
  | some s => s
  | none => spillReady s i x false

/-- YIELD saves the instance, with rd 0 and PC beyond the YIELD, and the core takes its next (R151, R192). -/
def yieldRun (rd i : Nat) (s : State) : Res :=
  let c := getCore s i
  match c.running with
  | none => yieldFails rd i s
  | some x =>
    match freeFrames s (i / 32) x.part with
    | [] => yieldFails rd i s
    | f :: fs =>
      if c.ps psINTRAP then yieldFails rd i s else
      let k := Config.freeNat s.fresh % (f :: fs).length
      let s := updCore (drawn s) i (fun c => { c.setG rd 0 with pc := c.pc + 4, lladdr := 0, preempt := false })
      let (s, y) := saveFrame s i x ((f :: fs).getD k f) true
      .done (settle (coreNext (requeue s i y) i) (i / 32))
def opYield (rd : Nat) : Op := { foot := { writes := [rd] }, fp := true, run := yieldRun rd }

def opFbar : Op := { foot := {}, fp := true, run := fun _ s => .next s }
/-- SYNC: every access of the model is performed when its instruction ends, so nothing is left to wait for (R171). -/
def opSync : Op := { foot := {}, run := fun _ s => .next s }
def opTrap (imm : BitVec 15) : Op := { foot := {}, run := fun _ s => .after s trTrap (imm.setWidth 64) }

/-- ERET (R216). -/
def opEret : Op :=
  { foot := { flags := true }, fp := true
    run := fun i s =>
      if (getCore s i).ps psINTRAP then .done (updCore s i trapReturn) else .trap s trState 0 }

/-- The BRK word. -/
def brkWord : W32 := encR 0 0 0 0 8
/-- BRK: a halt with CAUSE 3 while a debugger is attached, else its trap (R192, R382). -/
def opBrk : Op :=
  { foot := {}
    run := fun i s => if attached s (i / 32) then .halt s 3 else .trap s trBrk (brkWord.setWidth 64) }

/-! ## Major 0x18 (R222) -/

/-- FPCR and FPSR are delivery points (R206). -/
def fpSpr (spr : Nat) : Bool := spr == 3 || spr == 4
def opMfs (w : W32) (rd spr : Nat) : Op :=
  { foot := { writes := [rd], flags := spr == 1 }, fp := fpSpr spr, ill := decide (0x0C < spr), word := w
    run := fun i s => .next (updCore s i (fun c => c.setG rd ((sprRead s i spr).getD 0))) }
def opMts (w : W32) (spr ra : Nat) : Op :=
  { foot := { reads := [ra], flags := spr == 1 }, fp := fpSpr spr, ill := !(sprWritable spr), word := w
    run := fun i s => .next (updCore s i (fun c => sprWrite c spr (c.gr ra))) }

/-! ## Commands -/

/-- NOP (R192). -/
def execNop (c : CoreId) (s : State) : Out := .next (runRow c opNop s)
/-- SLEEP (R192, R218). -/
def execSleep (c : CoreId) (s : State) : Out := .next (runRow c opSleep s)
/-- DONE (R151). -/
def execDone (c : CoreId) (s : State) : Out := .next (runRow c opDone s)
/-- YIELD (R151). -/
def execYield (c : CoreId) (rd : Reg) (s : State) : Out := .next (runRow c (opYield rd) s)
/-- FBAR (R206). -/
def execFbar (c : CoreId) (s : State) : Out := .next (runRow c opFbar s)
/-- SYNC (R171). -/
def execSync (c : CoreId) (s : State) : Out := .next (runRow c opSync s)
/-- TRAP (R192). -/
def execTrap (c : CoreId) (imm : BitVec 15) (s : State) : Out := .next (runRow c (opTrap imm) s)
/-- ERET (R216). -/
def execEret (c : CoreId) (s : State) : Out := .next (runRow c opEret s)
/-- BRK (R192). -/
def execBrk (c : CoreId) (s : State) : Out := .next (runRow c opBrk s)
/-- MFS (R222). -/
def execMfs (c : CoreId) (rd : Reg) (spr : BitVec 8) (s : State) : Out :=
  .next (runRow c (opMfs (encR 0x18 rd 0 0 spr.toNat) rd spr.toNat) s)
/-- MTS (R222). -/
def execMts (c : CoreId) (spr : BitVec 8) (ra : Reg) (s : State) : Out :=
  .next (runRow c (opMts (encR 0x18 0 ra 0 (0x400 + spr.toNat)) spr.toNat ra) s)

end Sys2Proof.Machine
end

