-- ==== Sys2Proof/Machine/CoreUnits.lean ====
section
/-! DEFINITION. Token and context, array, ruling and evidence instructions (R109 to R112, R118, R124, R125, R154, R159,
R193 to R197): majors 0x14 to 0x17. -/
namespace Sys2Proof.Machine

/-! ## Tokens (R118, R193, R194) -/

/-- The destination hub that HSEL selects: own, other, or bit 12 of G[rd]. -/
def hselHub (c : Core) (i hsel rd : Nat) : Nat :=
  if hsel = 0 then i / 32 else if hsel = 1 then 1 - i / 32 else fld (c.gr rd) 12 12
/-- HSEL 0b11, or an rd that HSEL does not use. -/
def hselBad (hsel rd : Nat) : Bool := hsel == 3 || (hsel != 2 && rd != 0)

/-- TRAPV of TOKEN: the tag and the reason (R118). -/
def tokenTrap (s : State) (tag : W64) (reason : Nat) : Res :=
  .trap s trToken ((tag &&& ~~~(0xF : W64)) ||| BitVec.ofNat 64 reason)

/-- The tag with its port. -/
def withPort (tag : W64) (p : Nat) : W64 := setFld tag 7 6 p

/-- Send values to ports PORT up of one instance: all checked, then all sent (R118, R193, R194). -/
def sendRun (tag : W64) (vals : List W64) (dst i : Nat) (s : State) : Res :=
  let part := corePart s i
  match tokenCheck s dst part false tag with
  | (s, .inl r) => tokenTrap s tag r
  | (s, .inr d) =>
    if d.arity < tagPort tag + vals.length then tokenTrap s tag 8 else
    if !(pathAccepts s dst (mkTok tag 0 dst (.core (coreOf i)) part)) then .wait (settle s dst) else
    let s := ((List.range vals.length).foldl (fun s k =>
      inject s (i / 32) (mkTok (withPort tag (tagPort tag + k)) (vals.getD k 0) dst (.core (coreOf i)) part)) s)
    .next (updCore s i (fun c => { c with sent := c.sent + vals.length }))

def opSend (w : W32) (hsel rd ra rb : Nat) : Op :=
  { foot := { reads := [rd, ra, rb] }, ill := hselBad hsel rd, word := w
    run := fun i s => let c := getCore s i; sendRun (c.gr ra) [c.gr rb] (hselHub c i hsel rd) i s }
/-- SENDV sends n + 1 values. -/
def opSendv (w : W32) (hsel n rd ra rb : Nat) : Op :=
  { foot := { reads := rd :: ra :: (List.range (n + 1)).map (fun k => rb + k) }
    ill := hselBad hsel rd || decide (31 < rb + n), word := w
    run := fun i s =>
      let c := getCore s i
      sendRun (c.gr ra) ((List.range (n + 1)).map (fun k => c.gr (rb + k))) (hselHub c i hsel rd) i s }

/-! ## Contexts (R124, R125) -/

/-- What CTXNEW writes, and the state with the context it allocates. -/
def ctxNew (s : State) (h p : Nat) : State × W64 :=
  let none64 : W64 := BitVec.allOnes 64
  if (bankList s h p).isEmpty || !(rdB s h (R.BLTCTL p) 31) || rdF s h (R.CTXQ p) 28 16 ≤ ctxUsed s h p then (s, none64) else
  match freeCtx s h with
  | (s, none) => (s, none64)
  | (t, some x) =>
    if throttledNow s h p then (s, BitVec.allOnes 64 - 1)
    else (setCtx t h x { getCtx t h x with state := .live, part := p, late := 0 }, handle h x)

def opCtxnew (rd : Nat) : Op :=
  { foot := { writes := [rd] }
    run := fun i s =>
      let (s, v) := ctxNew s (i / 32) (corePart s i)
      .next (settle (updCore s i (fun c => c.setG rd v)) (i / 32)) }

/-- The context of a handle is LIVE, of the core's partition, on a hub in service (R125, R154). -/
def ctxOwned (s : State) (i h x : Nat) : Bool :=
  hubInService s h && (getCtx s h x).state == .live && (getCtx s h x).part == corePart s i

/-- A cancel on its way to hub h (R154). Towards a hub that the link does not reach it is absorbed as a posted write. -/
def sendCancel (s : State) (i h x : Nat) (key : Option (BitVec 56)) (purge : Bool) : State :=
  let c : Cancel := { dst := hubFin h, src := i, ctx := BitVec.ofNat 12 x, key := key, purge := purge }
  if !(reach s (i / 32) h) then absorbed s i
  else
    let s := if purge then setCtx s h x { getCtx s h x with state := .purge } else s
    { s with tok := { s.tok with cancels := s.tok.cancels ++ [c] } }

/-- CTXFREE (R125): PURGE at once; the cancel removes what names the context. -/
def opCtxfree (ra : Nat) : Op :=
  { foot := { reads := [ra] }
    run := fun i s =>
      let v := (getCore s i).gr ra
      let h := fld v 12 12
      let x := fld v 11 0
      if !(ctxOwned s i h x) then .trap s trState 0 else .next (sendCancel s i h x none true) }

/-- CANCEL of a key (R154). -/
def opCancelKey (w : W32) (hsel rd ra : Nat) : Op :=
  { foot := { reads := [rd, ra] }, ill := hselBad hsel rd, word := w
    run := fun i s =>
      let c := getCore s i
      let t := c.gr ra
      let h := hselHub c i hsel rd
      if !(ctxOwned s i h (tagCtx t)) then .trap s trState 0
      else .next (sendCancel s i h (tagCtx t) (some (tagKey t)) false) }

/-- CANCEL of a context; it waits while the hub holds 16 sweeps (R154, R156). -/
def opCancelContext (ra : Nat) : Op :=
  { foot := { reads := [ra] }
    run := fun i s =>
      let v := (getCore s i).gr ra
      let h := fld v 12 12
      let x := fld v 11 0
      if !(ctxOwned s i h x) then .trap s trState 0
      else if reach s (i / 32) h && decide (16 ≤ (sweepsOf s h).length) then .wait s
      else .next (sendCancel s i h x none false) }

/-! ## Ordered flows (R159, R161, R162) -/

def flowTrap (s : State) (code : Nat) : Res := .trap s trState (BitVec.ofNat 64 code)

/-- Checks 1 and 2 of R159. -/
def flowCheck (s : State) (i f : Nat) : Option Nat :=
  if !(flowEn s (i / 32) f) then some 1
  else if flowPart s (i / 32) f ≠ corePart s i then some 2 else none

/-- A new entry of flow f: on chip within the share, else a record in the blotter; none while its pool is full. -/
def newLig (s : State) (i f : Nat) (q : W32) : Option State :=
  let h := i / 32
  let p := corePart s i
  let e : Lig := { hub := hubFin h, flow := f, seq := q, owner := ((getCore s i).ctx).setWidth 13, part := p, fill := none,
                   onchip := true }
  let put (e : Lig) : State := setLigs s (s.dsp.ligs ++ [e])
  if ligUsed s h p < ligShare s h p then some (put e)
  else if !(bltServes s h p) then some (tagFail (put { e with fill := some none }) h 0)
  else if poolFits (put { e with onchip := false }) h p then some (trace (put { e with onchip := false }) h p 5 0 3 noCore)
  else none

def opFlowseqNext (rd ra : Nat) : Op :=
  { foot := { reads := [ra], writes := [rd] }
    run := fun i s =>
      let h := i / 32
      let f := fld ((getCore s i).gr ra) 11 0
      match flowCheck s i f with
      | some k => flowTrap s k
      | none =>
        let x := flowOf s h f
        if flowPending x = 2 ^ 20 then .next (updCore s i (fun c => c.setG rd (BitVec.allOnes 64))) else
        match newLig s i f x.alloc with
        | none => .wait (settle s h)
        | some t =>
          let t := setFlow t h f { x with alloc := x.alloc + 1 }
          .next (settle (updCore t i (fun c => c.setG rd (x.alloc.setWidth 64))) h) }

/-- Fill entry q of flow f, with a token or with nothing (R159). -/
def fillLig (s : State) (h f : Nat) (q : W32) (t : Option Tok) : State :=
  setLigs s (s.dsp.ligs.map (fun y => if isLig h f q y then { y with fill := some t } else y))

/-- Checks 1 to 4 of R159 for PUT and SKIP. -/
def putCheck (s : State) (i f : Nat) (q : W32) : Option Nat :=
  match flowCheck s i f with
  | some k => some k
  | none =>
    let x := flowOf s (i / 32) f
    if !(decide ((q - x.rel).toNat < flowPending x)) then some 3 else
    match ligAt s (i / 32) f q with
    | some e => if e.fill.isSome then some 4 else none
    | none => some 4

/-- PUT: the codes of R159, then the token by R118. -/
def opFlowseqPut (rd ra rb : Nat) : Op :=
  { foot := { reads := [rd, ra, rb] }
    run := fun i s =>
      let c := getCore s i
      let a := c.gr ra
      let f := fld a 11 0
      let q := hi32 a
      let dst := fld a 12 12
      let tag := c.gr rb
      match putCheck s i f q with
      | some k => flowTrap s k
      | none =>
        match tokenCheck s dst (corePart s i) false tag with
        | (s, .inl r) => tokenTrap s tag r
        | (s, .inr _) =>
          .next (fillLig s (i / 32) f q (some (mkTok tag (c.gr rd) dst (.core (coreOf i)) (corePart s i)))) }

def opFlowseqSkip (ra : Nat) : Op :=
  { foot := { reads := [ra] }
    run := fun i s =>
      let a := (getCore s i).gr ra
      let f := fld a 11 0
      match putCheck s i f (hi32 a) with
      | some k => flowTrap s k
      | none => .next (fillLig s (i / 32) f (hi32 a) none) }

/-! ## The array (R109 to R112, R195) -/

/-- A pending ARRAY trap for one of the gangs is taken before the instruction (R112); with an FPE pending, that is taken
first and the event stays. -/
def arraySync (s : State) (i : Nat) (gangs : List Nat) : Option Res :=
  let c := getCore s i
  match c.array with
  | none => none
  | some v =>
    if gangs.contains (fld v 4 0) then
      some (.trap (if c.fpePend then s else updCore s i (fun c => { c with array := none })) trArray v)
    else none

/-- ACCESS of kind 5 for a GID that is no sheet of the part, or another partition's (R109 step 1). -/
def gidAccess (s : State) (i g : Nat) : Option Res :=
  if 23 < g || !(sheetOk s g) || sheetPart s g ≠ corePart s i then some (.trap s trAccess (kindValue 5 g)) else none

/-- Steps 2 to 4 of R109 for one word. -/
def aissueWord (s : State) (i g : Nat) (w : AWord) : Except Res State :=
  let G := getGang s g
  if !(isGang s g) || (members s g).any (fun sh => deadState (getSheet s sh).state) then
    if changing s g then .error (.wait s) else .error (.trap s trState 0)
  else if !(reach s (i / 32) (sheetHome s g)) then .ok (absorbed s i)
  else if changing s g || 64 ≤ wordsIn G.queue || (match G.claim with | some j => j != i | none => false) then .error (.wait s)
  else .ok (issueWord s g i (corePart s i) w)

def opAissue (rd ra rb : Nat) : Op :=
  { foot := { reads := [rd, ra, rb] }
    run := fun i s =>
      let c := getCore s i
      let g := fld (c.gr rd) 4 0
      match arraySync s i [g] with
      | some r => r
      | none =>
        match gidAccess s i g with
        | some r => r
        | none =>
          match aissueWord s i g (((lo32 (c.gr rb)).setWidth 96 <<< 64) ||| (c.gr ra).setWidth 96) with
          | .ok s => .next s
          | .error r => r }

/-- n bytes read by a core through its windows as one load: a block-form word, a list or a request. -/
def bytesRead (s : State) (i : Nat) (ea : W64) (n : Nat) : Eff Bytes :=
  let a := ea.toNat
  let eh := i / 32
  if wordsOnly (region eh a) then .error (.trap s trAlign ea)
  else if !(winOk s i a 1) || !(winOk s i (a + n - 1) 1) then .error (.trap s trAccess (kindValue 2 a))
  else (watchCheck s i a n true false).bind (fun s _ =>
    if coreCut s i then .error (memTrap s 2 a) else
    match parityCheck (takeLine s i a) i a with
    | (s, false) => .error (memTrap s 1 a)
    | (s, true) =>
      match parityCheck (takeLine s i (a + n - 1)) i (a + n - 1) with
      | (s, false) => .error (memTrap s 1 a)
      | (s, true) =>
        match mrd s eh a n with
        | (s, .ok, b) => .ok (s, b)
        | (s, .isolated, _) => .error (memTrap s 2 a)
        | (s, .uncorr, _) => .error (memTrap s 1 a))

/-- One word of the block form: its 16 bytes are read once the gang would take it. -/
def aissueStep (g ra i : Nat) (s : State) : Except Res State :=
  let ea := (getCore s i).gr ra
  if !(winOk s i ea.toNat 1) then .error (.trap s trAccess (kindValue 2 ea.toNat)) else
  match gidAccess s i g with
  | some r => .error r
  | none =>
    match aissueWord s i g 0 with
    | .error r => .error r
    | .ok _ =>
      match bytesRead s i ea 16 with
      | .error r => .error r
      | .ok (s, b) =>
        match aissueWord s i g (BitVec.ofNat 96 (leNat (b.take 12))) with
        | .error r => .error r
        | .ok s => .ok (updCore s i (fun c => { c.setG ra (ea + 16) with cnt := c.cnt - 1 }))

def opAissueBlock (rd ra : Nat) : Op :=
  { foot := { reads := [rd, ra], writes := [ra] }
    run := fun i s =>
      let c := getCore s i
      let g := fld (c.gr rd) 4 0
      match arraySync s i [g] with
      | some r => r
      | none =>
        if fld (c.gr ra) 3 0 ≠ 0 then .trap s trAlign (c.gr ra)
        else longSteps i (aissueStep g ra i) (fun s => .next s) c.cnt.toNat s }

/-- AGANG, its list read (R110). -/
def agangRun (rd i : Nat) (op1 : W64) (l : List Nat) (s : State) : Res :=
  let part := corePart s i
  let dissolve := fld op1 15 15 == 1
  let gw := fld op1 4 0
  let gh := fld op1 9 5
  let gid := fld op1 20 16
  let named := if dissolve then [gid] else l
  match arraySync s i (named ++ named.map (fun sh => (getSheet s sh).gid)) with
  | some r => r
  | none =>
    if named.any (fun sh => decide (sh ≤ 23) && changing s sh) then .wait s else
    let st := if dissolve then dissolveStatus s part gid else agangStatus s part gw gh l
    if st ≠ 0 then .next (updCore s i (fun c => c.setG rd (BitVec.ofNat 64 st)))
    else if (if dissolve then members s gid else l).any (fun sh => !(reach s (i / 32) (sheetHome s sh))) then .wait s
    else if named.any (fun sh => match (getGang s (getSheet s sh).gid).claim with | some j => j != i | none => false) then .wait s
    else .next (updCore (addChange s (if dissolve then .dissolve gid else .form gw gh l)) i (fun c => c.setG rd 0))

/-- AGANG reads its list only for a shape it can form (R110). -/
def opAgang (rd ra rb : Nat) : Op :=
  { foot := { reads := [ra, rb], writes := [rd] }
    run := fun i s =>
      let c := getCore s i
      let op1 := c.gr ra
      let n := fld op1 4 0 * fld op1 9 5
      if fld op1 15 15 = 1 || n = 0 || 24 < n then agangRun rd i op1 [] s
      else (bytesRead s i (c.gr rb) n).fin (fun s b => agangRun rd i op1 (b.map BitVec.toNat) s) }

/-- A word that makes a blot: BIT and FIELD with BLOT = 1, and BPLANE (R99). -/
def blots (w : AWord) : Bool :=
  let k := wordKind w
  (k == 0x10 && fld w 25 25 == 1) || (decide (0x20 ≤ k) && decide (k ≤ 0x30) && fld w 40 40 == 1) || k == 0x49

/-- A blot or finder result is pending for words already issued (R111). -/
def blotPending (G : GangSt) : Bool :=
  !G.blots.isEmpty || G.queue.any (fun q => match q with | .word q => blots q.w | _ => false) ||
  (!G.loops.isEmpty && G.body.any (fun q => blots q.w))

/-- AWAIT and ABLOT: their checks, the wait, the value (R111). -/
def awaitRun (rd i g : Nat) (waits : State → Bool) (s : State) : Res :=
  match arraySync s i [g] with
  | some r => r
  | none =>
    match gidAccess s i g with
    | some r => r
    | none =>
      if !(isGang s g) then .trap s trState 0
      else if !(reach s (i / 32) (sheetHome s g)) || waits s then .wait s
      else .next (updCore s i (fun c => c.setG rd (gangValue (getGang s g))))

def opAwait (rd ra : Nat) : Op :=
  { foot := { reads := [ra], writes := [rd] }
    run := fun i s =>
      let g := fld ((getCore s i).gr ra) 4 0
      awaitRun rd i g (fun s => wordsLeft (getGang s g) i || coreRuns s g i) s }
def opAblot (rd ra : Nat) : Op :=
  { foot := { reads := [ra], writes := [rd] }
    run := fun i s =>
      let g := fld ((getCore s i).gr ra) 4 0
      awaitRun rd i g (fun s => blotPending (getGang s g)) s }

/-! ## Rulings (R32, R39, R44, R45, R196) -/

/-- A RID as a ruling of the core's hub: ILLEGAL with the word when reserved, ACCESS for another partition's stream. -/
def ridCheck (s : State) (i : Nat) (w : W32) (r : Nat) : Option Res :=
  if !(ridOk r) then some (illegal s w)
  else if isStream r && rdF s (i / 32) (R.RCFG r) 27 25 ≠ corePart s i then some (.trap s trAccess (kindValue 6 r))
  else none

/-- The lowest free handles of a hub's mark table, the first choice left open. -/
def freeMarks (s : State) (h : Nat) : List Nat := (List.range 16384).filter (fun k => (getMark s h k).isNone)

/-- Room for n marks of partition p (R45). -/
def markRoom (s : State) (h p n : Nat) : Bool :=
  decide ((marksOf s h).length + n ≤ 16384) &&
  decide (((marksOf s h).filter (fun e => e.2.part == p)).length + n ≤ rdF s h (R.MARKQ p) 14 0)

/-- RUMARKS.HWM follows the number of active marks. -/
def markHwm (s : State) (h : Nat) : State :=
  let n := (marksOf s h).length
  if rdF s h R.RUMARKS 29 15 < n then wrF s h R.RUMARKS 29 15 n else s

/-- A free handle: which, the spec leaves open. -/
def newHandle (s : State) (h : Nat) : State × Nat :=
  let l := freeMarks s h
  (drawn s, l.getD (Config.freeNat s.fresh % l.length) 0)

/-- A mark that its ruling has already reached fires at once (R46). -/
def settleMark (s : State) (h k : Nat) : State :=
  match getMark s h k with
  | none => s
  | some m => if reached s h m.rid (rulPos s h m.rid) m.pos then fireMark s h k (rulPos s h m.rid) else s

def opRmark (w : W32) (rd ra rb : Nat) : Op :=
  { foot := { reads := [rd, ra, rb], writes := [rd] }
    run := fun i s =>
      let c := getCore s i
      let h := i / 32
      let p := corePart s i
      let r := fld (c.gr ra) 10 0
      let tag := c.gr rd
      match ridCheck s i w r with
      | some t => t
      | none =>
        if !(posValid s h r (c.gr rb)) then .trap s trState 0 else
        match tokenCheck s h p false tag with
        | (s, .inl k) => tokenTrap s tag k
        | (s, .inr _) =>
          if !(markRoom s h p 1) then .next (updCore s i (fun c => c.setG rd (BitVec.allOnes 64))) else
          let (s, k) := newHandle s h
          let s := setMark s h k (some { rid := r, pos := c.gr rb, tag := tag, part := p, mate := none, primary := true })
          .next (updCore (settleMark (markHwm s h) h k) i (fun c => c.setG rd (BitVec.ofNat 64 k))) }

/-- RXMARK: primary from ra up, secondary from rb up. -/
def opRxmark (w : W32) (rd ra rb : Nat) : Op :=
  { foot := { reads := [ra, ra + 1, ra + 2, rb, rb + 1, rb + 2], writes := [rd] }
    ill := decide (29 < ra) || decide (29 < rb), word := w
    run := fun i s =>
      let c := getCore s i
      let h := i / 32
      let p := corePart s i
      let r1 := fld (c.gr ra) 10 0
      let r2 := fld (c.gr rb) 10 0
      let p1 := c.gr (ra + 1)
      let p2 := c.gr (rb + 1)
      let t1 := c.gr (ra + 2)
      let t2 := c.gr (rb + 2)
      let ret (s : State) (v : W64) : Res := .next (updCore s i (fun c => c.setG rd v))
      match ridCheck s i w r1, ridCheck s i w r2 with
      | some t, _ => t
      | none, some t => t
      | none, none =>
        if !(posValid s h r1 p1) || !(posValid s h r2 p2) then .trap s trState 0 else
        match tokenCheck s h p false t1 with
        | (s, .inl k) => tokenTrap s t1 k
        | (s, .inr _) =>
          match tokenCheck s h p false t2 with
          | (s, .inl k) => tokenTrap s t2 k
          | (s, .inr _) =>
            if r1 = r2 then ret s (BitVec.allOnes 64 - 1)
            else if !(markRoom s h p 2) then ret s (BitVec.allOnes 64) else
            let (s, k1) := newHandle s h
            let s := setMark s h k1 (some { rid := r1, pos := p1, tag := t1, part := p, mate := none, primary := true })
            let (s, k2) := newHandle s h
            let s := setMark s h k1 (some { rid := r1, pos := p1, tag := t1, part := p, mate := some k2, primary := true })
            let s := setMark s h k2 (some { rid := r2, pos := p2, tag := t2, part := p, mate := some k1, primary := false })
            ret (settleMark (settleMark (markHwm s h) h k1) h k2) (BitVec.ofNat 64 k1) }

def opRread (w : W32) (rd ra : Nat) : Op :=
  { foot := { reads := [ra], writes := [rd] }
    run := fun i s =>
      let r := fld ((getCore s i).gr ra) 10 0
      match ridCheck s i w r with
      | some t => t
      | none => .next (updCore s i (fun c => c.setG rd (rulPos s (i / 32) r))) }

/-- RADV: the checks of R39 against the ruling as it stands; what passes them is presented (R40). -/
def opRadv (w : W32) (ra rb : Nat) : Op :=
  { foot := { reads := [ra, rb] }
    run := fun i s =>
      let c := getCore s i
      let h := i / 32
      let r := fld (c.gr ra) 10 0
      let q := c.gr rb
      match ridCheck s i w r with
      | some t => t
      | none =>
        if !(isStream r) || rdF s h (R.RCFG r) 30 28 ≠ 5 || !(posValid s h r q) then .trap s trState 0 else
        let fl := frameLines s h r
        let d := fwd (linWrap fl) (linIx fl (rulPos s h r)) (linIx fl q)
        if d = 0 then .next s
        else if linWrap fl / 2 < d then .trap s trState 0
        else if !(rulEnabled s h r) then .next s
        else .next (present s h (.derived r q)) }

/-! ## Evidence (R197, R284, R285, R287) -/

/-- CHOP: the request is read, judged, and taken; it waits while its ring's queue is full. -/
def chopRun (rd ra i : Nat) (s : State) : Res :=
  let h := i / 32
  let p := corePart s i
  (bytesRead s i ((getCore s i).gr ra) 64).fin (fun s b =>
    let (t, st, reason) := chopStatus s h p b
    if st = 0 && chopFull t h b then .wait t else
    let t := if st = 0 then chopAccept t h p b else t
    .next (updCore t i (fun c => c.setG rd (BitVec.ofNat 64 (reason * 256 + st)))))
def opChop (rd ra : Nat) : Op := { foot := { reads := [ra], writes := [rd] }, run := chopRun rd ra }

/-- The operation that a CHOP request's first byte names. -/
def chopOp (s : State) (i ra : Nat) : Nat := (byteAt (viewBytes s (i / 32) ((getCore s i).gr ra).toNat 1) 0).toNat
/-- A row of CHOP for operation `op`: not the command of a request that names another defined operation. -/
def chopRow (c : CoreId) (op rd ra : Nat) (s : State) : State :=
  let k := chopOp s (coreIx c) ra
  if 1 ≤ k && k ≤ 4 && k ≠ op then s else runRow c (opChop rd ra) s

/-- SEALQ: the chain that G[ra] names. -/
def opSealq (rd ra : Nat) : Op :=
  { foot := { reads := [ra], writes := [rd] }
    run := fun i s => .next (updCore s i (fun c =>
      c.setG rd (sealqValue s (i / 32) (corePart s i) (fld (c.gr ra) 9 0)))) }

/-! ## Instruction rows -/

/-- SEND (R118). -/
def execSend (c : CoreId) (hsel : BitVec 2) (rd : Reg) (ra : Reg) (rb : Reg) (s : State) : Out :=
  .next (runRow c (opSend (encR 0x14 rd ra rb (hsel.toNat * 64)) hsel.toNat rd ra rb) s)
/-- SENDV (R194). -/
def execSendv (c : CoreId) (hsel : BitVec 2) (n : BitVec 2) (rd : Reg) (ra : Reg) (rb : Reg) (s : State) : Out :=
  .next (runRow c (opSendv (encR 0x14 rd ra rb (n.toNat * 256 + hsel.toNat * 64 + 1)) hsel.toNat n.toNat rd ra rb) s)
/-- CTXNEW (R124). -/
def execCtxnew (c : CoreId) (rd : Reg) (s : State) : Out := .next (runRow c (opCtxnew rd) s)
/-- CTXFREE (R125). -/
def execCtxfree (c : CoreId) (ra : Reg) (s : State) : Out := .next (runRow c (opCtxfree ra) s)
/-- CANCEL_KEY (R155). -/
def execCancelKey (c : CoreId) (hsel : BitVec 2) (rd : Reg) (ra : Reg) (s : State) : Out :=
  .next (runRow c (opCancelKey (encR 0x14 rd ra 0 (hsel.toNat * 64 + 4)) hsel.toNat rd ra) s)
/-- CANCEL_CONTEXT (R156). -/
def execCancelContext (c : CoreId) (ra : Reg) (s : State) : Out := .next (runRow c (opCancelContext ra) s)
/-- FLOWSEQ_NEXT (R159). -/
def execFlowseqNext (c : CoreId) (rd : Reg) (ra : Reg) (s : State) : Out := .next (runRow c (opFlowseqNext rd ra) s)
/-- FLOWSEQ_PUT (R159). -/
def execFlowseqPut (c : CoreId) (rd : Reg) (ra : Reg) (rb : Reg) (s : State) : Out :=
  .next (runRow c (opFlowseqPut rd ra rb) s)
/-- FLOWSEQ_SKIP (R159). -/
def execFlowseqSkip (c : CoreId) (ra : Reg) (s : State) : Out := .next (runRow c (opFlowseqSkip ra) s)
/-- AISSUE (R109). -/
def execAissue (c : CoreId) (rd : Reg) (ra : Reg) (rb : Reg) (s : State) : Out :=
  .next (runRow c (opAissue rd ra rb) s)
/-- AISSUE_BLOCK (R109). -/
def execAissueBlock (c : CoreId) (rd : Reg) (ra : Reg) (s : State) : Out := .next (runRow c (opAissueBlock rd ra) s)
/-- AGANG (R110). -/
def execAgang (c : CoreId) (rd : Reg) (ra : Reg) (rb : Reg) (s : State) : Out := .next (runRow c (opAgang rd ra rb) s)
/-- AWAIT (R111). -/
def execAwait (c : CoreId) (rd : Reg) (ra : Reg) (s : State) : Out := .next (runRow c (opAwait rd ra) s)
/-- ABLOT (R111). -/
def execAblot (c : CoreId) (rd : Reg) (ra : Reg) (s : State) : Out := .next (runRow c (opAblot rd ra) s)
/-- RMARK (R45). -/
def execRmark (c : CoreId) (rd : Reg) (ra : Reg) (rb : Reg) (s : State) : Out :=
  .next (runRow c (opRmark (encR 0x16 rd ra rb 0) rd ra rb) s)
/-- RXMARK (R47). -/
def execRxmark (c : CoreId) (rd : Reg) (ra : Reg) (rb : Reg) (s : State) : Out :=
  .next (runRow c (opRxmark (encR 0x16 rd ra rb 1) rd ra rb) s)
/-- RREAD (R196). -/
def execRread (c : CoreId) (rd : Reg) (ra : Reg) (s : State) : Out :=
  .next (runRow c (opRread (encR 0x16 rd ra 0 2) rd ra) s)
/-- RADV (R39). -/
def execRadv (c : CoreId) (ra : Reg) (rb : Reg) (s : State) : Out :=
  .next (runRow c (opRadv (encR 0x16 0 ra rb 3) ra rb) s)
/-- CHOP_OPEN (R287). -/
def execChopOpen (c : CoreId) (rd : Reg) (ra : Reg) (s : State) : Out := .next (chopRow c 1 rd ra s)
/-- CHOP_BAND (R284). -/
def execChopBand (c : CoreId) (rd : Reg) (ra : Reg) (s : State) : Out := .next (chopRow c 2 rd ra s)
/-- CHOP_SEAL (R283). -/
def execChopSeal (c : CoreId) (rd : Reg) (ra : Reg) (s : State) : Out := .next (chopRow c 3 rd ra s)
/-- CHOP_CLOSE (R287). -/
def execChopClose (c : CoreId) (rd : Reg) (ra : Reg) (s : State) : Out := .next (chopRow c 4 rd ra s)
/-- SEALQ (R287). -/
def execSealq (c : CoreId) (rd : Reg) (ra : Reg) (s : State) : Out := .next (runRow c (opSealq rd ra) s)

end Sys2Proof.Machine
end

