-- ==== Sys2Proof/Machine/Float.lean ====
section
/-! DEFINITION. Floating-point arithmetic: exact operations on unpacked values, one rounding, and what an operation
writes and raises (R199 to R213): majors 0x10 to 0x12. -/
namespace Sys2Proof.Machine

/-! ## Formats (R199) -/

/-- A binary format by its exponent and fraction widths. -/
structure Fmt where
  eb : Nat
  fb : Nat
def f64 : Fmt := ⟨11, 52⟩
def f32 : Fmt := ⟨8, 23⟩
def f16 : Fmt := ⟨5, 10⟩
/-- FMT: 0 binary64, 1 binary32. -/
def fmtOf (b : Bool) : Fmt := if b then f32 else f64

def Fmt.bias (f : Fmt) : Nat := 2 ^ (f.eb - 1) - 1
def Fmt.emin (f : Fmt) : Int := 1 - f.bias
def Fmt.width (f : Fmt) : Nat := 1 + f.eb + f.fb
/-- Encoding from sign, exponent field and fraction field. -/
def Fmt.pack (f : Fmt) (s : Bool) (e m : Nat) : Nat := b2n s * 2 ^ (f.eb + f.fb) + e * 2 ^ f.fb + m
def Fmt.inf (f : Fmt) (s : Bool) : Nat := f.pack s (2 ^ f.eb - 1) 0
def Fmt.zero (f : Fmt) (s : Bool) : Nat := f.pack s 0 0
/-- Largest finite number. -/
def Fmt.big (f : Fmt) (s : Bool) : Nat := f.pack s (2 ^ f.eb - 2) (2 ^ f.fb - 1)
/-- The default NaN. -/
def Fmt.dn (f : Fmt) : Nat := f.pack false (2 ^ f.eb - 1) (2 ^ (f.fb - 1))

/-- A value: NaN with its fraction field, infinity, zero, or m · 2^e, which may be subnormal. -/
inductive FV where
  | nan (s : Bool) (frac : Nat)
  | inf (s : Bool)
  | zero (s : Bool)
  | num (s : Bool) (m : Nat) (e : Int) (sub : Bool)
  deriving DecidableEq, Repr

/-- The value that the low bits of a register hold; the higher bits take no part (R199). -/
def Fmt.unpack (f : Fmt) (w : W64) : FV :=
  let n := w.toNat % 2 ^ f.width
  let s := n / 2 ^ (f.eb + f.fb) == 1
  let e := n / 2 ^ f.fb % 2 ^ f.eb
  let m := n % 2 ^ f.fb
  if e = 2 ^ f.eb - 1 then (if m = 0 then .inf s else .nan s m)
  else if e = 0 then (if m = 0 then .zero s else .num s m (f.emin - f.fb) true)
  else .num s (2 ^ f.fb + m) ((e : Int) - f.bias - f.fb) false

/-- A NaN of format f is signalling: its highest fraction bit is 0. -/
def FV.sig (f : Fmt) : FV → Bool
  | .nan _ m => m / 2 ^ (f.fb - 1) % 2 == 0
  | _ => false
def FV.isNan : FV → Bool
  | .nan _ _ => true
  | _ => false
def FV.sign : FV → Bool
  | .nan s _ => s
  | .inf s => s
  | .zero s => s
  | .num s _ _ _ => s
def FV.neg : FV → FV
  | .nan s m => .nan s m
  | .inf s => .inf (!s)
  | .zero s => .zero (!s)
  | .num s m e b => .num (!s) m e b
def FV.isSub : FV → Bool
  | .num _ _ _ b => b
  | _ => false

/-! ## Exceptions (R202 to R205) -/

/-- What an operation raises. -/
structure FX where
  di   : Bool := false
  iv   : Bool := false
  dz   : Bool := false
  ovf  : Bool := false
  uf   : Bool := false
  ix   : Bool := false
  subn : Bool := false
  deriving DecidableEq, Repr

def FX.join (a b : FX) : FX :=
  ⟨a.di || b.di, a.iv || b.iv, a.dz || b.dz, a.ovf || b.ovf, a.uf || b.uf, a.ix || b.ix, a.subn || b.subn⟩

/-- A result's encoding and what was raised. -/
abbrev FRes := Nat × FX

/-- An operand of a subnormal-checked instruction (R204). -/
def checked (subm : Bool) (v : FV) : FV × FX :=
  if v.isSub then (if subm then (.zero v.sign, { di := true }) else (v, { subn := true })) else (v, {})
/-- An operand of FMIN, FMAX, FCMP and FCMPE. -/
def flushed (subm : Bool) (v : FV) : FV × FX :=
  if v.isSub && subm then (.zero v.sign, { di := true }) else (v, {})

/-- A NaN quieted, in its own format. -/
def quiet1 (f : Fmt) (s : Bool) (m : Nat) : Nat :=
  f.pack s (2 ^ f.eb - 1) (if m / 2 ^ (f.fb - 1) % 2 = 0 then m + 2 ^ (f.fb - 1) else m)

/-- The NaN result of operands in order: the first signalling one, else the first quiet one (R202). -/
def nanOf (f : Fmt) (l : List FV) : Option FRes :=
  match l.find? (FV.sig f) with
  | some (.nan s m) => some (quiet1 f s m, { iv := true })
  | _ =>
    match l.find? FV.isNan with
    | some (.nan s m) => some (quiet1 f s m, {})
    | _ => none

/-- An invalid operation without a NaN operand. -/
def invalid (f : Fmt) : FRes := (f.dn, { iv := true })

/-! ## Rounding (R201, R203, R204) -/

/-- Bits of a positive number. -/
def bitCount (n : Nat) : Nat := if n = 0 then 0 else Nat.log2 n + 1

/-- Away from zero? `mant` is what remains, `r` of 2^k was cut off, `sticky` more lies below. -/
def roundAway (rm : Nat) (s : Bool) (mant r k : Nat) (sticky : Bool) : Bool :=
  let half := 2 ^ k / 2
  let inexact := r != 0 || sticky
  match rm with
  | 1 => false
  | 2 => !s && inexact
  | 3 => s && inexact
  | 4 => decide (0 < k) && decide (half ≤ r)
  | _ => decide (0 < k) && (decide (half < r) || (r == half && (sticky || mant % 2 == 1)))

/-- m · 2^e, with `sticky` when something below one unit was left out, cut at 2^q: mantissa and inexactness. -/
def cutAt (rm : Nat) (s : Bool) (m : Nat) (e q : Int) (sticky : Bool) : Nat × Bool :=
  if q ≤ e then (m * 2 ^ (e - q).toNat, sticky)
  else
    let k := (q - e).toNat
    let mant := m / 2 ^ k
    let r := m % 2 ^ k
    (mant + b2n (roundAway rm s mant r k sticky), r != 0 || sticky)

/-- The result of overflow (R203). -/
def overflowed (f : Fmt) (rm : Nat) (s : Bool) : FRes :=
  (if rm = 1 || (rm = 2 && s) || (rm = 3 && !s) then f.big s else f.inf s, { ovf := true, ix := true })

/-- Round a nonzero exact value to format f. `gradual`: subnormal results are made, as in binary16; otherwise a tiny
result traps with SUBM = 0 and is flushed with SUBM = 1 (R204). Tininess is seen before rounding. -/
def roundTo (f : Fmt) (rm : Nat) (subm gradual : Bool) (s : Bool) (m : Nat) (e : Int) (sticky : Bool) : FRes :=
  let top : Int := (bitCount m : Int) - 1 + e
  let tiny := decide (top < f.emin)
  if tiny && !gradual then
    (if subm then (f.zero s, { uf := true, ix := true }) else (f.zero s, { subn := true }))
  else
    let q : Int := (if tiny then f.emin else top) - f.fb
    let r := cutAt rm s m e q sticky
    let up := decide (2 ^ (f.fb + 1) ≤ r.1)
    let mant := if up then r.1 / 2 else r.1
    let q := if up then q + 1 else q
    if mant < 2 ^ f.fb then (f.pack s 0 mant, { ix := r.2, uf := tiny && r.2 })
    else
      let ex : Int := q + f.fb + f.bias
      if (2 ^ f.eb : Int) - 1 ≤ ex then overflowed f rm s
      else (f.pack s ex.toNat (mant - 2 ^ f.fb), { ix := r.2, uf := tiny && r.2 })

/-- Sign of an exact zero sum of opposite signs: − only when rounding down. -/
def zeroSum (rm : Nat) : Bool := rm == 3

/-! ## Exact arithmetic -/

/-- Sum of two nonzero values as sign, magnitude and exponent; magnitude 0 for an exact zero. -/
def addExact (s1 : Bool) (m1 : Nat) (e1 : Int) (s2 : Bool) (m2 : Nat) (e2 : Int) : Bool × Nat × Int :=
  let e := min e1 e2
  let a := m1 * 2 ^ (e1 - e).toNat
  let b := m2 * 2 ^ (e2 - e).toNat
  if s1 = s2 then (s1, a + b, e) else if b ≤ a then (s1, a - b, e) else (s2, b - a, e)

/-- a + b, neither a NaN. -/
def addV (f : Fmt) (rm : Nat) (subm : Bool) (a b : FV) : FRes :=
  match a, b with
  | .inf s, .inf t => if s = t then (f.inf s, {}) else invalid f
  | .inf s, _ => (f.inf s, {})
  | _, .inf t => (f.inf t, {})
  | .zero s, .zero t => (f.zero (if s = t then s else zeroSum rm), {})
  | .zero _, .num t m e _ => roundTo f rm subm false t m e false
  | .num s m e _, .zero _ => roundTo f rm subm false s m e false
  | .num s m1 e1 _, .num t m2 e2 _ =>
    let r := addExact s m1 e1 t m2 e2
    if r.2.1 = 0 then (f.zero (zeroSum rm), {}) else roundTo f rm subm false r.1 r.2.1 r.2.2 false
  | _, _ => invalid f

/-- a × b, neither a NaN. -/
def mulV (f : Fmt) (rm : Nat) (subm : Bool) (a b : FV) : FRes :=
  let s := a.sign != b.sign
  match a, b with
  | .inf _, .zero _ => invalid f
  | .zero _, .inf _ => invalid f
  | .inf _, _ => (f.inf s, {})
  | _, .inf _ => (f.inf s, {})
  | .num _ m1 e1 _, .num _ m2 e2 _ => roundTo f rm subm false s (m1 * m2) (e1 + e2) false
  | _, _ => (f.zero s, {})

/-- a / b, neither a NaN. -/
def divV (f : Fmt) (rm : Nat) (subm : Bool) (a b : FV) : FRes :=
  let s := a.sign != b.sign
  match a, b with
  | .inf _, .inf _ => invalid f
  | .zero _, .zero _ => invalid f
  | .inf _, _ => (f.inf s, {})
  | _, .inf _ => (f.zero s, {})
  | .num _ _ _ _, .zero _ => (f.inf s, { dz := true })
  | .num _ m1 e1 _, .num _ m2 e2 _ =>
    let k := 64 + bitCount m2
    roundTo f rm subm false s (m1 * 2 ^ k / m2) (e1 - e2 - k) (m1 * 2 ^ k % m2 != 0)
  | _, _ => (f.zero s, {})

/-- Integer square root, from bit `n` down. -/
def isqrt (v : Nat) : Nat → Nat → Nat
  | 0, r => r
  | n + 1, r => isqrt v n (if (r + 2 ^ n) * (r + 2 ^ n) ≤ v then r + 2 ^ n else r)

/-- √a, not a NaN. -/
def sqrtV (f : Fmt) (rm : Nat) (subm : Bool) (a : FV) : FRes :=
  match a with
  | .zero s => (f.zero s, {})
  | .inf false => (f.inf false, {})
  | .num false m e _ =>
    let odd := e % 2 != 0
    let v := m * 2 ^ (128 + b2n odd)
    let e' := (e - b2n odd - 128) / 2
    let r := isqrt v ((bitCount v + 1) / 2) 0
    roundTo f rm subm false false r e' (r * r != v)
  | _ => invalid f

/-- a × b + c rounded once, with the sum negated before rounding when `negate`; no NaN in a or b but c may be one
only where R202 has already answered. -/
def fmaV (f : Fmt) (rm : Nat) (subm : Bool) (a b c : FV) : FRes :=
  let s := a.sign != b.sign
  match a, b with
  | .inf _, .zero _ => invalid f
  | .zero _, .inf _ => invalid f
  | .num _ m1 e1 _, .num _ m2 e2 _ => addV f rm subm (.num s (m1 * m2) (e1 + e2) false) c
  | .inf _, _ => addV f rm subm (.inf s) c
  | _, .inf _ => addV f rm subm (.inf s) c
  | _, _ => addV f rm subm (.zero s) c

/-! ## Comparison (R207, R209) -/

/-- Order of two values that are no NaN; zeros equal. -/
def cmpV (a b : FV) : FRel :=
  match a, b with
  | .zero _, .zero _ => .eq
  | .inf s, .inf t => if s = t then .eq else if s then .lt else .gt
  | .inf s, _ => if s then .lt else .gt
  | _, .inf t => if t then .gt else .lt
  | .zero _, .num t _ _ _ => if t then .gt else .lt
  | .num s _ _ _, .zero _ => if s then .lt else .gt
  | .num s m1 e1 _, .num t m2 e2 _ =>
    let r := addExact s m1 e1 (!t) m2 e2
    if r.2.1 = 0 then .eq else if r.1 then .lt else .gt
  | _, _ => .un

/-- a is below b with −0 below +0. -/
def below (a b : FV) : Bool :=
  match cmpV a b with
  | .lt => true
  | .eq => a.sign && !b.sign
  | _ => false

/-! ## Integers (R210) -/

/-- Round a value to an integer in [lo, hi]: value and what it raises. -/
def toInt (rm : Nat) (lo hi : Int) (f : Fmt) (v : FV) : Int × FX :=
  match v with
  | .nan _ _ => (0, { iv := true })
  | .inf s => (if s then lo else hi, { iv := true })
  | .zero _ => (0, {})
  | .num s m e _ =>
    if 128 < e then (if s then lo else hi, { iv := true }) else
    let r := cutAt rm s m e 0 false
    let n : Int := if s then -(r.1 : Int) else r.1
    let _ := f
    if n < lo then (lo, { iv := true }) else if hi < n then (hi, { iv := true }) else (n, { ix := r.2 })

/-- An integer as a value of format f. -/
def ofInt (f : Fmt) (rm : Nat) (n : Int) : FRes :=
  if n = 0 then (f.zero false, {}) else roundTo f rm false true (decide (n < 0)) n.natAbs 0 false

/-- A NaN of format f in format g: the highest fraction bits are kept, quieted (R202). -/
def nanTo (f g : Fmt) (s : Bool) (m : Nat) : FRes :=
  let k := if f.fb ≤ g.fb then m * 2 ^ (g.fb - f.fb) else m / 2 ^ (f.fb - g.fb)
  (quiet1 g s k, { iv := m / 2 ^ (f.fb - 1) % 2 == 0 })

/-- A conversion between formats. -/
def convert (f g : Fmt) (rm : Nat) (subm chk gradual : Bool) (w : W64) : FRes :=
  let r := if chk then checked subm (f.unpack w) else (f.unpack w, {})
  let q : FRes := match r.1 with
    | .nan s m => nanTo f g s m
    | .inf s => (g.inf s, {})
    | .zero s => (g.zero s, {})
    | .num s m e _ => roundTo g rm subm gradual s m e false
  (q.1, q.2.join r.2)

/-- The class of a value, one bit (R210). -/
def classOf (f : Fmt) : FV → Nat
  | .inf true => 0
  | .num true _ _ false => 1
  | .num true _ _ true => 2
  | .zero true => 3
  | .zero false => 4
  | .num false _ _ true => 5
  | .num false _ _ false => 6
  | .inf false => 7
  | .nan s m => if FV.sig f (.nan s m) then 8 else 9

/-! ## One operation -/

/-- Where a result goes. -/
inductive FDst where
  | freg | greg | flags (r : FRel)
  deriving DecidableEq, Repr

/-- What an operation would write, and what it raises. -/
structure FpOut where
  dst : FDst
  val : W64
  fx  : FX

def toF (r : FRes) : FpOut := ⟨.freg, BitVec.ofNat 64 r.1, r.2⟩
def toG (v : W64) (x : FX) : FpOut := ⟨.greg, v, x⟩

/-- An arithmetic operation on two operands that may be NaNs. -/
def arith2 (f : Fmt) (subm : Bool) (a b : W64) (g : FV → FV → FRes) : FpOut :=
  let x := checked subm (f.unpack a)
  let y := checked subm (f.unpack b)
  let r := match nanOf f [x.1, y.1] with
    | some r => r
    | none => g x.1 y.1
  toF (r.1, (r.2.join x.2).join y.2)

/-- FMIN and FMAX: `less` says that the first operand is chosen (R207). -/
def minMax (f : Fmt) (subm : Bool) (a b : W64) (max : Bool) : FpOut :=
  let x := flushed subm (f.unpack a)
  let y := flushed subm (f.unpack b)
  let enc (w : W64) (v : FV × FX) : Nat := if v.2.di then f.zero v.1.sign else w.toNat % 2 ^ f.width
  let sig := FV.sig f x.1 || FV.sig f y.1
  let r : FRes :=
    if x.1.isNan && y.1.isNan then (nanOf f [x.1, y.1]).getD (f.dn, {})
    else if x.1.isNan then (enc b y, { iv := sig })
    else if y.1.isNan then (enc a x, { iv := sig })
    else if below y.1 x.1 != max then (enc b y, {}) else (enc a x, {})
  toF (r.1, (r.2.join x.2).join y.2)

/-- FCMP and FCMPE (R209). -/
def compare (f : Fmt) (subm : Bool) (a b : W64) (e : Bool) : FpOut :=
  let x := flushed subm (f.unpack a)
  let y := flushed subm (f.unpack b)
  let un := x.1.isNan || y.1.isNan
  let iv := FV.sig f x.1 || FV.sig f y.1 || (e && un)
  ⟨.flags (if un then .un else cmpV x.1 y.1), 0, ({ iv := iv : FX }.join x.2).join y.2⟩

/-- The fused operations: `nc` negates the addend, `nr` the exact sum (R208). -/
def fused (f : Fmt) (rm : Nat) (subm : Bool) (a b c : W64) (nc nr : Bool) : FpOut :=
  let x := checked subm (f.unpack a)
  let y := checked subm (f.unpack b)
  let z := checked subm (f.unpack c)
  let bad := match x.1, y.1 with
    | .inf _, .zero _ => true
    | .zero _, .inf _ => true
    | _, _ => false
  let r := if bad then invalid f else match nanOf f [x.1, y.1, z.1] with
    | some r => r
    | none => fmaV f rm subm (if nr then x.1.neg else x.1) y.1 (if nc != nr then z.1.neg else z.1)
  toF (r.1, ((r.2.join x.2).join y.2).join z.2)

/-- A sign operation on the encoding: 0 clears, 1 inverts, 2 keeps. -/
def signOp (f : Fmt) (k : Nat) (a : W64) : FpOut :=
  let n := a.toNat % 2 ^ f.width
  let top := 2 ^ (f.width - 1)
  toF (if k = 0 then n % top else if k = 1 then (n + top) % 2 ^ f.width else n, {})

/-- FCVTI and FCVTIU. -/
def cvtInt (f : Fmt) (rm : Nat) (subm unsigned : Bool) (a : W64) : FpOut :=
  let x := checked subm (f.unpack a)
  let r := if unsigned then toInt rm 0 (2 ^ 64 - 1) f x.1 else toInt rm (-(2 ^ 63)) (2 ^ 63 - 1) f x.1
  toG (BitVec.ofInt 64 r.1) (r.2.join x.2)

/-- Major 0x10 (R207). -/
def fpArith (op : Nat) (f : Fmt) (rm : Nat) (subm : Bool) (a b : W64) : FpOut :=
  match op with
  | 0x0 => arith2 f subm a b (addV f rm subm)
  | 0x1 => arith2 f subm a b (fun x y => addV f rm subm x y.neg)
  | 0x2 => arith2 f subm a b (mulV f rm subm)
  | 0x3 => arith2 f subm a b (divV f rm subm)
  | 0x4 =>
    let x := checked subm (f.unpack a)
    let r := match nanOf f [x.1] with
      | some r => r
      | none => sqrtV f rm subm x.1
    toF (r.1, r.2.join x.2)
  | 0x5 => minMax f subm a b false
  | 0x6 => minMax f subm a b true
  | 0x7 => signOp f 0 a
  | 0x8 => signOp f 1 a
  | 0x9 => signOp f 2 a
  | 0xA => compare f subm a b false
  | _ => compare f subm a b true

/-- Major 0x12 (R210). -/
def fpMove (op : Nat) (f : Fmt) (rz : Bool) (rm : Nat) (subm : Bool) (a : W64) : FpOut :=
  let irm := if rz then 1 else rm
  match op with
  | 0x0 => toF (convert f32 f64 rm subm true false a)
  | 0x1 => toF (convert f64 f32 rm subm true false a)
  | 0x2 => toF (convert f16 f32 rm subm false false a)
  | 0x3 => toF (convert f32 f16 rm subm false true a)
  | 0x4 => toF (convert f16 f64 rm subm false false a)
  | 0x5 => toF (convert f64 f16 rm subm false true a)
  | 0x8 => cvtInt f irm subm false a
  | 0x9 => cvtInt f irm subm true a
  | 0xA => toF (ofInt f rm a.toInt)
  | 0xB => toF (ofInt f rm a.toNat)
  | 0xC => toG a {}
  | 0xD => toF (a.toNat, {})
  | _ => toG (BitVec.ofNat 64 (2 ^ classOf f (f.unpack a))) {}

/-- The operation of a floating-point instruction under FPCR. A word of another major, which a micro-routine may issue,
gives the value drawn for it (R228). -/
def fpCompute (o : FpOp) (fpcr : W32) : FpOut :=
  let rm := fld fpcr 2 0
  let subm := fld fpcr 3 3 == 1
  if o.major = 0x10 then fpArith (fld o.func 5 0) (fmtOf (fld o.func 10 10 == 1)) rm subm o.a o.b
  else if o.major = 0x11 then
    fused (fmtOf (fld o.func 3 3 == 1)) rm subm o.a o.b o.c (fld o.func 4 4 == 1) (fld o.func 5 5 == 1)
  else if o.major ≠ 0x12 then toF (o.a.toNat, {})
  else fpMove (fld o.func 5 0) (fmtOf (fld o.func 6 6 == 1)) (fld o.func 7 7 == 1) rm subm o.a

/-- The sub-cause of highest priority that traps (R205): SUBN always, the others when FPCR enables them. -/
def fpCause (x : FX) (fpcr : W32) : Option Nat :=
  let en (b : Nat) : Bool := fld fpcr b b == 1
  if x.subn then some 6
  else if x.iv && en 8 then some 1
  else if x.dz && en 7 then some 2
  else if x.ovf && en 6 then some 3
  else if x.uf && en 5 then some 4
  else if x.ix && en 4 then some 5
  else none

/-- FPSR flags of what was raised. -/
def fpFlags (x : FX) : Nat := b2n x.di * 32 + b2n x.iv * 16 + b2n x.dz * 8 + b2n x.ovf * 4 + b2n x.uf * 2 + b2n x.ix

/-- Completion (R200, R205): a trapping instruction writes nothing and its FPE becomes pending. -/
def fpComplete (c : Core) : Core :=
  match c.fpu with
  | none => c
  | some o =>
    let r := fpCompute o c.fpcr
    let c := { c with fpu := none }
    match fpCause r.fx c.fpcr with
    | some k => { c with fpsr := setFld (setFld c.fpsr 8 8 1) 15 12 k, fpePc := o.pc }
    | none =>
      let c := { c with fpsr := c.fpsr ||| BitVec.ofNat 32 (fpFlags r.fx) }
      match r.dst with
      | .freg => c.setFr o.rd.val r.val
      | .greg => c.setG o.rd.val r.val
      | .flags q => { c with pstat := fcmpFlags c.pstat q }

/-! ## Issue -/

/-- A floating-point instruction issues: its operands are read, and the unit begins (R200). -/
def fpIssue (major : Nat) (func : BitVec 11) (rd ra : Reg) (foot : Foot) (rdOps : Core → W64 × W64 × W64) : Op :=
  { foot := foot, fp := true
    run := fun i s => .next (updCore s i (fun c =>
      let v := rdOps c
      { c with fpu := some { major := major, func := func, rd := rd, ra := ra, a := v.1, b := v.2.1, c := v.2.2,
                             pc := c.pc } })) }

/-- Major 0x10. -/
def opFp (op : Nat) (fmt : Bool) (fd fa fb : Reg) : Op :=
  fpIssue 0x10 (BitVec.ofNat 11 (b2n fmt * 1024 + op)) fd fa { flags := op == 0xA || op == 0xB }
    (fun c => (c.fr fa.val, c.fr fb.val, 0))
/-- Major 0x11. -/
def opFma (op : Nat) (fmt : Bool) (fd fa fb fc : Reg) : Op :=
  fpIssue 0x11 (BitVec.ofNat 11 (op * 16 + b2n fmt * 8)) fd fa {} (fun c => (c.fr fa.val, c.fr fb.val, c.fr fc.val))
/-- Major 0x12 from an F register. -/
def opFcv (op : Nat) (fmt rz : Bool) (rd ra : Reg) : Op :=
  fpIssue 0x12 (BitVec.ofNat 11 (b2n rz * 128 + b2n fmt * 64 + op)) rd ra {} (fun c => (c.fr ra.val, 0, 0))
/-- Major 0x12 from a G register. -/
def opGcv (op : Nat) (fmt : Bool) (rd ra : Reg) : Op :=
  fpIssue 0x12 (BitVec.ofNat 11 (b2n fmt * 64 + op)) rd ra { reads := [ra.val] } (fun c => (c.gr ra.val, 0, 0))

/-- FP_COMPLETE (R205): the operation in flight completes, a halted core's too. -/
def execFpComplete (c : CoreId) (s : State) : Out :=
  .next (if serving s c.hub.val && domOf s (64 * c.hub.val + 36 + c.num.val / 8) == .on
    then updCore s (coreIx c) fpComplete else s)

/-! ## Instruction rows -/

/-- FADD (R207). -/
def execFadd (c : CoreId) (fmt : Bool) (fd : Reg) (fa : Reg) (fb : Reg) (s : State) : Out :=
  .next (runRow c (opFp 0 fmt fd fa fb) s)
/-- FSUB (R207). -/
def execFsub (c : CoreId) (fmt : Bool) (fd : Reg) (fa : Reg) (fb : Reg) (s : State) : Out :=
  .next (runRow c (opFp 1 fmt fd fa fb) s)
/-- FMUL (R207). -/
def execFmul (c : CoreId) (fmt : Bool) (fd : Reg) (fa : Reg) (fb : Reg) (s : State) : Out :=
  .next (runRow c (opFp 2 fmt fd fa fb) s)
/-- FDIV (R207). -/
def execFdiv (c : CoreId) (fmt : Bool) (fd : Reg) (fa : Reg) (fb : Reg) (s : State) : Out :=
  .next (runRow c (opFp 3 fmt fd fa fb) s)
/-- FSQRT (R207). -/
def execFsqrt (c : CoreId) (fmt : Bool) (fd : Reg) (fa : Reg) (s : State) : Out :=
  .next (runRow c (opFp 4 fmt fd fa 0) s)
/-- FMIN (R207). -/
def execFmin (c : CoreId) (fmt : Bool) (fd : Reg) (fa : Reg) (fb : Reg) (s : State) : Out :=
  .next (runRow c (opFp 5 fmt fd fa fb) s)
/-- FMAX (R207). -/
def execFmax (c : CoreId) (fmt : Bool) (fd : Reg) (fa : Reg) (fb : Reg) (s : State) : Out :=
  .next (runRow c (opFp 6 fmt fd fa fb) s)
/-- FABS (R207). -/
def execFabs (c : CoreId) (fmt : Bool) (fd : Reg) (fa : Reg) (s : State) : Out :=
  .next (runRow c (opFp 7 fmt fd fa 0) s)
/-- FNEG (R207). -/
def execFneg (c : CoreId) (fmt : Bool) (fd : Reg) (fa : Reg) (s : State) : Out :=
  .next (runRow c (opFp 8 fmt fd fa 0) s)
/-- FMOV (R207). -/
def execFmov (c : CoreId) (fmt : Bool) (fd : Reg) (fa : Reg) (s : State) : Out :=
  .next (runRow c (opFp 9 fmt fd fa 0) s)
/-- FCMP (R209). -/
def execFcmp (c : CoreId) (fmt : Bool) (fa : Reg) (fb : Reg) (s : State) : Out :=
  .next (runRow c (opFp 10 fmt 0 fa fb) s)
/-- FCMPE (R209). -/
def execFcmpe (c : CoreId) (fmt : Bool) (fa : Reg) (fb : Reg) (s : State) : Out :=
  .next (runRow c (opFp 11 fmt 0 fa fb) s)
/-- FMADD (R208). -/
def execFmadd (c : CoreId) (fmt : Bool) (fd : Reg) (fa : Reg) (fb : Reg) (fc : Reg) (s : State) : Out :=
  .next (runRow c (opFma 0 fmt fd fa fb fc) s)
/-- FMSUB (R208). -/
def execFmsub (c : CoreId) (fmt : Bool) (fd : Reg) (fa : Reg) (fb : Reg) (fc : Reg) (s : State) : Out :=
  .next (runRow c (opFma 1 fmt fd fa fb fc) s)
/-- FNMADD (R208). -/
def execFnmadd (c : CoreId) (fmt : Bool) (fd : Reg) (fa : Reg) (fb : Reg) (fc : Reg) (s : State) : Out :=
  .next (runRow c (opFma 2 fmt fd fa fb fc) s)
/-- FNMSUB (R208). -/
def execFnmsub (c : CoreId) (fmt : Bool) (fd : Reg) (fa : Reg) (fb : Reg) (fc : Reg) (s : State) : Out :=
  .next (runRow c (opFma 3 fmt fd fa fb fc) s)
/-- FCVT_S2D (R210). -/
def execFcvtS2d (c : CoreId) (rd : Reg) (ra : Reg) (s : State) : Out := .next (runRow c (opFcv 0 false false rd ra) s)
/-- FCVT_D2S (R210). -/
def execFcvtD2s (c : CoreId) (rd : Reg) (ra : Reg) (s : State) : Out := .next (runRow c (opFcv 1 false false rd ra) s)
/-- FCVT_H2S (R210). -/
def execFcvtH2s (c : CoreId) (rd : Reg) (ra : Reg) (s : State) : Out := .next (runRow c (opFcv 2 false false rd ra) s)
/-- FCVT_S2H (R210). -/
def execFcvtS2h (c : CoreId) (rd : Reg) (ra : Reg) (s : State) : Out := .next (runRow c (opFcv 3 false false rd ra) s)
/-- FCVT_H2D (R210). -/
def execFcvtH2d (c : CoreId) (rd : Reg) (ra : Reg) (s : State) : Out := .next (runRow c (opFcv 4 false false rd ra) s)
/-- FCVT_D2H (R210). -/
def execFcvtD2h (c : CoreId) (rd : Reg) (ra : Reg) (s : State) : Out := .next (runRow c (opFcv 5 false false rd ra) s)
/-- FCVTI (R210). -/
def execFcvti (c : CoreId) (fmt : Bool) (rz : Bool) (rd : Reg) (fa : Reg) (s : State) : Out :=
  .next (runRow c (opFcv 8 fmt rz rd fa) s)
/-- FCVTIU (R210). -/
def execFcvtiu (c : CoreId) (fmt : Bool) (rz : Bool) (rd : Reg) (fa : Reg) (s : State) : Out :=
  .next (runRow c (opFcv 9 fmt rz rd fa) s)
/-- ICVTF (R210). -/
def execIcvtf (c : CoreId) (fmt : Bool) (fd : Reg) (ra : Reg) (s : State) : Out :=
  .next (runRow c (opGcv 10 fmt fd ra) s)
/-- ICVTFU (R210). -/
def execIcvtfu (c : CoreId) (fmt : Bool) (fd : Reg) (ra : Reg) (s : State) : Out :=
  .next (runRow c (opGcv 11 fmt fd ra) s)
/-- FMVGF (R210). -/
def execFmvgf (c : CoreId) (rd : Reg) (ra : Reg) (s : State) : Out := .next (runRow c (opFcv 12 false false rd ra) s)
/-- FMVFG (R210). -/
def execFmvfg (c : CoreId) (rd : Reg) (ra : Reg) (s : State) : Out := .next (runRow c (opGcv 13 false rd ra) s)
/-- FCLASS (R210). -/
def execFclass (c : CoreId) (fmt : Bool) (rd : Reg) (fa : Reg) (s : State) : Out :=
  .next (runRow c (opFcv 14 fmt false rd fa) s)

end Sys2Proof.Machine
end

