-- ==== Sys2Proof/Machine/Microcode.lean ====
section
/-! DEFINITION. Micro-routines of table-range words (R225 to R236): the decode table, the microword, interrupt windows
and the faults of the control store. -/
namespace Sys2Proof.Machine

/-! ## Fields of a microword (R228) -/

def mwNext (w : BitVec 128) : Nat := fld w 127 113
def mwSeq (w : BitVec 128) : Nat := fld w 112 110
def mwCond (w : BitVec 128) : Nat := fld w 109 105
def mwAlu (w : BitVec 128) : Nat := fld w 104 99
def mwA (w : BitVec 128) : Nat := fld w 98 94
def mwB (w : BitVec 128) : Nat := fld w 93 89
def mwDest (w : BitVec 128) : Nat := fld w 88 84
def mwShift (w : BitVec 128) : Nat := fld w 83 80
def mwMem (w : BitVec 128) : Nat := fld w 79 76
def mwDec (w : BitVec 128) : Nat := fld w 75 73
def mwMul (w : BitVec 128) : Nat := fld w 72 70
def mwFpu (w : BitVec 128) : Nat := fld w 69 66
def mwTok (w : BitVec 128) : Nat := fld w 65 62
def mwArr (w : BitVec 128) : Nat := fld w 61 59
def mwFlags (w : BitVec 128) : Nat := fld w 58 55
def mwConst (w : BitVec 128) : Nat := fld w 54 49
def mwSpec (w : BitVec 128) : Nat := fld w 48 41
def mwSpecop (w : BitVec 128) : Nat := fld w 40 39
def mwLit (w : BitVec 128) : W32 := BitVec.ofNat 32 (fld w 38 7)
def mwIntok (w : BitVec 128) : Bool := fld w 4 4 == 1

/-- A reserved value, a nonzero bit of [3:0], or SPECOP 2 in the customer region. -/
def mwBad (w : BitVec 128) (customer : Bool) : Bool :=
  decide (6 ≤ mwSeq w) || decide (0x16 ≤ mwCond w) || decide (0x16 ≤ mwAlu w) || decide (0x18 ≤ mwA w) ||
  decide (0x18 ≤ mwB w) || decide (0x11 ≤ mwDest w) || decide (7 ≤ mwShift w) || decide (14 ≤ mwMem w) ||
  mwDec w == 7 || mwMul w == 7 || decide (6 ≤ mwFpu w) || mwTok w == 15 || decide (5 ≤ mwArr w) ||
  decide (9 ≤ mwFlags w) || (decide (0x0C < mwSpec w) && mwSpec w != 0x80) || mwSpecop w == 3 || fld w 3 0 != 0 ||
  (mwSpecop w == 2 && customer)

/-! ## Fetching a microword (R226, R233, R236) -/

/-- The WCS offset lies in the customer region. -/
def inCustomer (c : Core) (off : Nat) : Bool := decide (c.corg ≤ off) && decide (off < c.corg + c.clen)

/-- A ROM microaddress that an enabled PMATCH entry names is replaced, the lowest entry first. -/
def microAddr (c : Core) (a : Nat) : Nat :=
  if 0x4000 ≤ a then a else
  match (List.range 32).find? (fun j =>
      let e : W32 := tget (fun _ => 0) c.pmatch j
      fld e 31 31 == 1 && fld e 27 14 == a) with
  | some j => 0x4000 + fld (tget (fun _ => (0 : W32)) c.pmatch j) 11 0
  | none => a

/-- CTRLCHK of kind `kind` naming x. -/
def ctrlchk (s : State) (kind x : Nat) : Res := .trap s trCtrlchk (kindValue kind x)

/-- The microword at microaddress a, or the kind of its fault. -/
def microWord (c : Core) (a : Nat) : Except Nat (BitVec 128) :=
  if a < 0x4000 then .ok (Config.romWord (BitVec.ofNat 14 a))
  else
    let off := a - 0x4000
    if 0x1000 ≤ off || !(decide (off < c.plen) || inCustomer c off) then .error 0xC
    else
      let w := tget (fun _ => (0 : BitVec 136)) c.wcs off
      if wcsWord (w.setWidth 128) = w then .ok (w.setWidth 128) else .error 0x8

/-! ## Buses -/

def Micro.l (m : Micro) (k : Nat) : W64 := tget (fun _ => 0) m.lat k
def Micro.setL (m : Micro) (k : Nat) (v : W64) : Micro := { m with lat := tset (fun _ => 0) m.lat k v }

/-- Register that a bus selector 1, 2 or 3 names through the instruction word. -/
def irReg (w : W32) (k : Nat) : Nat := if k = 1 then fld w 25 21 else if k = 2 then fld w 20 16 else fld w 15 11

/-- CONST k. -/
def constVal (k : Nat) : W64 := if k < 0x20 then BitVec.ofNat 64 k else BitVec.ofNat 64 (2 ^ k)

/-- The value that a bus takes. -/
def busVal (s : State) (i : Nat) (m : Micro) (w : BitVec 128) (k : Nat) : W64 :=
  let c := getCore s i
  if k = 0 then 0
  else if k ≤ 3 then c.gr (irReg m.word k)
  else if k ≤ 0xB then m.l (k - 4)
  else match k with
    | 0xC => (mwLit w).signExtend 64
    | 0xD => constVal (mwConst w)
    | 0xE => m.l 9
    | 0xF => c.cnt
    | 0x10 => if mwSpec w = 0x80 then m.word.setWidth 64 else (sprRead s i (mwSpec w)).getD 0
    | 0x11 => m.l 10
    | 0x16 => (m.newPc.getD c.pc).setWidth 64
    | 0x17 => m.l 11
    | k => m.l k

/-- The ALU: result, and carry and overflow where the operation gives them. -/
def aluOut (op : Nat) (a b : W64) (cy : Bool) : W64 × Option (Bool × Bool) :=
  let p (r : W64 × Bool × Bool) : W64 × Option (Bool × Bool) := (r.1, some r.2)
  match op with
  | 0x01 => p (addParts a b false)
  | 0x02 => p (subParts a b true)
  | 0x03 => p (addParts a b cy)
  | 0x04 => p (subParts a b cy)
  | 0x05 => (a &&& b, none)
  | 0x06 => (a ||| b, none)
  | 0x07 => (a ^^^ b, none)
  | 0x08 => (a &&& ~~~b, none)
  | 0x09 => (b, none)
  | 0x0A => (bit64 (a.slt b), none)
  | 0x0B => (bit64 (a.ult b), none)
  | 0x0C => (if a.slt b then a else b, none)
  | 0x0D => (if a.slt b then b else a, none)
  | 0x0E => (if a.ult b then a else b, none)
  | 0x0F => (if a.ult b then b else a, none)
  | 0x10 => (BitVec.ofNat 64 (clz64 a), none)
  | 0x11 => (BitVec.ofNat 64 (ctz64 a), none)
  | 0x12 => (BitVec.ofNat 64 (pop64 a), none)
  | 0x13 => (bswap64 a, none)
  | 0x14 => p (addParts a 1 false)
  | 0x15 => p (subParts a 1 true)
  | _ => (a, none)

/-- SHIFT, by B[5:0]. -/
def shiftOut (op : Nat) (r b : W64) : W64 :=
  match op with
  | 1 => r <<< cnt6 b
  | 2 => r >>> cnt6 b
  | 3 => r.sshiftRight (cnt6 b)
  | 4 => r.rotateRight (cnt6 b)
  | 5 => r <<< 4
  | 6 => r >>> 4
  | _ => r

/-! ## Units that a microword starts -/

/-- Multiply and divide on A and B. A divide by zero gives the result of DZE = 0 (assumption 126). -/
def microMul (k : Nat) (a b : W64) (m : Micro) : Micro :=
  let put (lo hi : W64) (v : Bool) : Micro := { (m.setL 10 lo).setL 11 hi with mv := v }
  match k with
  | 1 => put (a * b) (BitVec.ofInt 64 (a.toInt * b.toInt / 2 ^ 64)) m.mv
  | 2 => put (a * b) (BitVec.ofInt 64 (a.toInt * b.toInt / 2 ^ 64)) m.mv
  | 3 => put (a * b) (BitVec.ofNat 64 (a.toNat * b.toNat / 2 ^ 64)) m.mv
  | 4 => put ((lo32 a).signExtend 64 * (lo32 b).signExtend 64) (m.l 11) m.mv
  | 5 => let r := divParts true a b; put r.1 r.2.1 r.2.2
  | 6 => let r := divParts false a b; put r.1 r.2.1 r.2.2
  | _ => m

/-- The decimal unit on A and B (R178, R179). -/
def microDec (k : Nat) (a b : W64) (m : Micro) : Micro :=
  let bad := anyBad a || anyBad b
  let put (r : W64) (dc bd z : Bool) : Micro := { m.setL 12 r with dc := dc, bd := bd, dz := z }
  match k with
  | 1 => let r := decSteps dAddStep a b; put r.1 r.2 bad (r.1 == 0)
  | 2 => let r := decSteps dSubStep a b; put r.1 r.2 bad (r.1 == 0)
  | 3 => let r := decSteps dAddStep a 0; put r.1 r.2 false (r.1 == 0)
  | 4 => let r := decSteps dSubStep a b; put (m.l 12) r.2 bad (a == b)
  | 5 => { put ((b >>> 4) ||| ((a % 10) <<< 60)) (a / 10 != 0) false (a / 10 == 0) with
             lat := ((m.setL 12 ((b >>> 4) ||| ((a % 10) <<< 60))).setL 10 (a / 10)).lat }
  | 6 => put (b * 10 + (a >>> 60)) false (decide (10 ≤ (a >>> 60).toNat)) (a <<< 4 == 0)
  | _ => m

/-- Registers 32 and up of a core are the routine's own operand latches: a unit is driven through them by the rule of
the instruction of its name. -/
def withScratch (s : State) (i : Nat) (l : List (Nat × W64)) : State :=
  updCore s i (fun c => l.foldl (fun c e => c.setG e.1 e.2) c)
def dropScratch (s : State) (i : Nat) : State := updCore s i (fun c => { c with g := tkeep (fun k => k < 32) c.g })

/-- A unit's operation: the state and the answer, or how it ends the microword. -/
def unitRun (s : State) (i : Nat) (l : List (Nat × W64)) (run : Nat → State → Res) : Except Res (State × W64) :=
  match run i (withScratch s i l) with
  | .next s => .ok (dropScratch s i, (getCore s i).gr 48)
  | .trap s cause v => .error (.trap (dropScratch s i) cause v)
  | .wait s => .error (.wait (dropScratch s i))
  | .halt s cause => .error (.halt (dropScratch s i) cause)
  | .jump s _ => .error (.wait (dropScratch s i))
  | .done s => .error (.wait (dropScratch s i))
  | .after s cause v => .error (.trap (dropScratch s i) cause v)

/-- HSEL that a routine's SEND or CANCEL takes from its instruction word; 0b11 names the own hub (assumption 125). -/
def irHsel (w : W32) : Nat := if fld w 7 6 = 3 then 0 else fld w 7 6

/-- The operation of the token and ruling port: A in the place of G[ra], B of G[rb], the register that rd names as a
source (assumption 125). -/
def tokRun (k : Nat) (w : W32) : Nat → State → Res :=
  match k with
  | 1 => (opSend 0 (irHsel w) 48 40 44).run
  | 2 => (opCtxnew 48).run
  | 3 => (opCtxfree 40).run
  | 4 => (opCancelKey 0 (irHsel w) 48 40).run
  | 5 => (opCancelContext 40).run
  | 6 => (opFlowseqNext 48 40).run
  | 7 => (opFlowseqPut 48 40 44).run
  | 8 => (opFlowseqSkip 40).run
  | 9 => chopRun 48 40
  | 10 => (opSealq 48 40).run
  | 11 => (opRmark w 48 40 44).run
  | 12 => (opRxmark w 48 40 44).run
  | 13 => (opRread w 48 40).run
  | _ => (opRadv w 40 44).run

def arrRun (k : Nat) : Nat → State → Res :=
  match k with
  | 1 => (opAissue 48 40 44).run
  | 2 => (opAgang 48 40 44).run
  | 3 => (opAwait 48 40).run
  | _ => (opAblot 48 40).run

/-- Operand latches of a unit: A, B, the register of rd, and for a cross mark the registers after ra and rb. -/
def scratchOf (s : State) (i : Nat) (w : W32) (a b : W64) : List (Nat × W64) :=
  let c := getCore s i
  let ra := irReg w 2
  let rb := irReg w 3
  [(40, a), (41, c.gr ((ra + 1) % 32)), (42, c.gr ((ra + 2) % 32)), (44, b), (45, c.gr ((rb + 1) % 32)),
   (46, c.gr ((rb + 2) % 32)), (48, c.gr (irReg w 1))]

/-- MEM at MAR: loads and stores go through MDR; a locked operation stores MDR and answers there; ACAS compares with
the B bus (assumption 125). -/
def microMem (k : Nat) (b : W64) (s : State) (i : Nat) (m : Micro) : Except Res (State × Micro) :=
  let n (k : Nat) : Nat := 2 ^ k
  if k = 0 then .ok (s, m)
  else if k ≤ 4 then
    match coreLoadV s i (m.l 8) (n (k - 1)) none with
    | .ok (s, v) => .ok (s, m.setL 9 v)
    | .error r => .error r
  else if k ≤ 8 then
    match coreStoreV s i (m.l 8) (n (k - 5)) (m.l 9) with
    | .ok (s, _) => .ok (s, m)
    | .error r => .error r
  else
    let o : Op := match k with
      | 9 => opLdl 48 40
      | 10 => opStc 48 40 44
      | 11 => opAadd 48 40 44
      | 12 => opAswap 48 40 44
      | _ => opAcas 48 40 44
    match unitRun s i [(40, m.l 8), (44, m.l 9), (48, b)] o.run with
    | .ok (s, v) => .ok (s, m.setL 9 v)
    | .error r => .error r

/-- FPU: issue the word, wait, deliver a pending FPE, read F[ra], write F[rd]. The result of a word that is no
floating-point instruction is a free value. -/
def microFpu (k : Nat) (res : W64) (s : State) (i : Nat) (m : Micro) : Except Res (State × Micro) :=
  let c := getCore s i
  if k = 0 then .ok (s, m)
  else if c.fpu.isSome then .error (.wait s)
  else match k with
    | 1 =>
      if c.fpePend then .error (.done (takeFpe s i)) else
      let o : FpOp := { major := fld m.word 31 26, func := BitVec.ofNat 11 (fld m.word 10 0),
                        rd := ⟨irReg m.word 1 % 32, Nat.mod_lt _ (by decide)⟩,
                        ra := ⟨irReg m.word 2 % 32, Nat.mod_lt _ (by decide)⟩,
                        a := Config.freeBits 64 s.fresh, b := 0, c := 0, pc := c.pc }
      .ok (updCore (drawn s) i (fun c => { c with fpu := some o }), m)
    | 2 => .ok (s, m)
    | 3 => if c.fpePend then .error (.done (takeFpe s i)) else .ok (s, m)
    | 4 => .ok (s, m.setL 13 (c.fr (irReg m.word 2)))
    | _ => .ok (updCore s i (fun c => c.setFr (irReg m.word 1) res), m)

/-- Flags (R228). Where the ALU gives no carry, 2 leaves C and V; 7 sets one of the rows of R209. -/
def microFlags (k : Nat) (m : Micro) (alu : W64 × Option (Bool × Bool)) (res a b : W64) (n : Nat) (p : W32) : W32 :=
  match k with
  | 1 => putNZ p res
  | 2 => match alu.2 with
    | some (cy, v) => putNZCV p res.msb (res == 0) cy v
    | none => putNZ p res
  | 3 => putZ p (res == 0)
  | 4 => putZ (putDec p m.dc m.bd) m.dz
  | 5 => putDec p m.dc m.bd
  | 6 => putV p m.mv
  | 7 => fcmpFlags p (match n % 4 with | 0 => .lt | 1 => .eq | 2 => .gt | _ => .un)
  | 8 => putC (putZ p (a == b)) (decide (b.toNat ≤ a.toNat))
  | _ => p

/-- SPECOP: 1 writes where MTS may, 2 also CTX, TAG and LLADDR. The other RO registers are computed. -/
def microSpec (op n : Nat) (v : W64) (c : Core) : Core :=
  if op = 0 || n = 0x80 then c
  else if sprWritable n then sprWrite c n v
  else if op = 2 then
    match n with
    | 0x05 => { c with ctx := v }
    | 0x06 => { c with tag := v }
    | 0x0A => { c with lladdr := v }
    | _ => c
  else c

/-- DEST. -/
def microDest (k : Nat) (w : BitVec 128) (v : W64) (s : State) (i : Nat) (m : Micro) : State × Micro :=
  if k = 0 then (s, m)
  else if k ≤ 3 then (updCore s i (fun c => c.setG (irReg m.word k) v), m)
  else if k ≤ 0xB then (s, m.setL (k - 4) v)
  else match k with
    | 0xC => (updCore s i (fun c => { c with cnt := v }), m)
    | 0xD => (s, m.setL 8 v)
    | 0xE => (s, m.setL 9 v)
    | 0xF => (s, { m with newPc := some (v.setWidth 48) })
    | _ => (updCore s i (fun c => c.setG (fld (mwLit w) 4 0) v), m)

/-- COND, seen after the microword's own writes. -/
def microCond (k : Nat) (c : Core) (res : W64) : Bool :=
  if k = 0 then true
  else if k ≤ 0x10 then condHolds c (k - 1)
  else match k with
    | 0x11 => c.cnt == 0
    | 0x12 => res == 0
    | 0x13 => res.msb
    | 0x14 => c.fpu.isSome
    | _ => c.eventPend

/-! ## One microword -/

/-- A special register that waits for the unit (R206). -/
def specWaits (w : BitVec 128) : Bool :=
  (mwSpec w == 3 || mwSpec w == 4) && (mwA w == 0x10 || mwB w == 0x10 || mwSpecop w != 0)

/-- The resources of a microword: memory, units, flags, special register and destination. The result bus goes with
the state. A field that must wait leaves the microword undone. -/
def microUnits (w : BitVec 128) (s : State) (i : Nat) (m : Micro) : Except Res (State × Micro × W64) :=
  let a := busVal s i m w (mwA w)
  let b := busVal s i m w (mwB w)
  let alu := aluOut (mwAlu w) a b ((getCore s i).ps psC)
  let res := shiftOut (mwShift w) alu.1 b
  if specWaits w && (getCore s i).fpu.isSome then .error (.wait s) else
  match microFpu (mwFpu w) res s i m with
  | .error r => .error r
  | .ok (s1, m) =>
    match microMem (mwMem w) b s1 i m with
    | .error r => .error r
    | .ok (s2, m) =>
      let l := scratchOf s2 i m.word a b
      match (if mwTok w = 0 then Except.ok (s2, m.l 14) else unitRun s2 i l (tokRun (mwTok w) m.word)) with
      | .error (.wait _) => .error (.wait s)
      | .error r => .error r
      | .ok (s3, tv) =>
        match (if mwArr w = 0 then Except.ok (s3, m.l 15) else unitRun s3 i l (arrRun (mwArr w))) with
        | .error (.wait _) => .error (.wait s)
        | .error r => .error r
        | .ok (s4, av) =>
          let m := if mwTok w = 0 then m else m.setL 14 tv
          let m := if mwArr w = 0 then m else m.setL 15 av
          let m := microDec (mwDec w) a b (microMul (mwMul w) a b m)
          let s5 := if mwFlags w = 0 then s4 else
            updCore (if mwFlags w = 7 then drawn s4 else s4) i (fun c =>
              { c with pstat := microFlags (mwFlags w) m alu res a b (Config.freeNat s4.fresh) c.pstat })
          let s6 := updCore s5 i (microSpec (mwSpecop w) (mwSpec w) res)
          let (s7, m) := microDest (mwDest w) w res s6 i m
          .ok (portsUsed s7 i, m, res)

/-- The routine rests at its next microword. -/
def restMicro (s : State) (i : Nat) (m : Micro) : Res := .wait (updCore s i (fun c => { c with micro := some m }))
/-- The routine's working state is discarded. -/
def dropMicro (s : State) (i : Nat) : State := updCore s i (fun c => { c with micro := none })

/-- A microword's end of the instruction: a wait rests before it, a trap waits until the unit is idle. -/
def microEnd (s0 : State) (i : Nat) (m : Micro) : Res → Res
  | .wait s => restMicro s i m
  | .trap s cause v => if (getCore s i).fpu.isSome then restMicro s0 i m else .trap (dropMicro s i) cause v
  | .halt s cause => if (getCore s i).fpu.isSome then restMicro s0 i m else .halt (dropMicro s i) cause
  | r => r

/-- Where the routine goes after a microword at address `at_`: the next microaddress, or how it ends. -/
def microNext (w : BitVec 128) (at_ : Nat) (s : State) (i : Nat) (m : Micro) (res : W64) : Except Res Micro :=
  let go (a : Nat) (m : Micro) : Except Res Micro := .ok { m with upc := a % 2 ^ 15 }
  match mwSeq w with
  | 0 => go (mwNext w) m
  | 1 => if microCond (mwCond w) (getCore s i) res then go (mwNext w) m else go (at_ + 1) m
  | 2 => if 4 ≤ m.stack.length then .error (ctrlchk s 0xA at_)
         else go (mwNext w) { m with stack := (at_ + 1) % 2 ^ 15 :: m.stack }
  | 3 => match m.stack with
    | [] => .error (ctrlchk s 0xA at_)
    | a :: t => go a { m with stack := t }
  | 4 => .error (match m.newPc with | some pc => .jump (dropMicro s i) pc | none => .next (dropMicro s i))
  | _ => .error (.trap s (fld (mwLit w) 7 0) res)

/-- One microword of the routine: goes on, or ends. -/
def microStep (s : State) (i : Nat) (m : Micro) : Except Res (State × Micro) :=
  let c := getCore s i
  let at_ := microAddr c m.upc
  match microWord c at_ with
  | .error k => .error (microEnd s i m (ctrlchk s k at_))
  | .ok w =>
    if mwBad w (decide (0x4000 ≤ at_) && inCustomer c (at_ - 0x4000)) then .error (microEnd s i m (ctrlchk s 0x9 at_)) else
    match microUnits w s i m with
    | .error r => .error (microEnd s i m r)
    | .ok (t, m', res) =>
      match microNext w m.upc t i m' res with
      | .error r => .error (microEnd s i m r)
      | .ok m' =>
        if mwIntok w && !(getCore t i).stepReq && (eventDue (getCore t i) || haltDue t i) then .error (.wait (dropMicro t i)) else .ok (t, m')

/-- Microwords of one command; after them the routine rests and goes on with the next. -/
def microRun (i : Nat) : Nat → State → Micro → Res
  | 0, s, m => restMicro s i m
  | n + 1, s, m =>
    match microStep s i m with
    | .error r => r
    | .ok (s, m) => microRun i n s m

/-- Microwords that one command runs: each takes at least one CCLK, and 256 is the bound of R232. -/
def microBurst : Nat := 256

/-! ## Table-range words (R225, R234) -/

/-- A routine begins: its working state is undefined (R229). -/
def microStart (s : State) (w : W32) (entry : Nat) : State × Micro :=
  let lat : Tab W64 := (List.range 16).map (fun k => (k, Config.freeBits 64 (s.fresh + k)))
  ({ s with fresh := s.fresh + 16 },
   { word := w, upc := 0x4000 + entry, lat := lat, mv := Config.freeBool s.fresh, dc := Config.freeBool (s.fresh + 1),
     bd := Config.freeBool (s.fresh + 2), dz := Config.freeBool (s.fresh + 3), stack := [], newPc := none })

/-- Index of the decode-table entry of a word. -/
def dtabIx (w : W32) : Nat := (fld w 31 26 - 0x38) * 8 + fld w 2 0
/-- The entry's check holds; an entry not in the image reads 0. -/
def dtabGood (e : W64) : Bool := e == 0 || (fld e 55 39 == 0 && dtabEntry (fld e 55 0) == e)

/-- What decides a table-range word before its routine runs: a trap, or the entry's offset. -/
def tableDecide (i : Nat) (w : W32) (s : State) : Except Res Nat :=
  let c := getCore s i
  if !c.mode then .error (emulate s w false) else
  let e := tget (fun _ => (0 : W64)) c.dtab (dtabIx w)
  if !(dtabGood e) then .error (ctrlchk s 0xD (dtabIx w))
  else if fld e 38 38 = 0 then .error (emulate s w true)
  else if fld w 25 0 &&& fld e 37 12 ≠ 0 then .error (illegal s w)
  else if !(inCustomer c (fld e 11 0)) then .error (ctrlchk s 0xC (0x4000 + fld e 11 0))
  else .ok (fld e 11 0)

/-- The operation in flight writes a register or flags that a routine might use. -/
def fpuInFlight (c : Core) : Bool :=
  match c.fpu with
  | some o => o.writesG.isSome || o.readsG.isSome || o.setsFlags
  | none => false

def tableRun (w : W32) (i : Nat) (s : State) : Res :=
  match tableDecide i w s with
  | .error r => r
  | .ok entry =>
    if fpuInFlight (getCore s i) then .wait s else
    let (s, m) := microStart s w entry
    microRun i microBurst s m

/-- A word of majors 0x38 to 0x3F. -/
def opTable (w : W32) : Op := { foot := {}, run := tableRun w }

/-- The routine of core i that rests goes on. -/
def microGoOn (s : State) (i : Nat) (m : Micro) : State :=
  if coreLive s i then finish s i (microRun i microBurst s m) else s

/-- TABLE_RANGE_WORD (R225, R234): the word's routine begins, or goes on where it rests. -/
def execTableRangeWord (c : CoreId) (w : W32) (s : State) : Out :=
  .next (if fld w 31 26 < 0x38 then s else
    match (getCore s (coreIx c)).micro with
    | some m => if m.word = w then microGoOn s (coreIx c) m else s
    | none => runRow c (opTable w) s)

/-- EMULATED_WORD (R224). -/
def opEmu (w : W32) : Op := { foot := {}, run := fun _ s => emulate s w false }
/-- Majors that are emulated (R221). -/
def isEmulated (w : W32) : Bool := fld w 31 26 == 0x07 || (decide (0x1A ≤ fld w 31 26) && decide (fld w 31 26 ≤ 0x37))
/-- EMULATED_WORD (R224). -/
def execEmulatedWord (c : CoreId) (w : W32) (s : State) : Out :=
  .next (if isEmulated w then runRow c (opEmu w) s else s)

/-- DEFERRAL_LIMIT (R232): a routine that rests in the WCS while an event is due. -/
def execDeferralLimit (c : CoreId) (s : State) : Out :=
  let i := coreIx c
  .next (match (getCore s i).micro with
    | some m =>
      let at_ := microAddr (getCore s i) m.upc
      if coreLive s i && eventDue (getCore s i) && decide (0x4000 ≤ at_) && (getCore s i).fpu.isNone then
        finish s i (ctrlchk (dropMicro s i) 0xB at_)
      else s
    | none => s)

end Sys2Proof.Machine
end

