-- ==== Sys2Proof/Machine/CoreDecode.lean ====
section
/-! DEFINITION. Words of the scribe cores (R170, R221 to R225): the instruction that a word is, repeat prefixes
(R188, R189, R191), and words that are no instruction. -/
namespace Sys2Proof.Machine

/-! ## Fields (R170) -/

def wMajor (w : W32) : Nat := fld w 31 26
def wRd (w : W32) : Nat := fld w 25 21
def wRa (w : W32) : Nat := fld w 20 16
def wRb (w : W32) : Nat := fld w 15 11
def wFunc (w : W32) : Nat := fld w 10 0
def wOp (w : W32) : Nat := fld w 5 0
def wImm12 (w : W32) : BitVec 12 := BitVec.ofNat 12 (fld w 11 0)
def wBit (w : W32) (b : Nat) : Bool := fld w b b == 1
def wSz (w : W32) (hi : Nat) : BitVec 2 := BitVec.ofNat 2 (fld w hi (hi - 1))
def regOf (n : Nat) : Reg := ⟨n % 32, Nat.mod_lt _ (by decide)⟩

/-- A word that raises ILLEGAL. -/
def opIllegal (w : W32) : Op := { foot := {}, ill := true, word := w, run := fun _ s => illegal s w }
/-- The operation, illegal when `bad`. -/
def orIllegal (w : W32) (bad : Bool) (o : Op) : Op := if bad then opIllegal w else o

/-! ## Majors -/

def dec00 (w : W32) : Op :=
  let z (keep : Nat) : Bool := w.toNat % 2 ^ 26 - keep != fld w 5 0
  let plain := z 0
  match wOp w with
  | 0x0 => orIllegal w plain opNop
  | 0x1 => orIllegal w plain opSleep
  | 0x2 => orIllegal w plain opDone
  | 0x3 => orIllegal w (z (wRd w * 2 ^ 21)) (opYield (wRd w))
  | 0x4 => orIllegal w plain opFbar
  | 0x5 => orIllegal w plain opSync
  | 0x6 => orIllegal w (z (fld w 25 11 * 2 ^ 11)) (opTrap (BitVec.ofNat 15 (fld w 25 11)))
  | 0x7 => orIllegal w plain opEret
  | 0x8 => orIllegal w plain opBrk
  | _ => opIllegal w

def dec02 (w : W32) : Op :=
  let s := wBit w 10
  let rd := wRd w
  let ra := wRa w
  let rb := wRb w
  if fld w 9 6 ≠ 0 then opIllegal w else
  match wOp w with
  | 0x0 => opAdd s rd ra rb
  | 0x1 => opSub s rd ra rb
  | 0x2 => opAdc s rd ra rb
  | 0x3 => opSbc s rd ra rb
  | 0x4 => opAnd s rd ra rb
  | 0x5 => opOr s rd ra rb
  | 0x6 => opXor s rd ra rb
  | 0x7 => opAndn s rd ra rb
  | 0x8 => opCmp ra rb
  | 0x9 => orIllegal w s (opSlt rd ra rb)
  | 0xA => orIllegal w s (opSltu rd ra rb)
  | 0xB => orIllegal w s (opMin rd ra rb)
  | 0xC => orIllegal w s (opMax rd ra rb)
  | 0xD => orIllegal w s (opMinu rd ra rb)
  | 0xE => orIllegal w s (opMaxu rd ra rb)
  | _ => opIllegal w

def dec03 (w : W32) : Op :=
  let rd := wRd w
  let ra := wRa w
  let imm := wImm12 w
  match fld w 15 12 with
  | 0x0 => opAddi rd ra imm
  | 0x1 => opAddis rd ra imm
  | 0x2 => opAndi rd ra imm
  | 0x3 => opOri rd ra imm
  | 0x4 => opXori rd ra imm
  | 0x5 => opCmpi ra imm
  | 0x6 => opSlti rd ra imm
  | 0x7 => opSltiu rd ra imm
  | 0x8 => opShori rd ra imm
  | _ => opIllegal w

def dec04 (w : W32) : Op :=
  let rd := wRd w
  let ra := wRa w
  let rb := wRb w
  let shn := fld w 10 5
  let sh := BitVec.ofNat 6 shn
  match fld w 4 0 with
  | 0x0 => orIllegal w (shn != 0) (opSll rd ra rb)
  | 0x1 => orIllegal w (shn != 0) (opSrl rd ra rb)
  | 0x2 => orIllegal w (shn != 0) (opSra rd ra rb)
  | 0x3 => orIllegal w (shn != 0) (opRor rd ra rb)
  | 0x4 => orIllegal w (rb != 0) (opSlli rd ra sh)
  | 0x5 => orIllegal w (rb != 0) (opSrli rd ra sh)
  | 0x6 => orIllegal w (rb != 0) (opSrai rd ra sh)
  | 0x7 => orIllegal w (rb != 0) (opRori rd ra sh)
  | 0x8 => orIllegal w (rb != 0 || shn != 0) (opClz rd ra)
  | 0x9 => orIllegal w (rb != 0 || shn != 0) (opCtz rd ra)
  | 0xA => orIllegal w (rb != 0 || shn != 0) (opPopc rd ra)
  | 0xB => orIllegal w (rb != 0 || shn != 0) (opBswap rd ra)
  | 0xC => opBext rd ra rb sh
  | _ => opIllegal w

def dec05 (w : W32) : Op :=
  let rd := wRd w
  let ra := wRa w
  let rb := wRb w
  match wFunc w with
  | 0x0 => opMul rd ra rb
  | 0x1 => opMulh rd ra rb
  | 0x2 => opMulhu rd ra rb
  | 0x3 => opMul32 rd ra rb
  | 0x4 => opDiv rd ra rb
  | 0x5 => opDivu rd ra rb
  | 0x6 => opRem rd ra rb
  | 0x7 => opRemu rd ra rb
  | _ => opIllegal w

def dec06 (w : W32) : Op :=
  let rd := wRd w
  let ra := wRa w
  let rb := wRb w
  match wFunc w with
  | 0x0 => opDadd rd ra rb
  | 0x1 => opDsub rd ra rb
  | 0x2 => orIllegal w (rb != 0) (opDadj rd ra)
  | 0x3 => orIllegal w (rd != 0) (opDcmp ra rb)
  | 0x4 => opDshl rd ra rb
  | 0x5 => opDshr rd ra rb
  | 0x6 => orIllegal w (rb != 0) (opBtod w rd ra)
  | 0x7 => orIllegal w (rb != 0) (opDtob w rd ra)
  | _ => opIllegal w

/-- Majors 0x08 to 0x0A; `pfx` under a prefix. -/
def decLs (pfx : Bool) (w : W32) : Op :=
  let rd := wRd w
  let ra := wRa w
  let rb := wRb w
  if wMajor w = 0x08 then opLoad pfx w (wSz w 15) (wBit w 13) (wBit w 12) (wImm12 w) rd ra
  else if wMajor w = 0x09 then orIllegal w (wBit w 13) (opStore (wSz w 15) (wBit w 12) (wImm12 w) rd ra)
  else if fld w 6 0 ≠ 0 then opIllegal w
  else if wBit w 7 then orIllegal w (wBit w 8) (opStoreIndexed (wSz w 10) rd ra rb)
  else opLoadIndexed pfx w (wSz w 10) (wBit w 8) rd ra rb

def dec0B (w : W32) : Op :=
  let rd := wRd w
  let ra := wRa w
  let rb := wRb w
  match wFunc w with
  | 0x0 => orIllegal w (rb != 0) (opLdl rd ra)
  | 0x1 => opStc rd ra rb
  | 0x2 => opAadd rd ra rb
  | 0x3 => opAswap rd ra rb
  | 0x4 => opAcas rd ra rb
  | _ => opIllegal w

def dec0F (w : W32) : Op :=
  match wFunc w with
  | 0x0 => orIllegal w (wRd w != 0 || wRb w != 0) (opJr (wRa w))
  | 0x1 => orIllegal w (wRb w != 0) (opJlr (wRd w) (wRa w))
  | _ => opIllegal w

def dec10 (w : W32) : Op :=
  let op := wOp w
  let rbZero := op == 4 || (decide (7 ≤ op) && decide (op ≤ 9))
  let rdZero := op == 0xA || op == 0xB
  orIllegal w (decide (0xC ≤ op) || fld w 9 6 != 0 || (rbZero && wRb w != 0) || (rdZero && wRd w != 0))
    (opFp op (wBit w 10) (regOf (wRd w)) (regOf (wRa w)) (regOf (wRb w)))

def dec11 (w : W32) : Op :=
  orIllegal w (fld w 2 0 != 0)
    (opFma (fld w 5 4) (wBit w 3) (regOf (wRd w)) (regOf (wRa w)) (regOf (wRb w)) (regOf (fld w 10 6)))

def dec12 (w : W32) : Op :=
  let op := wOp w
  let fmtUsed := op == 8 || op == 9 || op == 0xA || op == 0xB || op == 0xE
  let bad := op == 6 || op == 7 || decide (0xF ≤ op) || fld w 10 8 != 0 || wRb w != 0 ||
    (wBit w 7 && op != 8 && op != 9) || (wBit w 6 && !fmtUsed)
  orIllegal w bad
    (if op = 0xA || op = 0xB || op = 0xD then opGcv op (wBit w 6) (regOf (wRd w)) (regOf (wRa w))
     else opFcv op (wBit w 6) (wBit w 7) (regOf (wRd w)) (regOf (wRa w)))

def dec13 (w : W32) : Op :=
  if wBit w 12 then opIllegal w
  else if wBit w 15 then opFpStore w (wSz w 14) (wImm12 w) (wRd w) (wRa w)
  else opFpLoad w (wSz w 14) (wImm12 w) (wRd w) (wRa w)

def dec14 (w : W32) : Op :=
  let rd := wRd w
  let ra := wRa w
  let rb := wRb w
  let x := fld w 10 6
  match wOp w with
  | 0x0 => orIllegal w (decide (4 ≤ x)) (opSend w (fld w 7 6) rd ra rb)
  | 0x1 => orIllegal w (wBit w 10) (opSendv w (fld w 7 6) (fld w 9 8) rd ra rb)
  | 0x2 => orIllegal w (x != 0 || ra != 0 || rb != 0) (opCtxnew rd)
  | 0x3 => orIllegal w (x != 0 || rd != 0 || rb != 0) (opCtxfree ra)
  | 0x4 =>
    if fld w 10 9 ≠ 0 || rb ≠ 0 then opIllegal w
    else if wBit w 8 then orIllegal w (fld w 7 6 != 0 || rd != 0) (opCancelContext ra)
    else opCancelKey w (fld w 7 6) rd ra
  | 0x5 =>
    if fld w 10 8 ≠ 0 then opIllegal w else
    match fld w 7 6 with
    | 0 => orIllegal w (rb != 0) (opFlowseqNext rd ra)
    | 1 => opFlowseqPut rd ra rb
    | 2 => orIllegal w (rd != 0 || rb != 0) (opFlowseqSkip ra)
    | _ => opIllegal w
  | _ => opIllegal w

def dec15 (w : W32) : Op :=
  let rd := wRd w
  let ra := wRa w
  let rb := wRb w
  match wFunc w with
  | 0x0 => opAissue rd ra rb
  | 0x1 => orIllegal w (rb != 0) (opAissueBlock rd ra)
  | 0x2 => opAgang rd ra rb
  | 0x3 => orIllegal w (rb != 0) (opAwait rd ra)
  | 0x4 => orIllegal w (rb != 0) (opAblot rd ra)
  | _ => opIllegal w

def dec16 (w : W32) : Op :=
  let rd := wRd w
  let ra := wRa w
  let rb := wRb w
  match wFunc w with
  | 0x0 => opRmark w rd ra rb
  | 0x1 => opRxmark w rd ra rb
  | 0x2 => orIllegal w (rb != 0) (opRread w rd ra)
  | 0x3 => orIllegal w (rd != 0) (opRadv w ra rb)
  | _ => opIllegal w

def dec17 (w : W32) : Op :=
  if wRb w ≠ 0 then opIllegal w else
  match wFunc w with
  | 0x0 => opChop (wRd w) (wRa w)
  | 0x1 => opSealq (wRd w) (wRa w)
  | _ => opIllegal w

def dec18 (w : W32) : Op :=
  if fld w 9 8 ≠ 0 || wRb w ≠ 0 then opIllegal w
  else if wBit w 10 then orIllegal w (wRd w != 0) (opMts w (fld w 7 0) (wRa w))
  else orIllegal w (wRa w != 0) (opMfs w (wRd w) (fld w 7 0))

def dec19 (w : W32) : Op :=
  let sz := wSz w 1
  if fld w 10 4 ≠ 0 || wRb w ≠ 0 then opIllegal w else
  match fld w 3 2 with
  | 0 => opBmove w sz (wRd w) (wRa w)
  | 1 => opBfill w sz (wRd w) (wRa w)
  | 2 => opBcmp w sz (wRd w) (wRa w)
  | _ => opIllegal w

/-- A word other than a prefix. -/
def decPlain (pfx : Bool) (w : W32) : Op :=
  match wMajor w with
  | 0x00 => dec00 w
  | 0x02 => dec02 w
  | 0x03 => dec03 w
  | 0x04 => dec04 w
  | 0x05 => dec05 w
  | 0x06 => dec06 w
  | 0x08 => decLs pfx w
  | 0x09 => decLs pfx w
  | 0x0A => decLs pfx w
  | 0x0B => dec0B w
  | 0x0C => opBr (BitVec.ofNat 26 (fld w 25 0))
  | 0x0D => opBl (BitVec.ofNat 26 (fld w 25 0))
  | 0x0E => opBcc (BitVec.ofNat 4 (fld w 25 22)) (BitVec.ofNat 22 (fld w 21 0))
  | 0x0F => dec0F w
  | 0x10 => dec10 w
  | 0x11 => dec11 w
  | 0x12 => dec12 w
  | 0x13 => dec13 w
  | 0x14 => dec14 w
  | 0x15 => dec15 w
  | 0x16 => dec16 w
  | 0x17 => dec17 w
  | 0x18 => dec18 w
  | 0x19 => dec19 w
  | _ => if 0x38 ≤ wMajor w then opTable w else opEmu w

/-! ## Prefixes (R188, R189, R191) -/

/-- The word is a prefix: its kind. -/
def prefixKind (w : W32) : Option Nat := if wMajor w = 0x01 && fld w 25 2 = 0 && fld w 1 0 ≠ 3 then some (fld w 1 0) else none

/-- What a word raises on its own at decode, ILLEGAL or EMU. -/
def ownTrap (i : Nat) (w : W32) (s : State) : Option Res :=
  if wMajor w = 0x01 then (if (prefixKind w).isNone then some (illegal s w) else none)
  else if isEmulated w then some (emulate s w false)
  else if 0x38 ≤ wMajor w then
    match tableDecide i w s with
    | .error r => some r
    | .ok _ => none
  else if (decPlain true w).ill then some (illegal s w) else none

/-- The unit stops after an iteration: REPZ with Z = 0, REPNZ with Z = 1. -/
def prefixStops (kind : Nat) (c : Core) : Bool := (kind == 1 && !(c.ps psZ)) || (kind == 2 && c.ps psZ)

/-- One iteration. -/
def prefixStep (kind : Nat) (o : Op) (i : Nat) (s : State) : Except Res State :=
  if hazard (getCore s i) o.foot then .error (.wait s) else
  match o.run i s with
  | .next t =>
    let t := updCore t i (fun c => { c with cnt := c.cnt - 1, ports := [] })
    if prefixStops kind (getCore t i) then .error (.jump t ((getCore t i).pc + 8)) else .ok t
  | .trap t cause v => .error (.trap t cause v)
  | .halt t cause => .error (.halt t cause)
  | .wait t => .error (.wait t)
  | .jump t _ => .error (.wait t)
  | .done t => .error (.wait t)
  | .after t cause v => .error (.trap t cause v)

/-- The unit of a prefix and the word after it. -/
def prefixUnit (kind : Nat) (w : W32) (i : Nat) (s : State) : Res :=
  match ownTrap i w s with
  | some r => r
  | none =>
    let o := decPlain true w
    if wMajor w = 0x01 || !o.rep then .trap s trPrefix (w.setWidth 64)
    else longSteps i (prefixStep kind o i) (fun s => .jump s ((getCore s i).pc + 8)) (getCore s i).cnt.toNat s

/-- The prefix fetches the word after it; `word` is that word, or what memory holds. -/
def prefixRun (kind : Nat) (word : Option W32) (i : Nat) (s : State) : Res :=
  (fetchAt s i ((getCore s i).pc + 4)).fin (fun s w => prefixUnit kind (word.getD w) i s)

/-- A prefix. -/
def opPrefix (kind : Nat) (word : Option W32) : Op := { foot := {}, run := prefixRun kind word }

/-- The instruction that a word fetched at PC is. -/
def decodeOp (w : W32) : Op :=
  if wMajor w = 0x01 then
    match prefixKind w with
    | some k => opPrefix k none
    | none => opIllegal w
  else decPlain false w

/-! ## Commands -/

/-- REP (R188): the prefix, and w after it. -/
def execRep (c : CoreId) (w : W32) (s : State) : Out := .next (runRow c (opPrefix 0 (some w)) s)
/-- REPZ (R188). -/
def execRepz (c : CoreId) (w : W32) (s : State) : Out := .next (runRow c (opPrefix 1 (some w)) s)
/-- REPNZ (R188). -/
def execRepnz (c : CoreId) (w : W32) (s : State) : Out := .next (runRow c (opPrefix 2 (some w)) s)

/-- ILLEGAL_WORD (R223). -/
def execIllegalWord (c : CoreId) (w : W32) (s : State) : Out :=
  .next (if (decodeOp w).ill then runRow c (opIllegal w) s else s)

end Sys2Proof.Machine
end

