-- ==== Sys2Proof/Machine/Commands.lean ====
section
/-! DEFINITION. Register writes as commands (R15), resuming and stepping cores (R384, R385, R401), margin ports
(R391), fabric ports seen from the cores (R342) and the ends of mesh headers (R244). -/
namespace Sys2Proof.Machine

/-! ## Stepping and resuming (R384) -/

/-- The stepped core takes an event, one instruction or one element; events only with STEPIE. -/
def stepOnce (s : State) (i : Nat) : State :=
  let c := getCore s i
  let stepie := rdB s (i / 32) (R.DCTL (i % 32)) 28
  if !(coreLive s i) then s
  else if stepie && c.micro.isNone && eventDue c then
    if c.watch then watchTrap s i
    else if c.array.isSome then arrayTrap s i
    else if c.memerr.isSome then storeTrap s i
    else preempt s i
  else if !c.busy || c.asleep then s
  else match c.micro with
    | some m => microGoOn s i m
    | none =>
      match fetchAt (boundary s i) i c.pc with
      | .error r => finish (boundary s i) i r
      | .ok (t, w) => beforeFetch t i (decodeOp w) (fun t => finish t i (opRes i (decodeOp w) t))

/-- STEP of a halted core: it halts again with CAUSE 2, its floating-point unit idle (R382, R384). A double trap has
taken it out of service. -/
def runStep (s : State) (i : Nat) : State :=
  let c := getCore s i
  if !c.stepReq || !c.halted then s else
  let s := stepOnce (updCore s i (fun c => { c with halted := false })) i
  let s := updCore s i (fun c => { fpComplete c with stepReq := false })
  if (getCore s i).rstate = .out then s else haltCore s i 2 false

/-- The boot ROM goes on when core 0 has been resumed (R401, step 1 with KEEP). -/
def resumeBoot (s : State) (h : Nat) : State :=
  if bootOf s h = .waitKeep && !(getCore s (32 * h)).halted then step2 s h true else s

/-- What a debugger's write has asked of the cores: steps, and a boot that waits for RESUME. -/
def settleDebugger (s : State) : State :=
  let s := s.cpu.cores.foldl (fun s e => if e.2.stepReq then runStep s e.1 else s) s
  resumeBoot (resumeBoot s 0) 1

/-- CORE_RESUME: DCTL written with RESUME (R384). -/
def execCoreResume (m : Master) (c : CoreId) (v : W32) (s : State) : Out :=
  .next (if live s c.hub.val && mayDebug s m c.hub.val && fld v 30 30 == 1 then
    settleDebugger (writeDctl s (coreIx c) v) else s)

/-- CORE_STEP: DCTL written with STEP (R384). -/
def execCoreStep (m : Master) (c : CoreId) (v : W32) (s : State) : Out :=
  .next (if live s c.hub.val && mayDebug s m c.hub.val && fld v 30 29 == 1 then
    settleDebugger (writeDctl s (coreIx c) v) else s)

/-! ## Register writes (R15) -/

/-- The debug block takes no write of the host (R326). -/
def hostBarred (m : Master) (off : Nat) : Bool :=
  match m with
  | .host _ => decide (0xD00000 ≤ off) && decide (off < 0xE00000)
  | _ => false
/-- A debug master needs FULL to write (R378). -/
def mayPost (s : State) : Master → Bool
  | .debug h p => dbgFull s (.debug h p)
  | _ => true

/-- A 4-byte register write by any master, from where it stands. -/
def postWrite (s : State) (m : Master) (h off : Nat) (v : W32) : State :=
  settleDebugger (csrPost s m ((masterHub m).getD h) h off v)

/-- REGISTER_WRITE (R15, R16, R427, R428). -/
def execRegisterWrite (m : Master) (h : Hub) (off : BitVec 26) (v : W32) (s : State) : Out :=
  .next (if live s ((masterHub m).getD h.val) && !(hostBarred m off.toNat) && mayPost s m && off.toNat % 4 == 0 then
    postWrite s m h.val off.toNat v else s)

/-- MARGIN_PORT_STORE (R391): a store of core c to margin port i of hub h. -/
def execMarginPortStore (c : CoreId) (h : Hub) (i : BitVec 8) (size64 : Bool) (data : W64) (s : State) : Out :=
  .next (if !(serving s c.hub.val) then s
    else if !(csrOk s (.core c) c.hub.val h.val (0xC08000 + 8 * i.toNat)) then csrAbsorb s c.hub.val h.val
    else if marginWaits s (coreIx c) h.val i.toNat then s
    else marginStore s (coreIx c) h.val i.toNat size64 data)

/-- FRAWGO (R350). -/
def execFrawgo (m : Master) (h : Hub) (v : W32) (s : State) : Out :=
  .next (if live s h.val && mayDebug s m h.val then writeFrawgo s (dbgFull s m) h.val v else s)

/-! ## Fabric ports seen from the cores (R342) -/

/-- FABRIC_TARGET_ACCESS: core c, before its instruction, loads to rd from a port's window, or stores `data` there. -/
def execFabricTargetAccess (c : CoreId) (h : Hub) (fp : Fin 8) (write size8 : Bool) (off : BitVec 28) (data : W64)
    (rd : Reg) (s : State) : Out :=
  let i := coreIx c
  let a : W64 := BitVec.ofNat 64 (portAddr h.val fp.val off.toNat)
  let n := if size8 then 8 else 4
  .next (if !(canStep s i) || (getCore s i).fpu.isSome then s
    else finish (boundary s i) i
      (if write then (coreStoreV (boundary s i) i a n data).fin (fun s _ => .next s)
       else (coreLoadV (boundary s i) i a n (some { sx := false, fdst := false, rd := rd, upd := none })).fin (fun s v =>
         .next (updCore s i (fun c => c.setG rd v)))))

/-- A load whose data has come: its register, its base, and the next instruction. -/
def portDone (c : Core) (f : PortFin) (size8 : Bool) (v : W64) : Core :=
  let v := if size8 then v else v.setWidth 32 |>.setWidth 64
  let v := if f.sx then sextN (if size8 then 64 else 32) v.toNat else v
  let c := if f.fdst then c.setFr f.rd v else c.setG f.rd v
  let c := match f.upd with | some (r, x) => c.setG r x | none => c
  { c with pc := c.pc + 4, portWait := false, ports := [] }

/-- The oldest access of a port is answered: with data, or ISOLATED where none comes. -/
def answerTarget (s : State) (h p : Nat) (v : Option W64) : State :=
  match targetsOf s h p with
  | [] => s
  | t :: ts =>
    let s := setTargets s h p ts
    let i := coreIx t.core
    if t.write || !(getCore s i).portWait then s else
    match v, t.fin with
    | some d, some f => updCore s i (fun c => portDone c f t.size8 d)
    | v, _ =>
      let d := v.map (fun d => if t.size8 then d else d.setWidth 32 |>.setWidth 64)
      updCore s i (fun c => { c with portWait := false, ports := c.ports ++ [(portAddr h p t.off.toNat, d)] })

/-- FABRIC_TARGET_RESPONSE: user logic answers the oldest access; a port that no longer is open answers ISOLATED. -/
def execFabricTargetResponse (h : Hub) (fp : Fin 8) (data : W64) (s : State) : Out :=
  .next (if live s h.val then
    answerTarget s h.val fp.val (if portOpen s h.val fp.val then some data else none) else s)

/-- FPORT_TIMEOUT: with TO ≠ 0 the oldest access is answered ISOLATED and counted. -/
def execFportTimeout (h : Hub) (fp : Fin 8) (s : State) : Out :=
  .next (if live s h.val && rdF s h.val (R.FPORT fp.val) 15 0 != 0 && !(targetsOf s h.val fp.val).isEmpty then
    answerTarget (bump s h.val (R.TOCNT fp.val) 31 0 1) h.val fp.val none else s)

/-! ## Mesh headers (R244) -/

/-- MESH_HEADER_CHECK_FAIL: at input d of router r (0 the tile's own port). The sixteenth failure in a row of a
response to a core is CTRLCHK kind 0x1 for its access at `addr`. -/
def execMeshHeaderCheckFail (h : Hub) (r : Tile) (mesh : Fin 8) (d : Fin 5) (again : Bool) (port : Fin 4)
    (addr : BitVec 48) (s : State) : Out :=
  if !(live s h.val) then .next s else
  let n := if again then failRun s h.val r.val mesh.val d.val + 1 else 1
  let t := headerFail s h.val r.val mesh.val d.val again
  .next (if d.val = 0 && 16 ≤ n then
    let t := setFailRun t h.val r.val mesh.val 0 0
    match (List.range 32).find? (fun c => tCore c == r.val && c % 2 == port.val) with
    | some c =>
      let i := 32 * h.val + c
      if canStep t i && (getCore t i).fpu.isNone then
        finish t i (.trap t trCtrlchk (kindValue 1 addr.toNat)) else t
    | none => t
  else t)

end Sys2Proof.Machine
end

