-- ==== Sys2Proof/Machine/Probe.lean ====
section
/-! DEFINITION. The debug master's accesses (R380, R381), request and response frames of the Spaoth port and DBGACC
(R376, R377), and the JTAG instructions. -/
namespace Sys2Proof.Machine

/-! ## Accesses of the debug master (R378, R380, R381) -/

/-- Size 4 or 8, naturally aligned (R380). -/
def dbgAligned (a n : Nat) : Bool := (n == 4 || n == 8) && a % n == 0

/-- A read: status of R377 and data. User logic's answer to a read of a port is a value of its own. -/
def dbgRead (s : State) (h : Nat) (p : DbgPath) (a n : Nat) : State × Nat × W64 :=
  let m := Master.debug (hubFin h) p
  if dbgLevel s h p = 0 then (s, 2, 0) else
  if !(dbgAligned a n) then (s, 5, 0) else
  match region h a with
  | .csr h' off =>
    if 0xD00000 ≤ off && off < 0xE00000 && dbgLevel s h p ≠ 2 then (s, 2, 0) else
    if !(csrOk s m h h' off) then (s, 3, 0) else
    let (s, lo) := csrRead s m h' off
    if n = 4 then (s, 0, lo.setWidth 64) else
    if !(csrOk s m h h' (off + 4)) then (s, 3, 0) else
    let (s, hi) := csrRead s m h' (off + 4)
    (s, 0, cat64 hi lo)
  | .fport h' q _ =>
    if reach s h h' && portOpen s h' q then
      (drawn s, 0, BitVec.ofNat 64 ((Config.freeBits 64 s.fresh).toNat % 2 ^ (8 * n)))
    else (s, 3, 0)
  | .hole => (s, 3, 0)
  | _ =>
    let clean := (dirtyAt s a).isNone
    match (if clean then mrd s h a n else (s, MStat.ok, viewBytes s h a n)) with
    | (s, .ok, b) => (s, 0, BitVec.ofNat 64 (leNat b))
    | (s, .isolated, _) => (s, 3, 0)
    | (s, .uncorr, _) => (s, 4, 0)

/-- A write: status. A posted write to an isolated target is discarded and counted (R249). -/
def dbgWrite (s : State) (h : Nat) (p : DbgPath) (a n : Nat) (v : W64) : State × Nat :=
  let m := Master.debug (hubFin h) p
  if dbgLevel s h p ≠ 2 then (s, 2) else
  if !(dbgAligned a n) then (s, 5) else
  match region h a with
  | .csr h' off =>
    let s := csrPost s m h h' off (lo32 v)
    let s := if n = 4 then s else csrPost s m h h' (off + 4) (hi32 v)
    (settleDebugger s, 0)
  | .fport h' q _ => (if reach s h h' && portOpen s h' q then s else csrAbsorb s h h', 0)
  | .hole => (bump s h R.NISODISC 31 0 1, 0)
  | _ =>
    match mwr s h none a (natLe n (v.toNat % 2 ^ (8 * n))) with
    | (s, .ok) => (s, 0)
    | (s, .isolated) => (bump s h R.NISODISC 31 0 1, 0)
    | (s, .uncorr) => (s, 4)

/-! ## Frames (R377) -/

def frOp (f : BitVec 128) : Nat := fld f 127 124
def frAddr (f : BitVec 128) : Nat := fld f 119 72
def frData (f : BitVec 128) : W64 := BitVec.ofNat 64 (fld f 71 8)
/-- CHK over bits 127 to 8. -/
def frGood (f : BitVec 128) : Bool := (crc8 (natBe 15 (fld f 127 8))).toNat == fld f 7 0

/-- The response frame. -/
def respFrame (status : Nat) (d : W64) : BitVec 80 :=
  let top := status * 2 ^ 68 + d.toNat
  BitVec.ofNat 80 (top * 256 + (crc8 (natBe 9 top)).toNat)

/-- The response waits to be shifted out; a request not answered is gone. -/
def setPresp (s : State) (h : Nat) (r : Option (BitVec 80)) : State :=
  { s with dbg := { s.dbg with presp := tset (fun _ => none) s.dbg.presp h r } }

/-- Word i of the probe path's challenge; reading word 0 draws a new one (assumption 127). -/
def probeChallenge (s : State) (h i : Nat) : State × W64 :=
  let s := if i = 0 || (challengeOf s h .probe).isNone then drawChallenge s h .probe else s
  (s, BitVec.ofNat 64 (leAt (challengeBytes s h .probe) (8 * i) 8))

/-- What the operation of a frame with a good CHK does: status and data. -/
def probeDo (s : State) (h : Nat) (f : BitVec 128) : State × Nat × W64 :=
  if fld f 123 120 ≠ 0 then (s, 5, 0) else
  match frOp f with
  | 0x1 => dbgRead s h .probe (frAddr f) 4
  | 0x2 => dbgRead s h .probe (frAddr f) 8
  | 0x3 => let r := dbgWrite s h .probe (frAddr f) 4 (frData f); (r.1, r.2, 0)
  | 0x4 => let r := dbgWrite s h .probe (frAddr f) 8 (frData f); (r.1, r.2, 0)
  | 0x5 => (s, 0, ((csr s h R.DBGCTL)).setWidth 64)
  | 0x6 => let r := probeChallenge s h (frAddr f % 4); (r.1, 0, r.2)
  | 0x7 => (setAuthWord s h .probe (frAddr f % 16) (frData f), 0, 0)
  | 0x8 =>
    let lvl := fld (frData f) 1 0
    if lvl = 3 then (s, 5, 0) else
    let r := authGo s h .probe lvl
    (r.1, if r.2 then 0 else 6, 0)
  | 0x9 => (revoke s h .probe, 0, 0)
  | _ => (s, 5, 0)

/-- A request frame: a wrong CHK is answered 0x1 and ignored. -/
def probeFrame (s : State) (h : Nat) (f : BitVec 128) : State :=
  if !(frGood f) then setPresp s h (some (respFrame 1 0)) else
  let r := probeDo s h f
  setPresp r.1 h (some (respFrame r.2.1 r.2.2))

/-- A row of the probe: the frame is one of its operations. -/
def probeRow (s : State) (h : Hub) (f : BitVec 128) (ops : List Nat) : Out :=
  .next (if live s h.val && ops.contains (frOp f) then probeFrame s h.val f else s)

/-- PROBE_READ (R377, R380). -/
def execProbeRead (h : Hub) (frame : BitVec 128) (s : State) : Out := probeRow s h frame [1, 2]
/-- PROBE_WRITE (R377, R380). -/
def execProbeWrite (h : Hub) (frame : BitVec 128) (s : State) : Out := probeRow s h frame [3, 4]
/-- PROBE_STATUS (R377). -/
def execProbeStatus (h : Hub) (frame : BitVec 128) (s : State) : Out := probeRow s h frame [5]
/-- PROBE_CHALLENGE (R379). -/
def execProbeChallenge (h : Hub) (frame : BitVec 128) (s : State) : Out := probeRow s h frame [6]
/-- AUTHLOAD (R379). -/
def execAuthload (h : Hub) (frame : BitVec 128) (s : State) : Out := probeRow s h frame [7]
/-- AUTHGO (R379). -/
def execAuthgo (h : Hub) (frame : BitVec 128) (s : State) : Out := probeRow s h frame [8]
/-- PROBE_REVOKE (R378). -/
def execProbeRevoke (h : Hub) (frame : BitVec 128) (s : State) : Out := probeRow s h frame [9]
/-- PROBE_RESERVED_OP (R377): STATUS 0x5. -/
def execProbeReservedOp (h : Hub) (frame : BitVec 128) (s : State) : Out :=
  probeRow s h frame [0, 10, 11, 12, 13, 14, 15]
/-- SP_SEL_DEASSERT (R377): a response that has not been shifted out is abandoned. -/
def execSpSelDeassert (h : Hub) (s : State) : Out := .next (if live s h.val then setPresp s h.val none else s)

/-! ## JTAG (R9, R376) -/

def setIr (s : State) (h : Nat) (ir : Byte) : State :=
  { s with dbg := { s.dbg with ir := tset (fun _ => 0x01) s.dbg.ir h ir } }
/-- IDCODE of the part. -/
def idcode (s : State) : Nat :=
  match s.part with
  | .yq8680 => 0x28680D9D
  | .yq8640 => 0x28640D9D
  | .yq8620 => 0x28620D9D

/-- An instruction that needs FULL; without it it acts as BYPASS. -/
def boundaryIr (s : State) (h : Hub) (ir : Byte) : Out :=
  .next (if !(live s h.val) then s
    else if dbgLevel s h.val .probe = 2 then setIr s h.val ir else reply (setIr s h.val 0xFF) 0 0)

/-- EXTEST (R376). -/
def execExtest (h : Hub) (s : State) : Out := boundaryIr s h 0x00
/-- CLAMP (R376). -/
def execClamp (h : Hub) (s : State) : Out := boundaryIr s h 0x03
/-- HIGHZ (R376). -/
def execHighz (h : Hub) (s : State) : Out := boundaryIr s h 0x04
/-- IDCODE (R9): both TAPs report it. -/
def execIdcode (h : Hub) (s : State) : Out :=
  .next (if live s h.val then reply (setIr s h.val 0x01) 0 (BitVec.ofNat 2048 (idcode s)) else s)
/-- SAMPLE_PRELOAD (R376). -/
def execSamplePreload (h : Hub) (s : State) : Out := .next (if live s h.val then setIr s h.val 0x02 else s)
/-- BYPASS (R376): its one bit captures 0. -/
def execBypass (h : Hub) (s : State) : Out := .next (if live s h.val then reply (setIr s h.val 0xFF) 0 0 else s)

/-- DBGACC (R376, R377): Update-DR issues the frame; the capture is READY and the response. -/
def execDbgacc (h : Hub) (frame : BitVec 128) (s : State) : Out :=
  .next (if live s h.val then
    let s := probeFrame (setIr s h.val 0x20) h.val frame
    let r := (tget (fun _ => none) s.dbg.presp h.val).getD 0
    reply s 0 (BitVec.ofNat 2048 (2 ^ 127 + r.toNat))
  else s)

end Sys2Proof.Machine
end

