-- ==== Sys2Proof/Machine/Mailbox.lean ====
section
/-! DEFINITION. The mailbox (R327 to R331): its slots, the order of its checks, and its commands, those of partitions
and service among them (R354 to R356, R369, R377, R400), and the host's accesses (R326). -/
namespace Sys2Proof.Machine

/-! ## Slots (R327) -/

def stOk : Nat := 0
def stArg : Nat := 1
def stState : Nat := 2
def stBusy : Nat := 3
def stDenied : Nat := 4
def stFault : Nat := 5
def stUnsupported : Nat := 6

/-- The 64 bytes of a command slot. -/
def cmdBytes (s : State) (h slot : Nat) : Bytes :=
  (List.range 16).flatMap (fun k => natLe 4 (csr s h (R.MBCMD slot k)).toNat)

def bellsOf (s : State) (h : Nat) : List Bell := tget (fun _ => []) s.lan.bells h

/-- The 64 bytes of a response: status, tag, results from byte 8, CRC-8. -/
def respBytes (status : Nat) (cmd res : Bytes) : Bytes :=
  let b := natLe 2 status ++ sub cmd 2 2 ++ zeros 4 ++ sub res 0 55
  b ++ [crc8 b.reverse]

/-- The command of the front slot completes: the response is written, MBDONE set, and an endpoint sends MSI-X. -/
def complete (s : State) (h slot status : Nat) (res : Bytes) : State :=
  let b := respBytes status (cmdBytes s h slot) res
  let s := (List.range 16).foldl (fun s k => setCsr s h (R.MBRSP slot k) (BitVec.ofNat 32 (leAt b (4 * k) 4))) s
  let s := wrB (wrB s h R.MBDONE slot true) h R.MBDB slot false
  let n := tget (fun _ => 0) s.lan.msix h
  { s with lan := { s.lan with
    bells := tset (fun _ => []) s.lan.bells h ((bellsOf s h).filter (fun x => x.slot != slot))
    msix := if rdB s h R.PCICFG 31 && !(rdB s h R.PCICFG 30) then tset (fun _ => 0) s.lan.msix h (n + 1) else s.lan.msix } }

/-- The slot under whose number a load keeps its mailbox command: 8 × hub of the mailbox + slot. -/
def loadSlot (h slot : Nat) : Nat := 8 * h + slot
/-- The command of this slot has started a load that has not ended. -/
def loadRuns (s : State) (h slot : Nat) : Bool :=
  (List.range 2).any (fun j =>
    (match mcLoadOf s j with | some l => l.slot == some (loadSlot h slot) | none => false) ||
    (match loadOf s j with | some l => l.2 == some (loadSlot h slot) | none => false))
/-- Answer the command that began a load. -/
def loadEnds (s : State) (slot : Option Nat) (status : Nat) (res : Bytes) : State :=
  match slot with
  | some n => if (bellsOf s (n / 8)).any (fun x => x.slot == n % 8) then complete s (n / 8) (n % 8) status res else s
  | none => s

/-! ## Checks in order (R328, R329) -/

/-- What a command's own rules say of it. -/
structure MbChk where
  unsup  : Bool := false
  denied : Bool := false
  arg    : Bool := false
  /-- the code of the state that refuses it -/
  state  : Option W64 := none
  /-- free values that the code has used -/
  spent  : Nat := 0
  busy   : Bool := false
  /-- legal before hand-off (R401) -/
  early  : Bool := false

/-- How a command that passes its checks ends: the response, or later, when its load ends, or not yet. -/
inductive MbEnd where
  | now (s : State) (status : Nat) (res : Bytes)
  | later (s : State)

/-- A refusal by state: one EV_CMD_STATE, and the code in bytes 8 to 15 (R329). -/
def refuseState (s : State) (h : Nat) (x : Bell) (op : Nat) (code : W64) : State :=
  let s := journal s h evCmdState false x.part (detail [(16, 1, op), (17, 1, x.slot), (23, 8, code.toNat)])
  complete s h x.slot stState (natLe 8 code.toNat)

/-- The state that refuses every command: 1 from the start of a stroke, 2 before hand-off (R304, R401). -/
def commonState (s : State) (h : Nat) (early : Bool) : Option W64 :=
  if strokeOf s h ≠ .none then some 1 else if bootOf s h ≠ .done && !early then some 2 else none

/-- The results of a command that met a fault are undefined. -/
def faulted (s : State) : MbEnd :=
  .now (drawn s) stFault (natLe 55 (Config.freeBits 440 s.fresh).toNat)

/-- The command at the front of the queue of hub h's mailbox, in slot `slot`. -/
def frontBell (s : State) (h slot : Nat) : Option Bell :=
  match bellsOf s h with
  | x :: _ => if x.slot = slot && !(loadRuns s h slot) then some x else none
  | [] => none

/-- A state code of PART and SVC, 0 for none. -/
def codeOf (n : Nat) : Option W64 := if n = 0 then none else some (BitVec.ofNat 64 n)

/-- Execute the front command, when `mine` says that it is the row's: checks 1 to 6, then its action. -/
def mbRow (s : State) (h : Hub) (slot : Fin 8) (mine : Bytes → Bool) (chk : State → Bell → Bytes → MbChk)
    (go : State → Bell → Bytes → MbEnd) : State :=
  let h := h.val
  if !(live s h) then s else
  match frontBell s h slot.val with
  | none => s
  | some x =>
    let b := cmdBytes s h x.slot
    if !(mine b) then s else
    let op := (byteAt b 0).toNat
    if byteAt b 63 ≠ crc8 (b.take 63).reverse then
      complete (journal s h evCtrlCheck false x.part (detail [(16, 1, 8), (17, 1, stArg)])) h x.slot stArg []
    else
      let k := chk s x b
      if k.unsup then complete s h x.slot stUnsupported []
      else if k.denied then complete s h x.slot stDenied []
      else if k.arg then complete s h x.slot stArg []
      else
        match commonState s h k.early, k.state with
        | some code, _ => refuseState s h x op code
        | none, some code => refuseState { s with fresh := s.fresh + k.spent } h x op code
        | none, none =>
          if k.busy then complete s h x.slot stBusy []
          else match go s x b with
            | .now s st res => complete s h x.slot st res
            | .later s => s

def opIs (n : Nat) (b : Bytes) : Bool := (byteAt b 0).toNat == n
def subIs (n i k : Nat) (b : Bytes) : Bool := opIs n b && (byteAt b i).toNat == k
/-- Every argument byte outside the named ranges is 0 (R331). -/
def argsClean (b : Bytes) (named : List (Nat × Nat)) : Bool :=
  (List.range 55).all (fun k => byteAt b (8 + k) == 0 || named.any (fun r => decide (r.1 ≤ 8 + k) && decide (8 + k < r.1 + r.2)))
/-- A hub number of the part. -/
def hubArg (s : State) (n : Nat) : Bool := decide (n < 2) && hubOk s n
/-- Bytes 8 to 15 hold an address in main memory, 64-byte aligned. -/
def imageArg (a : Nat) : Bool := a % 64 == 0 && decide (a < mainTop)

/-! ## Registers and identity -/

/-- IDENT (R331). -/
def mbIdent (s : State) (h : Hub) (slot : Fin 8) : State :=
  mbRow s h slot (opIs 0x01) (fun _ _ b => { arg := !(argsClean b []), early := true }) (fun s _ _ =>
    let w (j off : Nat) : Bytes := natLe 4 (if hubOk s j then (csr s j off).toNat else 0)
    .now s stOk (w 0 R.IDENT ++ w 0 R.CONFIG ++ w 1 R.IDENT ++ w 1 R.CONFIG ++ natLe 8 s.boot.serial.toNat))

/-- Offset, hub and size of CSRRD and CSRWR. -/
def csrArgs (b : Bytes) : Bool :=
  let off := leAt b 8 4
  let n := leAt b 13 1
  (n == 4 || n == 8) && off % n == 0 && decide (off < 0x4000000) && decide (leAt b 12 1 < 2)

/-- CSRRD (R330). -/
def mbCsrrd (s : State) (h : Hub) (slot : Fin 8) : State :=
  mbRow s h slot (opIs 0x02) (fun _ _ b => { arg := !(csrArgs b), early := true }) (fun s x b =>
    let m := Master.mailbox ⟨x.part % 8, Nat.mod_lt _ (by decide)⟩
    let off := leAt b 8 4
    let j := leAt b 12 1
    let n := leAt b 13 1
    if !(csrOk s m h.val j off) then faulted s else
    let (s, lo) := csrRead s m j off
    if n = 4 then .now s stOk (natLe 4 lo.toNat) else
    if !(csrOk s m h.val j (off + 4)) then faulted s else
    let (s, hi) := csrRead s m j (off + 4)
    .now s stOk (natLe 8 (cat64 hi lo).toNat))

/-- CSRWR (R330). -/
def mbCsrwr (s : State) (h : Hub) (slot : Fin 8) : State :=
  mbRow s h slot (opIs 0x03) (fun _ _ b => { arg := !(csrArgs b) }) (fun s x b =>
    let m := Master.mailbox ⟨x.part % 8, Nat.mod_lt _ (by decide)⟩
    let off := leAt b 8 4
    let j := leAt b 12 1
    let v : W64 := BitVec.ofNat 64 (leAt b 16 8)
    if !(csrOk s m h.val j off) then faulted s else
    let s := csrStore s m j off (lo32 v)
    .now (if leAt b 13 1 = 4 then s else csrPost s m h.val j (off + 4) (hi32 v)) stOk [])

/-! ## Partitions and service (R354, R355) -/

/-- PART with operation `op`. -/
def mbPart (s : State) (h : Hub) (slot : Fin 8) (op : Nat) : State :=
  mbRow s h slot (subIs 0x10 9 op) (fun s x b =>
    let p := leAt b 8 1
    let j := leAt b 11 1
    { denied := x.part != 0
      arg := decide (8 ≤ p) || decide (2 ≤ leAt b 10 1) || (decide (3 ≤ op) && !(hubArg s j))
      state := codeOf (partCode s op p j (BitVec.ofNat 32 (if op = 3 then leAt b 12 4 else leAt b 16 1 % 16))) })
    (fun s _ b => .now (partDo s op (leAt b 8 1) (leAt b 11 1) (leAt b 10 1)
      (BitVec.ofNat 32 (if op = 3 then leAt b 12 4 else leAt b 16 1 % 16))) stOk [])

/-- SVC with operation `op`. -/
def mbSvc (s : State) (h : Hub) (slot : Fin 8) (op : Nat) : State :=
  mbRow s h slot (subIs 0x11 8 op) (fun s x b =>
    let j := leAt b 9 1
    let i := leAt b 10 1
    { unsup := op == 11 && !(hubOk s 1), denied := x.part != 0
      arg := decide (2 ≤ j) || !(svcPresent s op j i)
      state := codeOf (svcCode s h.val op j i (leAt b 11 1) ((byteAt b 12).getLsbD 1)) })
    (fun s _ b => .now (svcStart s h op (leAt b 9 1) (leAt b 10 1) (leAt b 11 1) ((byteAt b 12).getLsbD 1)
      (if (byteAt b 12).getLsbD 0 then some (BitVec.ofNat 64 (leAt b 16 8)) else none)) stOk [])

/-- JOURNAL (R369). -/
def mbJournal (s : State) (h : Hub) (slot : Fin 8) : State :=
  mbRow s h slot (opIs 0x12) (fun _ _ _ => {}) (fun s _ _ =>
    .now s stOk (natLe 8 (base48 s h.val R.JBASELO R.JBASEHI) ++ natLe 4 (rdF s h.val R.JCTL 19 0) ++
      natLe 4 (csr s h.val R.JWR).toNat))

/-! ## Boot and loads (R331, R400, R401) -/

/-- The host's image is awaited: BOOTSEL 0b01, or 0b11 after the flash image has failed. -/
def awaitsHost (s : State) : Bool :=
  (List.range 2).any (fun h => live s h && bootOf s h == .waitImage) &&
  (bootSrc s == 1 || (bootSrc s == 3 && rdB s 0 R.BOOTSTAT 19))

/-- BOOT: the image as the endpoint has read it from the host; the verdict is BOOTSTAT.ERROR. Which state code a
BOOT at another time is given, the spec does not say. -/
def mbBoot (s : State) (h : Hub) (slot : Fin 8) (image : Bytes) : State :=
  mbRow s h slot (opIs 0x20)
    (fun s _ _ => { early := true, state := if awaitsHost s then none else some (Config.freeBits 64 s.fresh), spent := 1 })
    (fun s _ b =>
      let s := bootTake s (some (image.take (leAt b 16 4)))
      .now s stOk (natLe 1 (rdF s h.val R.BOOTSTAT 27 24)))

/-- MCLOAD (R331). -/
def mbMcload (s : State) (h : Hub) (slot : Fin 8) : State :=
  mbRow s h slot (opIs 0x21) (fun s x b =>
    let j := leAt b 16 1
    let mask := leAt b 20 4
    { denied := x.part != 0
      arg := !(argsClean b [(8, 8), (16, 1), (20, 4)]) || !(imageArg (leAt b 8 8)) || !(hubArg s j)
      state := if (mcCores j (BitVec.ofNat 32 mask)).all (fun i => (getCore s i).rstate == .out) then none else some 2
      busy := rdB s j R.MCSTART 30 })
    (fun s _ b => .later (startMc s (leAt b 16 1) (BitVec.ofNat 48 (leAt b 8 8)) (BitVec.ofNat 32 (leAt b 20 4))
      (some (loadSlot h.val slot.val))))

/-- FABLOAD (R331). -/
def mbFabload (s : State) (h : Hub) (slot : Fin 8) : State :=
  mbRow s h slot (opIs 0x22) (fun s x b =>
    let j := leAt b 16 1
    { denied := x.part != 0
      arg := !(argsClean b [(8, 8), (16, 1)]) || !(imageArg (leAt b 8 8)) || !(hubArg s j)
      state := if fabricFenced s j || fabricOff s j then some 2 else none
      busy := rdB s j R.FLOAD 30 })
    (fun s _ b => .later (startLoad s (leAt b 16 1) (BitVec.ofNat 48 (leAt b 8 8)) (some (loadSlot h.val slot.val))))

/-- MICROCODE_LOAD_DONE (R237): the mailbox command that began the load is answered. -/
def execMicrocodeLoadDone (h : Hub) (s : State) : Out :=
  .next (if !(live s h.val) || (mcLoadOf s h.val).isNone then s else
    let r := mcDone s h.val
    if r.2.2 = 7 then
      loadEnds (drawn r.1) r.2.1 stFault (natLe 55 (Config.freeBits 440 r.1.fresh).toNat)
    else loadEnds r.1 r.2.1 stOk (natLe 1 r.2.2))

/-- A fabric load that has ended is answered with its status. -/
def fabricAnswer (s t : State) (h : Nat) : State :=
  match loadOf s h, loadOf t h with
  | some (_, slot), none =>
    let st := rdF t h R.FLOAD 3 0
    if st = 7 then loadEnds (drawn t) slot stFault (natLe 55 (Config.freeBits 440 t.fresh).toNat)
    else loadEnds t slot stOk (natLe 1 st)
  | _, _ => t

/-- FABRIC_FIRST_PASS_DONE (R346). -/
def execFabricFirstPassDone (h : Hub) (s : State) : Out :=
  .next (if live s h.val then fabricAnswer s (firstPass s h.val) h.val else s)

/-- FABRIC_LOAD_DONE (R347). -/
def execFabricLoadDone (h : Hub) (s : State) : Out :=
  .next (if live s h.val then fabricAnswer s (secondPass s h.val) h.val else s)

/-! ## Evidence, tokens -/

/-- CHOPREQ (R331): the request is read in the named hub's view. -/
def mbChopreq (s : State) (h : Hub) (slot : Fin 8) : State :=
  let req (s : State) (b : Bytes) : State × MStat × Bytes := mrd s (leAt b 16 1) (leAt b 8 8) 64
  mbRow s h slot (opIs 0x30) (fun s x b =>
    { arg := !(argsClean b [(8, 8), (16, 1)]) || !(hubArg s (leAt b 16 1)) || !(decide (leAt b 8 8 + 64 ≤ mainTop))
      busy := match req s b with
        | (t, .ok, q) => (chopStatus t (leAt b 16 1) x.part q).2.1 == 0 && chopFull t (leAt b 16 1) q
        | _ => false })
    (fun s x b =>
      match req s b with
      | (s, .ok, q) =>
        let j := leAt b 16 1
        let r := chopStatus s j x.part q
        let t := if r.2.1 = 0 then chopAccept r.1 j x.part q else r.1
        .now t stOk (natLe 1 r.2.1 ++ natLe 1 r.2.2)
      | (s, _, _) => faulted s)

/-- SEALST (R331). -/
def mbSealst (s : State) (h : Hub) (slot : Fin 8) : State :=
  mbRow s h slot (opIs 0x31) (fun s _ b =>
    { arg := !(argsClean b [(8, 2), (10, 1)]) || !(hubArg s (leAt b 10 1)) || decide (1024 ≤ leAt b 8 2) })
    (fun s x b => .now s stOk (natLe 8 (sealqValue s (leAt b 10 1) x.part (leAt b 8 2)).toNat))

/-- STROKE (R331): the response is written, and the stroke then starts. -/
def mbStroke (s : State) (h : Hub) (slot : Fin 8) : State :=
  mbRow s h slot (opIs 0x32) (fun _ x b =>
    { denied := x.part != 0, arg := !(argsClean b [(8, 1)]) || leAt b 8 1 != 0x5A })
    (fun s _ _ => .later (startStroke (complete s h.val slot.val stOk []) 3))

/-- The token of a TOKEN command. -/
def mbTok (b : Bytes) (part : Nat) : Tok :=
  mkTok (BitVec.ofNat 64 (leAt b 8 8)) (BitVec.ofNat 64 (leAt b 16 8)) (leAt b 24 1) .mailbox part

/-- TOKEN (R331): it completes once the token has entered the path of its hub, and waits while the path is blocked. -/
def mbToken (s : State) (h : Hub) (slot : Fin 8) : State :=
  mbRow s h slot (opIs 0x40) (fun s _ b =>
    { arg := !(argsClean b [(8, 8), (16, 8), (24, 1)]) || !(hubArg s (leAt b 24 1)) })
    (fun s x b =>
      let t := mbTok b x.part
      if reach s h.val t.dst.val && !(pathAccepts s t.dst.val t) then .later (settle s t.dst.val)
      else .now (inject s h.val t) stOk (natLe 1 0))

/-! ## Debug authentication and access (R377 to R381) -/

/-- DBGAUTH sub-op `k`: `arg` and the action. -/
def mbDbg (s : State) (h : Hub) (slot : Fin 8) (k : Nat) (arg : Bytes → Bool) (go : State → Bytes → MbEnd) : State :=
  mbRow s h slot (subIs 0x50 8 k) (fun _ _ b => { arg := arg b, early := true }) (fun s _ b => go s b)

/-- The status that a STATUS of R377 becomes. -/
def dbgEnd (s : State) (status : Nat) (res : Bytes) : MbEnd :=
  match status with
  | 0 => .now s stOk res
  | 2 => .now s stDenied []
  | 5 => .now s stArg []
  | 6 => .now s stDenied []
  | _ => faulted s

def dbgArgs (b : Bytes) : Bool := !(leAt b 24 1 == 4 || leAt b 24 1 == 8)

/-- DBGAUTH_CHALLENGE. -/
def mbDbgChallenge (s : State) (h : Hub) (slot : Fin 8) : State :=
  mbDbg s h slot 1 (fun _ => false) (fun s _ =>
    let s := drawChallenge s h.val .host
    .now s stOk (challengeBytes s h.val .host))
/-- DBGAUTH_LOAD: one quarter of the buffer. -/
def mbDbgLoad (s : State) (h : Hub) (slot : Fin 8) : State :=
  mbDbg s h slot 2 (fun b => decide (4 ≤ leAt b 9 1)) (fun s b =>
    .now ((List.range 4).foldl (fun s k =>
      setAuthWord s h.val .host (4 * leAt b 9 1 + k) (BitVec.ofNat 64 (leAt b (16 + 8 * k) 8))) s) stOk [])
/-- DBGAUTH_GO. -/
def mbDbgGo (s : State) (h : Hub) (slot : Fin 8) : State :=
  mbDbg s h slot 3 (fun b => decide (3 ≤ leAt b 9 1)) (fun s b =>
    let r := authGo s h.val .host (leAt b 9 1)
    dbgEnd r.1 (if r.2 then 0 else 6) [])
/-- DBGAUTH_REVOKE. -/
def mbDbgRevoke (s : State) (h : Hub) (slot : Fin 8) : State :=
  mbDbg s h slot 4 (fun _ => false) (fun s _ => .now (revoke s h.val .host) stOk [])
/-- DBGAUTH_READ: the data come where a write takes them, bytes 32 to 39. -/
def mbDbgRead (s : State) (h : Hub) (slot : Fin 8) : State :=
  mbDbg s h slot 5 dbgArgs (fun s b =>
    let r := dbgRead s h.val .host (leAt b 16 8) (leAt b 24 1)
    dbgEnd r.1 r.2.1 (zeros 24 ++ natLe 8 r.2.2.toNat))
/-- DBGAUTH_WRITE. -/
def mbDbgWrite (s : State) (h : Hub) (slot : Fin 8) : State :=
  mbDbg s h slot 6 dbgArgs (fun s b =>
    let r := dbgWrite s h.val .host (leAt b 16 8) (leAt b 24 1) (BitVec.ofNat 64 (leAt b 32 8))
    dbgEnd r.1 r.2 [])

/-! ## What no row above names -/

/-- Opcodes that R330 assigns. -/
def mbAssigned (n : Nat) : Bool :=
  [0x01, 0x02, 0x03, 0x10, 0x11, 0x12, 0x20, 0x21, 0x22, 0x30, 0x31, 0x32, 0x40, 0x50].contains n
/-- PART, SVC or DBGAUTH with an operation that it does not have. -/
def mbBadOp (b : Bytes) : Bool :=
  match (byteAt b 0).toNat with
  | 0x10 => !(decide (1 ≤ leAt b 9 1) && decide (leAt b 9 1 ≤ 4))
  | 0x11 => !(decide (1 ≤ leAt b 8 1) && decide (leAt b 8 1 ≤ 11))
  | 0x50 => !(decide (1 ≤ leAt b 8 1) && decide (leAt b 8 1 ≤ 6))
  | _ => false
/-- An unassigned opcode: ST_UNSUPPORTED; an operation that its command lacks: ST_ARG (R330, R354, R355, R377). -/
def mbUnassigned (s : State) (h : Hub) (slot : Fin 8) : State :=
  mbRow s h slot (fun b => !(mbAssigned (byteAt b 0).toNat) || mbBadOp b)
    (fun _ x b => { unsup := !(mbAssigned (byteAt b 0).toNat),
                    denied := x.part != 0 && (opIs 0x10 b || opIs 0x11 b), arg := true })
    (fun s _ _ => .now s stOk [])

/-! ## Commands -/

/-- IDENT (R331). -/
def execIdent (h : Hub) (slot : Fin 8) (s : State) : Out := .next (mbIdent s h slot)
/-- CSRRD (R330). -/
def execCsrrd (h : Hub) (slot : Fin 8) (s : State) : Out := .next (mbCsrrd s h slot)
/-- CSRWR (R330). -/
def execCsrwr (h : Hub) (slot : Fin 8) (s : State) : Out := .next (mbCsrwr s h slot)
/-- PART_CREATE (R354). -/
def execPartCreate (h : Hub) (slot : Fin 8) (s : State) : Out := .next (mbPart s h slot 1)
/-- PART_DELETE (R354). -/
def execPartDelete (h : Hub) (slot : Fin 8) (s : State) : Out := .next (mbPart s h slot 2)
/-- PART_ASSIGNCORES (R354). -/
def execPartAssigncores (h : Hub) (slot : Fin 8) (s : State) : Out := .next (mbPart s h slot 3)
/-- PART_ASSIGNCH (R354). -/
def execPartAssignch (h : Hub) (slot : Fin 8) (s : State) : Out := .next (mbPart s h slot 4)
/-- EVAC (R355, R357). -/
def execEvac (h : Hub) (slot : Fin 8) (s : State) : Out := .next (mbSvc s h slot 1)
/-- TEST (R355, R358). -/
def execTest (h : Hub) (slot : Fin 8) (s : State) : Out := .next (mbSvc s h slot 2)
/-- RETURN_SHEET (R355, R358). -/
def execReturnSheet (h : Hub) (slot : Fin 8) (s : State) : Out := .next (mbSvc s h slot 3)
/-- RETIRE (R355). -/
def execRetire (h : Hub) (slot : Fin 8) (s : State) : Out := .next (mbSvc s h slot 4)
/-- DRAIN (R355, R360). -/
def execDrain (h : Hub) (slot : Fin 8) (s : State) : Out := .next (mbSvc s h slot 5)
/-- RETURN_CORE (R355, R360). -/
def execReturnCore (h : Hub) (slot : Fin 8) (s : State) : Out := .next (mbSvc s h slot 6)
/-- DIEOFF (R355, R359). -/
def execDieoff (h : Hub) (slot : Fin 8) (s : State) : Out := .next (mbSvc s h slot 7)
/-- DIEON (R355, R359). -/
def execDieon (h : Hub) (slot : Fin 8) (s : State) : Out := .next (mbSvc s h slot 8)
/-- CHRETIRE (R355, R361). -/
def execChretire (h : Hub) (slot : Fin 8) (s : State) : Out := .next (mbSvc s h slot 9)
/-- CHRETURN (R355, R361). -/
def execChreturn (h : Hub) (slot : Fin 8) (s : State) : Out := .next (mbSvc s h slot 10)
/-- TAKEOVER (R355, R363). -/
def execTakeover (h : Hub) (slot : Fin 8) (s : State) : Out := .next (mbSvc s h slot 11)
/-- JOURNAL (R369). -/
def execJournal (h : Hub) (slot : Fin 8) (s : State) : Out := .next (mbJournal s h slot)
/-- BOOT (R400). -/
def execBoot (h : Hub) (slot : Fin 8) (image : Bytes) (s : State) : Out := .next (mbBoot s h slot image)
/-- MCLOAD (R331). -/
def execMcload (h : Hub) (slot : Fin 8) (s : State) : Out := .next (mbMcload s h slot)
/-- FABLOAD (R331). -/
def execFabload (h : Hub) (slot : Fin 8) (s : State) : Out := .next (mbFabload s h slot)
/-- CHOPREQ (R331). -/
def execChopreq (h : Hub) (slot : Fin 8) (s : State) : Out := .next (mbChopreq s h slot)
/-- SEALST (R331). -/
def execSealst (h : Hub) (slot : Fin 8) (s : State) : Out := .next (mbSealst s h slot)
/-- STROKE (R331). -/
def execStroke (h : Hub) (slot : Fin 8) (s : State) : Out := .next (mbStroke s h slot)
/-- TOKEN (R331). -/
def execToken (h : Hub) (slot : Fin 8) (s : State) : Out := .next (mbToken s h slot)
/-- DBGAUTH_CHALLENGE (R379). -/
def execDbgauthChallenge (h : Hub) (slot : Fin 8) (s : State) : Out := .next (mbDbgChallenge s h slot)
/-- DBGAUTH_LOAD (R379). -/
def execDbgauthLoad (h : Hub) (slot : Fin 8) (s : State) : Out := .next (mbDbgLoad s h slot)
/-- DBGAUTH_GO (R379). -/
def execDbgauthGo (h : Hub) (slot : Fin 8) (s : State) : Out := .next (mbDbgGo s h slot)
/-- DBGAUTH_REVOKE (R378). -/
def execDbgauthRevoke (h : Hub) (slot : Fin 8) (s : State) : Out := .next (mbDbgRevoke s h slot)
/-- DBGAUTH_READ (R377). -/
def execDbgauthRead (h : Hub) (slot : Fin 8) (s : State) : Out := .next (mbDbgRead s h slot)
/-- DBGAUTH_WRITE (R377). -/
def execDbgauthWrite (h : Hub) (slot : Fin 8) (s : State) : Out := .next (mbDbgWrite s h slot)
/-- MAILBOX_UNASSIGNED_OPCODE (R330). -/
def execMailboxUnassignedOpcode (h : Hub) (slot : Fin 8) (s : State) : Out := .next (mbUnassigned s h slot)

/-! ## The host's own accesses (R326) -/

/-- HOST_ACCESS: the endpoint's host reads or writes BAR0, the registers of its hub; status 1 is Unsupported Request. -/
def execHostAccess (h : Hub) (write : Bool) (size : BitVec 4) (off : BitVec 26) (data : W64) (s : State) : Out :=
  let j := h.val
  let m := Master.host h
  let n := size.toNat
  let o := off.toNat
  if !(live s j) || rdB s j R.PCICFG 30 || !(portUp s j 0) then .next s else
  if !(n == 4 || n == 8) || o % n ≠ 0 || hostBarred m o then .next (reply s 1 0) else
  if write then
    let s := csrPost s m j j o (lo32 data)
    .next (reply (if n = 4 then s else csrPost s m j j (o + 4) (hi32 data)) 0 0)
  else if !(csrOk s m j j o) then .next (reply s 1 0) else
    let r := csrRead s m j o
    if n = 4 then .next (reply r.1 0 (r.2.setWidth 2048)) else
    if !(csrOk r.1 m j j (o + 4)) then .next (reply r.1 1 0) else
    let q := csrRead r.1 m j (o + 4)
    .next (reply q.1 0 ((cat64 q.2 r.2).setWidth 2048))

end Sys2Proof.Machine
end

