-- ==== Sys2Proof/Machine/Dispatch.lean ====
section
/-! DEFINITION. One arm for each command: a direct call of its meaning. -/
namespace Sys2Proof.Machine

def exec (i : Instr) (s : State) : Host.Outcome State Fault Refusal :=
  match i with
  | .porNAssert kept => Sys2Proof.Machine.execPorNAssert kept s
  | .porNRelease sel => Sys2Proof.Machine.execPorNRelease sel s
  | .warmNAssert => Sys2Proof.Machine.execWarmNAssert s
  | .warmNRelease sel => Sys2Proof.Machine.execWarmNRelease sel s
  | .nvmeReadyTimeout h t => Sys2Proof.Machine.execNvmeReadyTimeout h t s
  | .bootctlGo m h v => Sys2Proof.Machine.execBootctlGo m h v s
  | .fuseProgram m h v => Sys2Proof.Machine.execFuseProgram m h v s
  | .fuseProgramDone h ok => Sys2Proof.Machine.execFuseProgramDone h ok s
  | .vauxPowerUp => Sys2Proof.Machine.execVauxPowerUp s
  | .supplyRemoval vaux => Sys2Proof.Machine.execSupplyRemoval vaux s
  | .refclkStop h => Sys2Proof.Machine.execRefclkStop h s
  | .pcapNChange h low => Sys2Proof.Machine.execPcapNChange h low s
  | .divisionChange h => Sys2Proof.Machine.execDivisionChange h s
  | .pwrctlWrite m h v => Sys2Proof.Machine.execPwrctlWrite m h v s
  | .temperatureSample h d k raw => Sys2Proof.Machine.execTemperatureSample h d k raw s
  | .registerWrite m h off v => Sys2Proof.Machine.execRegisterWrite m h off v s
  | .rulingAdvance h => Sys2Proof.Machine.execRulingAdvance h s
  | .markTokenEmit h => Sys2Proof.Machine.execMarkTokenEmit h s
  | .pinEdge h k level => Sys2Proof.Machine.execPinEdge h k level s
  | .debounceExpiry h k => Sys2Proof.Machine.execDebounceExpiry h k s
  | .ptpstepWrite m h v => Sys2Proof.Machine.execPtpstepWrite m h v s
  | .ptpHoldEnd h => Sys2Proof.Machine.execPtpHoldEnd h s
  | .rfevtLineEvent h fp r => Sys2Proof.Machine.execRfevtLineEvent h fp r s
  | .rfevtFrameEvent h fp r => Sys2Proof.Machine.execRfevtFrameEvent h fp r s
  | .rcfgWrite m h r v => Sys2Proof.Machine.execRcfgWrite m h r v s
  | .rfmtWrite m h r v => Sys2Proof.Machine.execRfmtWrite m h r v s
  | .rposLoRead m h r => Sys2Proof.Machine.execRposLoRead m h r s
  | .lossWindowClose h n => Sys2Proof.Machine.execLossWindowClose h n s
  | .lossTokenEmit h n => Sys2Proof.Machine.execLossTokenEmit h n s
  | .coreWatchdogExpiry c => Sys2Proof.Machine.execCoreWatchdogExpiry c s
  | .deviceWatchdogExpiry h => Sys2Proof.Machine.execDeviceWatchdogExpiry h s
  | .wdkickWrite m h w v => Sys2Proof.Machine.execWdkickWrite m h w v s
  | .wdloadWrite m h w v => Sys2Proof.Machine.execWdloadWrite m h w v s
  | .syncNop g => Sys2Proof.Machine.execSyncNop g s
  | .gsync g => Sys2Proof.Machine.execGsync g s
  | .bitWord g => Sys2Proof.Machine.execBitWord g s
  | .fieldMov g => Sys2Proof.Machine.execFieldMov g s
  | .fieldNot g => Sys2Proof.Machine.execFieldNot g s
  | .fieldAnd g => Sys2Proof.Machine.execFieldAnd g s
  | .fieldOr g => Sys2Proof.Machine.execFieldOr g s
  | .fieldXor g => Sys2Proof.Machine.execFieldXor g s
  | .fieldAdd g => Sys2Proof.Machine.execFieldAdd g s
  | .fieldAddc g => Sys2Proof.Machine.execFieldAddc g s
  | .fieldSub g => Sys2Proof.Machine.execFieldSub g s
  | .fieldCmpeq g => Sys2Proof.Machine.execFieldCmpeq g s
  | .fieldCmplt g => Sys2Proof.Machine.execFieldCmplt g s
  | .fieldAbsdiff g => Sys2Proof.Machine.execFieldAbsdiff g s
  | .fieldMin g => Sys2Proof.Machine.execFieldMin g s
  | .fieldMax g => Sys2Proof.Machine.execFieldMax g s
  | .fieldMul g => Sys2Proof.Machine.execFieldMul g s
  | .fieldMulacc g => Sys2Proof.Machine.execFieldMulacc g s
  | .fieldShl g => Sys2Proof.Machine.execFieldShl g s
  | .fieldPopcnt g => Sys2Proof.Machine.execFieldPopcnt g s
  | .lineIn g => Sys2Proof.Machine.execLineIn g s
  | .lineOut g => Sys2Proof.Machine.execLineOut g s
  | .inRun sh => Sys2Proof.Machine.execInRun sh s
  | .outRun sh => Sys2Proof.Machine.execOutRun sh s
  | .btok g => Sys2Proof.Machine.execBtok g s
  | .bplane g => Sys2Proof.Machine.execBplane g s
  | .finderResult g => Sys2Proof.Machine.execFinderResult g s
  | .blotToken g => Sys2Proof.Machine.execBlotToken g s
  | .mset g => Sys2Proof.Machine.execMset g s
  | .mand g => Sys2Proof.Machine.execMand g s
  | .mor g => Sys2Proof.Machine.execMor g s
  | .mpush g => Sys2Proof.Machine.execMpush g s
  | .mpop g => Sys2Proof.Machine.execMpop g s
  | .mall g => Sys2Proof.Machine.execMall g s
  | .mclrf g => Sys2Proof.Machine.execMclrf g s
  | .msave g => Sys2Proof.Machine.execMsave g s
  | .loop g => Sys2Proof.Machine.execLoop g s
  | .skipb g => Sys2Proof.Machine.execSkipb g s
  | .breakb g => Sys2Proof.Machine.execBreakb g s
  | .waitb g => Sys2Proof.Machine.execWaitb g s
  | .waitlp g => Sys2Proof.Machine.execWaitlp g s
  | .kend g => Sys2Proof.Machine.execKend g s
  | .completionToken g => Sys2Proof.Machine.execCompletionToken g s
  | .gangChangeEffect g => Sys2Proof.Machine.execGangChangeEffect g s
  | .sheetWake sh => Sys2Proof.Machine.execSheetWake sh s
  | .clearComplete sh => Sys2Proof.Machine.execClearComplete sh s
  | .sheetPowerOff sh => Sys2Proof.Machine.execSheetPowerOff sh s
  | .clrfault m sh v => Sys2Proof.Machine.execClrfault m sh v s
  | .clrplanes m sh v => Sys2Proof.Machine.execClrplanes m sh v s
  | .bistComplete sh logicf bad => Sys2Proof.Machine.execBistComplete sh logicf bad s
  | .scrubStep h u => Sys2Proof.Machine.execScrubStep h u s
  | .arrayTrap c => Sys2Proof.Machine.execArrayTrap c s
  | .watchTrap c => Sys2Proof.Machine.execWatchTrap c s
  | .storeMemerr c => Sys2Proof.Machine.execStoreMemerr c s
  | .dispatchInterrupt c => Sys2Proof.Machine.execDispatchInterrupt c s
  | .preemptionInterrupt c => Sys2Proof.Machine.execPreemptionInterrupt c s
  | .tokenArrival h src => Sys2Proof.Machine.execTokenArrival h src s
  | .lookup h b => Sys2Proof.Machine.execLookup h b s
  | .blotterLookupDone h b => Sys2Proof.Machine.execBlotterLookupDone h b s
  | .spillRefill h b => Sys2Proof.Machine.execSpillRefill h b s
  | .wayRefill h b set => Sys2Proof.Machine.execWayRefill h b set s
  | .contextReturnFree h x => Sys2Proof.Machine.execContextReturnFree h x s
  | .drainMarkerLaunch h p => Sys2Proof.Machine.execDrainMarkerLaunch h p s
  | .stallDetect h p => Sys2Proof.Machine.execStallDetect h p s
  | .cltbaseWrite m h hi v => Sys2Proof.Machine.execCltbaseWrite m h hi v s
  | .cltsizeWrite m h v => Sys2Proof.Machine.execCltsizeWrite m h v s
  | .bltctlEnable m h p v => Sys2Proof.Machine.execBltctlEnable m h p v s
  | .dispatchPlace h => Sys2Proof.Machine.execDispatchPlace h s
  | .readyRefill c => Sys2Proof.Machine.execReadyRefill c s
  | .cancelPoint h => Sys2Proof.Machine.execCancelPoint h s
  | .sweepEnd h => Sys2Proof.Machine.execSweepEnd h s
  | .ligatureRelease h => Sys2Proof.Machine.execLigatureRelease h s
  | .ligatureRefill h f => Sys2Proof.Machine.execLigatureRefill h f s
  | .flowEnable m h f v => Sys2Proof.Machine.execFlowEnable m h f v s
  | .nop c => Sys2Proof.Machine.execNop c s
  | .sleep c => Sys2Proof.Machine.execSleep c s
  | .done c => Sys2Proof.Machine.execDone c s
  | .yield c rd => Sys2Proof.Machine.execYield c rd s
  | .fbar c => Sys2Proof.Machine.execFbar c s
  | .sync c => Sys2Proof.Machine.execSync c s
  | .trap c imm => Sys2Proof.Machine.execTrap c imm s
  | .eret c => Sys2Proof.Machine.execEret c s
  | .brk c => Sys2Proof.Machine.execBrk c s
  | .rep c w => Sys2Proof.Machine.execRep c w s
  | .repz c w => Sys2Proof.Machine.execRepz c w s
  | .repnz c w => Sys2Proof.Machine.execRepnz c w s
  | .add c k rd ra rb => Sys2Proof.Machine.execAdd c k rd ra rb s
  | .sub c k rd ra rb => Sys2Proof.Machine.execSub c k rd ra rb s
  | .adc c k rd ra rb => Sys2Proof.Machine.execAdc c k rd ra rb s
  | .sbc c k rd ra rb => Sys2Proof.Machine.execSbc c k rd ra rb s
  | .and c k rd ra rb => Sys2Proof.Machine.execAnd c k rd ra rb s
  | .or c k rd ra rb => Sys2Proof.Machine.execOr c k rd ra rb s
  | .xor c k rd ra rb => Sys2Proof.Machine.execXor c k rd ra rb s
  | .andn c k rd ra rb => Sys2Proof.Machine.execAndn c k rd ra rb s
  | .cmp c k rd ra rb => Sys2Proof.Machine.execCmp c k rd ra rb s
  | .slt c rd ra rb => Sys2Proof.Machine.execSlt c rd ra rb s
  | .sltu c rd ra rb => Sys2Proof.Machine.execSltu c rd ra rb s
  | .min c rd ra rb => Sys2Proof.Machine.execMin c rd ra rb s
  | .max c rd ra rb => Sys2Proof.Machine.execMax c rd ra rb s
  | .minu c rd ra rb => Sys2Proof.Machine.execMinu c rd ra rb s
  | .maxu c rd ra rb => Sys2Proof.Machine.execMaxu c rd ra rb s
  | .addi c rd ra imm => Sys2Proof.Machine.execAddi c rd ra imm s
  | .addis c rd ra imm => Sys2Proof.Machine.execAddis c rd ra imm s
  | .andi c rd ra imm => Sys2Proof.Machine.execAndi c rd ra imm s
  | .ori c rd ra imm => Sys2Proof.Machine.execOri c rd ra imm s
  | .xori c rd ra imm => Sys2Proof.Machine.execXori c rd ra imm s
  | .cmpi c rd ra imm => Sys2Proof.Machine.execCmpi c rd ra imm s
  | .slti c rd ra imm => Sys2Proof.Machine.execSlti c rd ra imm s
  | .sltiu c rd ra imm => Sys2Proof.Machine.execSltiu c rd ra imm s
  | .shori c rd ra imm => Sys2Proof.Machine.execShori c rd ra imm s
  | .sll c rd ra rb => Sys2Proof.Machine.execSll c rd ra rb s
  | .srl c rd ra rb => Sys2Proof.Machine.execSrl c rd ra rb s
  | .sra c rd ra rb => Sys2Proof.Machine.execSra c rd ra rb s
  | .ror c rd ra rb => Sys2Proof.Machine.execRor c rd ra rb s
  | .slli c rd ra sh => Sys2Proof.Machine.execSlli c rd ra sh s
  | .srli c rd ra sh => Sys2Proof.Machine.execSrli c rd ra sh s
  | .srai c rd ra sh => Sys2Proof.Machine.execSrai c rd ra sh s
  | .rori c rd ra sh => Sys2Proof.Machine.execRori c rd ra sh s
  | .clz c rd ra => Sys2Proof.Machine.execClz c rd ra s
  | .ctz c rd ra => Sys2Proof.Machine.execCtz c rd ra s
  | .popc c rd ra => Sys2Proof.Machine.execPopc c rd ra s
  | .bswap c rd ra => Sys2Proof.Machine.execBswap c rd ra s
  | .bext c rd ra rb sh => Sys2Proof.Machine.execBext c rd ra rb sh s
  | .mul c rd ra rb => Sys2Proof.Machine.execMul c rd ra rb s
  | .mulh c rd ra rb => Sys2Proof.Machine.execMulh c rd ra rb s
  | .mulhu c rd ra rb => Sys2Proof.Machine.execMulhu c rd ra rb s
  | .mul32 c rd ra rb => Sys2Proof.Machine.execMul32 c rd ra rb s
  | .div c rd ra rb => Sys2Proof.Machine.execDiv c rd ra rb s
  | .divu c rd ra rb => Sys2Proof.Machine.execDivu c rd ra rb s
  | .rem c rd ra rb => Sys2Proof.Machine.execRem c rd ra rb s
  | .remu c rd ra rb => Sys2Proof.Machine.execRemu c rd ra rb s
  | .dadd c rd ra rb => Sys2Proof.Machine.execDadd c rd ra rb s
  | .dsub c rd ra rb => Sys2Proof.Machine.execDsub c rd ra rb s
  | .dadj c rd ra => Sys2Proof.Machine.execDadj c rd ra s
  | .dcmp c ra rb => Sys2Proof.Machine.execDcmp c ra rb s
  | .dshl c rd ra rb => Sys2Proof.Machine.execDshl c rd ra rb s
  | .dshr c rd ra rb => Sys2Proof.Machine.execDshr c rd ra rb s
  | .btod c rd ra => Sys2Proof.Machine.execBtod c rd ra s
  | .dtob c rd ra => Sys2Proof.Machine.execDtob c rd ra s
  | .br c disp => Sys2Proof.Machine.execBr c disp s
  | .bl c disp => Sys2Proof.Machine.execBl c disp s
  | .bcc c cond disp => Sys2Proof.Machine.execBcc c cond disp s
  | .jr c ra => Sys2Proof.Machine.execJr c ra s
  | .jlr c rd ra => Sys2Proof.Machine.execJlr c rd ra s
  | .load c sz sx u off rd ra => Sys2Proof.Machine.execLoad c sz sx u off rd ra s
  | .store c sz u off rd ra => Sys2Proof.Machine.execStore c sz u off rd ra s
  | .loadIndexed c sz sx rd ra rb => Sys2Proof.Machine.execLoadIndexed c sz sx rd ra rb s
  | .storeIndexed c sz rd ra rb => Sys2Proof.Machine.execStoreIndexed c sz rd ra rb s
  | .ldl c rd ra => Sys2Proof.Machine.execLdl c rd ra s
  | .stc c rd ra rb => Sys2Proof.Machine.execStc c rd ra rb s
  | .aadd c rd ra rb => Sys2Proof.Machine.execAadd c rd ra rb s
  | .aswap c rd ra rb => Sys2Proof.Machine.execAswap c rd ra rb s
  | .acas c rd ra rb => Sys2Proof.Machine.execAcas c rd ra rb s
  | .bmove c sz rd ra => Sys2Proof.Machine.execBmove c sz rd ra s
  | .bfill c sz rd ra => Sys2Proof.Machine.execBfill c sz rd ra s
  | .bcmp c sz rd ra => Sys2Proof.Machine.execBcmp c sz rd ra s
  | .send c hsel rd ra rb => Sys2Proof.Machine.execSend c hsel rd ra rb s
  | .sendv c hsel n rd ra rb => Sys2Proof.Machine.execSendv c hsel n rd ra rb s
  | .ctxnew c rd => Sys2Proof.Machine.execCtxnew c rd s
  | .ctxfree c ra => Sys2Proof.Machine.execCtxfree c ra s
  | .cancelKey c hsel rd ra => Sys2Proof.Machine.execCancelKey c hsel rd ra s
  | .cancelContext c ra => Sys2Proof.Machine.execCancelContext c ra s
  | .flowseqNext c rd ra => Sys2Proof.Machine.execFlowseqNext c rd ra s
  | .flowseqPut c rd ra rb => Sys2Proof.Machine.execFlowseqPut c rd ra rb s
  | .flowseqSkip c ra => Sys2Proof.Machine.execFlowseqSkip c ra s
  | .aissue c rd ra rb => Sys2Proof.Machine.execAissue c rd ra rb s
  | .aissueBlock c rd ra => Sys2Proof.Machine.execAissueBlock c rd ra s
  | .agang c rd ra rb => Sys2Proof.Machine.execAgang c rd ra rb s
  | .await c rd ra => Sys2Proof.Machine.execAwait c rd ra s
  | .ablot c rd ra => Sys2Proof.Machine.execAblot c rd ra s
  | .rmark c rd ra rb => Sys2Proof.Machine.execRmark c rd ra rb s
  | .rxmark c rd ra rb => Sys2Proof.Machine.execRxmark c rd ra rb s
  | .rread c rd ra => Sys2Proof.Machine.execRread c rd ra s
  | .radv c ra rb => Sys2Proof.Machine.execRadv c ra rb s
  | .chopOpen c rd ra => Sys2Proof.Machine.execChopOpen c rd ra s
  | .chopBand c rd ra => Sys2Proof.Machine.execChopBand c rd ra s
  | .chopSeal c rd ra => Sys2Proof.Machine.execChopSeal c rd ra s
  | .chopClose c rd ra => Sys2Proof.Machine.execChopClose c rd ra s
  | .sealq c rd ra => Sys2Proof.Machine.execSealq c rd ra s
  | .mfs c rd spr => Sys2Proof.Machine.execMfs c rd spr s
  | .mts c spr ra => Sys2Proof.Machine.execMts c spr ra s
  | .fadd c fmt fd fa fb => Sys2Proof.Machine.execFadd c fmt fd fa fb s
  | .fsub c fmt fd fa fb => Sys2Proof.Machine.execFsub c fmt fd fa fb s
  | .fmul c fmt fd fa fb => Sys2Proof.Machine.execFmul c fmt fd fa fb s
  | .fdiv c fmt fd fa fb => Sys2Proof.Machine.execFdiv c fmt fd fa fb s
  | .fsqrt c fmt fd fa => Sys2Proof.Machine.execFsqrt c fmt fd fa s
  | .fmin c fmt fd fa fb => Sys2Proof.Machine.execFmin c fmt fd fa fb s
  | .fmax c fmt fd fa fb => Sys2Proof.Machine.execFmax c fmt fd fa fb s
  | .fabs c fmt fd fa => Sys2Proof.Machine.execFabs c fmt fd fa s
  | .fneg c fmt fd fa => Sys2Proof.Machine.execFneg c fmt fd fa s
  | .fmov c fmt fd fa => Sys2Proof.Machine.execFmov c fmt fd fa s
  | .fcmp c fmt fa fb => Sys2Proof.Machine.execFcmp c fmt fa fb s
  | .fcmpe c fmt fa fb => Sys2Proof.Machine.execFcmpe c fmt fa fb s
  | .fmadd c fmt fd fa fb fc => Sys2Proof.Machine.execFmadd c fmt fd fa fb fc s
  | .fmsub c fmt fd fa fb fc => Sys2Proof.Machine.execFmsub c fmt fd fa fb fc s
  | .fnmadd c fmt fd fa fb fc => Sys2Proof.Machine.execFnmadd c fmt fd fa fb fc s
  | .fnmsub c fmt fd fa fb fc => Sys2Proof.Machine.execFnmsub c fmt fd fa fb fc s
  | .fcvtS2d c rd ra => Sys2Proof.Machine.execFcvtS2d c rd ra s
  | .fcvtD2s c rd ra => Sys2Proof.Machine.execFcvtD2s c rd ra s
  | .fcvtH2s c rd ra => Sys2Proof.Machine.execFcvtH2s c rd ra s
  | .fcvtS2h c rd ra => Sys2Proof.Machine.execFcvtS2h c rd ra s
  | .fcvtH2d c rd ra => Sys2Proof.Machine.execFcvtH2d c rd ra s
  | .fcvtD2h c rd ra => Sys2Proof.Machine.execFcvtD2h c rd ra s
  | .fcvti c fmt rz rd fa => Sys2Proof.Machine.execFcvti c fmt rz rd fa s
  | .fcvtiu c fmt rz rd fa => Sys2Proof.Machine.execFcvtiu c fmt rz rd fa s
  | .icvtf c fmt fd ra => Sys2Proof.Machine.execIcvtf c fmt fd ra s
  | .icvtfu c fmt fd ra => Sys2Proof.Machine.execIcvtfu c fmt fd ra s
  | .fmvgf c rd ra => Sys2Proof.Machine.execFmvgf c rd ra s
  | .fmvfg c rd ra => Sys2Proof.Machine.execFmvfg c rd ra s
  | .fclass c fmt rd fa => Sys2Proof.Machine.execFclass c fmt rd fa s
  | .fpLoad c sz off fd ra => Sys2Proof.Machine.execFpLoad c sz off fd ra s
  | .fpStore c sz off fd ra => Sys2Proof.Machine.execFpStore c sz off fd ra s
  | .fpComplete c => Sys2Proof.Machine.execFpComplete c s
  | .tableRangeWord c w => Sys2Proof.Machine.execTableRangeWord c w s
  | .emulatedWord c w => Sys2Proof.Machine.execEmulatedWord c w s
  | .deferralLimit c => Sys2Proof.Machine.execDeferralLimit c s
  | .microcodeLoadStart m h v => Sys2Proof.Machine.execMicrocodeLoadStart m h v s
  | .microcodeLoadDone h => Sys2Proof.Machine.execMicrocodeLoadDone h s
  | .decodeModeSet c => Sys2Proof.Machine.execDecodeModeSet c s
  | .meshHeaderCheckFail h r mesh d again port addr => Sys2Proof.Machine.execMeshHeaderCheckFail h r mesh d again port addr s
  | .absorbPacket h t k => Sys2Proof.Machine.execAbsorbPacket h t k s
  | .noRouteAbsorb h t mesh dst ep esc k => Sys2Proof.Machine.execNoRouteAbsorb h t mesh dst ep esc k s
  | .nepochSwitch m h v => Sys2Proof.Machine.execNepochSwitch m h v s
  | .oldTableRetire h => Sys2Proof.Machine.execOldTableRetire h s
  | .nrtabWrite m h r e w v => Sys2Proof.Machine.execNrtabWrite m h r e w v s
  | .depolCrcFail h k seq again => Sys2Proof.Machine.execDepolCrcFail h k seq again s
  | .depolNak h k ack => Sys2Proof.Machine.execDepolNak h k ack s
  | .pilotFlit h k errs => Sys2Proof.Machine.execPilotFlit h k errs s
  | .wireRepair h k seq => Sys2Proof.Machine.execWireRepair h k seq s
  | .linkTrained h k ok => Sys2Proof.Machine.execLinkTrained h k ok s
  | .dplctlWrite m h k v => Sys2Proof.Machine.execDplctlWrite m h k v s
  | .regionSleep h d => Sys2Proof.Machine.execRegionSleep h d s
  | .fenceAck h d => Sys2Proof.Machine.execFenceAck h d s
  | .powerRemove h d => Sys2Proof.Machine.execPowerRemove h d s
  | .packetHeld h d pkt => Sys2Proof.Machine.execPacketHeld h d pkt s
  | .wakeComplete h d => Sys2Proof.Machine.execWakeComplete h d s
  | .ntileIso m h t v => Sys2Proof.Machine.execNtileIso m h t v s
  | .ntileOff m h t v => Sys2Proof.Machine.execNtileOff m h t v s
  | .nregIso m h g v => Sys2Proof.Machine.execNregIso m h g v s
  | .ndiePwren m h a v => Sys2Proof.Machine.execNdiePwren m h a v s
  | .channelTrained h k ok => Sys2Proof.Machine.execChannelTrained h k ok s
  | .mcinitStart m h k v => Sys2Proof.Machine.execMcinitStart m h k v s
  | .mcinitDone h k => Sys2Proof.Machine.execMcinitDone h k s
  | .memclr m h v => Sys2Proof.Machine.execMemclr m h v s
  | .memclrDone h => Sys2Proof.Machine.execMemclrDone h s
  | .ringReserve h r => Sys2Proof.Machine.execRingReserve h r s
  | .recordCommit h r => Sys2Proof.Machine.execRecordCommit h r s
  | .signComplete h => Sys2Proof.Machine.execSignComplete h s
  | .sealKeyGen m h v => Sys2Proof.Machine.execSealKeyGen m h v s
  | .sealKeyLoad m h v => Sys2Proof.Machine.execSealKeyLoad m h v s
  | .erEnable m h r v => Sys2Proof.Machine.execErEnable m h r v s
  | .segmentIssue h r t => Sys2Proof.Machine.execSegmentIssue h r t s
  | .segmentComplete h r t ok => Sys2Proof.Machine.execSegmentComplete h r t ok s
  | .pfailN => Sys2Proof.Machine.execPfailN s
  | .ectlStroke m h v => Sys2Proof.Machine.execEctlStroke m h v s
  | .strokeFlushComplete h => Sys2Proof.Machine.execStrokeFlushComplete h s
  | .mirrorFrame h hdr payload => Sys2Proof.Machine.execMirrorFrame h hdr payload s
  | .adopt m h v => Sys2Proof.Machine.execAdopt m h v s
  | .frameReceive h lane fcsOk frame => Sys2Proof.Machine.execFrameReceive h lane fcsOk frame s
  | .pfcXoffRepeat h lane => Sys2Proof.Machine.execPfcXoffRepeat h lane s
  | .frameTransmit h lane => Sys2Proof.Machine.execFrameTransmit h lane s
  | .laneEnable m h lane v => Sys2Proof.Machine.execLaneEnable m h lane v s
  | .streamLoad m h half v => Sys2Proof.Machine.execStreamLoad m h half v s
  | .streamRemove m h half v => Sys2Proof.Machine.execStreamRemove m h half v s
  | .hostAccess h write size off data => Sys2Proof.Machine.execHostAccess h write size off data s
  | .inboundRequest h port write addr len data => Sys2Proof.Machine.execInboundRequest h port write addr len data s
  | .rpcmdIssue m h v => Sys2Proof.Machine.execRpcmdIssue m h v s
  | .rpcmdComplete h stat data => Sys2Proof.Machine.execRpcmdComplete h stat data s
  | .rpcmdTimeout h => Sys2Proof.Machine.execRpcmdTimeout h s
  | .pcieLinkDown h port => Sys2Proof.Machine.execPcieLinkDown h port s
  | .ident h slot => Sys2Proof.Machine.execIdent h slot s
  | .csrrd h slot => Sys2Proof.Machine.execCsrrd h slot s
  | .csrwr h slot => Sys2Proof.Machine.execCsrwr h slot s
  | .partCreate h slot => Sys2Proof.Machine.execPartCreate h slot s
  | .partDelete h slot => Sys2Proof.Machine.execPartDelete h slot s
  | .partAssigncores h slot => Sys2Proof.Machine.execPartAssigncores h slot s
  | .partAssignch h slot => Sys2Proof.Machine.execPartAssignch h slot s
  | .evac h slot => Sys2Proof.Machine.execEvac h slot s
  | .evacEffect sh => Sys2Proof.Machine.execEvacEffect sh s
  | .test h slot => Sys2Proof.Machine.execTest h slot s
  | .returnSheet h slot => Sys2Proof.Machine.execReturnSheet h slot s
  | .retire h slot => Sys2Proof.Machine.execRetire h slot s
  | .drain h slot => Sys2Proof.Machine.execDrain h slot s
  | .returnCore h slot => Sys2Proof.Machine.execReturnCore h slot s
  | .dieoff h slot => Sys2Proof.Machine.execDieoff h slot s
  | .dieon h slot => Sys2Proof.Machine.execDieon h slot s
  | .chretire h slot => Sys2Proof.Machine.execChretire h slot s
  | .chreturn h slot => Sys2Proof.Machine.execChreturn h slot s
  | .takeover h slot => Sys2Proof.Machine.execTakeover h slot s
  | .takeoverAdopt h => Sys2Proof.Machine.execTakeoverAdopt h s
  | .journal h slot => Sys2Proof.Machine.execJournal h slot s
  | .boot h slot image => Sys2Proof.Machine.execBoot h slot image s
  | .mcload h slot => Sys2Proof.Machine.execMcload h slot s
  | .fabload h slot => Sys2Proof.Machine.execFabload h slot s
  | .chopreq h slot => Sys2Proof.Machine.execChopreq h slot s
  | .sealst h slot => Sys2Proof.Machine.execSealst h slot s
  | .stroke h slot => Sys2Proof.Machine.execStroke h slot s
  | .token h slot => Sys2Proof.Machine.execToken h slot s
  | .dbgauthChallenge h slot => Sys2Proof.Machine.execDbgauthChallenge h slot s
  | .dbgauthLoad h slot => Sys2Proof.Machine.execDbgauthLoad h slot s
  | .dbgauthGo h slot => Sys2Proof.Machine.execDbgauthGo h slot s
  | .dbgauthRevoke h slot => Sys2Proof.Machine.execDbgauthRevoke h slot s
  | .dbgauthRead h slot => Sys2Proof.Machine.execDbgauthRead h slot s
  | .dbgauthWrite h slot => Sys2Proof.Machine.execDbgauthWrite h slot s
  | .probeRead h frame => Sys2Proof.Machine.execProbeRead h frame s
  | .probeWrite h frame => Sys2Proof.Machine.execProbeWrite h frame s
  | .probeStatus h frame => Sys2Proof.Machine.execProbeStatus h frame s
  | .probeChallenge h frame => Sys2Proof.Machine.execProbeChallenge h frame s
  | .authload h frame => Sys2Proof.Machine.execAuthload h frame s
  | .authgo h frame => Sys2Proof.Machine.execAuthgo h frame s
  | .probeRevoke h frame => Sys2Proof.Machine.execProbeRevoke h frame s
  | .spSelDeassert h => Sys2Proof.Machine.execSpSelDeassert h s
  | .extest h => Sys2Proof.Machine.execExtest h s
  | .idcode h => Sys2Proof.Machine.execIdcode h s
  | .samplePreload h => Sys2Proof.Machine.execSamplePreload h s
  | .clamp h => Sys2Proof.Machine.execClamp h s
  | .highz h => Sys2Proof.Machine.execHighz h s
  | .bypass h => Sys2Proof.Machine.execBypass h s
  | .dbgacc h frame => Sys2Proof.Machine.execDbgacc h frame s
  | .haltRequest m c v => Sys2Proof.Machine.execHaltRequest m c v s
  | .coreHalt c => Sys2Proof.Machine.execCoreHalt c s
  | .haltForce c => Sys2Proof.Machine.execHaltForce c s
  | .coreResume m c v => Sys2Proof.Machine.execCoreResume m c v s
  | .coreStep m c v => Sys2Proof.Machine.execCoreStep m c v s
  | .drdataWrite m c hi v => Sys2Proof.Machine.execDrdataWrite m c hi v s
  | .gangHalt m h g v => Sys2Proof.Machine.execGangHalt m h g v s
  | .gangResume m h g v => Sys2Proof.Machine.execGangResume m h g v s
  | .stepw m h g v => Sys2Proof.Machine.execStepw m h g v s
  | .dginj m h g v => Sys2Proof.Machine.execDginj m h g v s
  | .dbgctlAttach m h v => Sys2Proof.Machine.execDbgctlAttach m h v s
  | .marginPortStore c h n size64 data => Sys2Proof.Machine.execMarginPortStore c h n size64 data s
  | .tracePinPacket h => Sys2Proof.Machine.execTracePinPacket h s
  | .fabricLoadStart m h v => Sys2Proof.Machine.execFabricLoadStart m h v s
  | .fabricLoadDone h => Sys2Proof.Machine.execFabricLoadDone h s
  | .regionRelease m h r v => Sys2Proof.Machine.execRegionRelease m h r v s
  | .releaseEdge h r => Sys2Proof.Machine.execReleaseEdge h r s
  | .fregIso m h r v => Sys2Proof.Machine.execFregIso m h r v s
  | .contention h r line => Sys2Proof.Machine.execContention h r line s
  | .fcontClear m h v => Sys2Proof.Machine.execFcontClear m h v s
  | .frawgo m h v => Sys2Proof.Machine.execFrawgo m h v s
  | .fabricTargetAccess c h fp write size8 off data rd => Sys2Proof.Machine.execFabricTargetAccess c h fp write size8 off data rd s
  | .fportTimeout h fp => Sys2Proof.Machine.execFportTimeout h fp s
  | .fabricMasterRequest h fp write addr len data => Sys2Proof.Machine.execFabricMasterRequest h fp write addr len data s
  | .blockMemoryAccess h n a b win => Sys2Proof.Machine.execBlockMemoryAccess h n a b win s
  | .lchEnable m h ch v => Sys2Proof.Machine.execLchEnable m h ch v s
  | .lchwrWrite m h ch v => Sys2Proof.Machine.execLchwrWrite m h ch v s
  | .lchrdWrite m h ch v => Sys2Proof.Machine.execLchrdWrite m h ch v s
  | .testerStep h addr failed => Sys2Proof.Machine.execTesterStep h addr failed s
  | .borrowRestore h who => Sys2Proof.Machine.execBorrowRestore h who s
  | .journalEnable m h v => Sys2Proof.Machine.execJournalEnable m h v s
  | .ptpReferenceCycle h => Sys2Proof.Machine.execPtpReferenceCycle h s
  | .laneTrainingDone h lane ok rate width => Sys2Proof.Machine.execLaneTrainingDone h lane ok rate width s
  | .laneLinkDown h lane => Sys2Proof.Machine.execLaneLinkDown h lane s
  | .fabricFirstPassDone h => Sys2Proof.Machine.execFabricFirstPassDone h s
  | .fabricTargetResponse h fp data => Sys2Proof.Machine.execFabricTargetResponse h fp data s
  | .illegalWord c w => Sys2Proof.Machine.execIllegalWord c w s
  | .reservedArrayWord g => Sys2Proof.Machine.execReservedArrayWord g s
  | .mailboxUnassignedOpcode h slot => Sys2Proof.Machine.execMailboxUnassignedOpcode h slot s
  | .probeReservedOp h frame => Sys2Proof.Machine.execProbeReservedOp h frame s
  | .pfcPauseExpiry h lane prio => Sys2Proof.Machine.execPfcPauseExpiry h lane prio s
  | .vccioChange h bank present => Sys2Proof.Machine.execVccioChange h bank present s

end Sys2Proof.Machine
end

