-- ==== Sys2Proof/Safety.lean ====
section
/-! DEFINITION. What counts as a sound state and a safe step, and the terms in which statements say what a command
leaves behind. -/
namespace Sys2Proof.Machine

/-- The memory is in its canonical form. -/
def State.memWf (s : State) : Prop := Memory.wf s.mem.cells = true

/-- The step goes on: no fault, no refusal. -/
def goesOn (s : State) : Prop := ∃ t, step s = .next t

/-- The command answers a next state, of which `P` holds. -/
def Answers (c : Instr) (s : State) (P : State → Prop) : Prop := ∃ t, exec c s = .next t ∧ P t

/-! ## Instructions of a core -/

/-- Core `c` comes to an instruction of footprint `reads`, `writes` and `flags`: it may step (R171, R218, R219), its
fetch is answered and leaves state `f`, and the floating-point unit does not hold the instruction back (R200). -/
def Begins (s f : State) (c : CoreId) (reads writes : List Nat) (flags : Bool) : Prop :=
  canStep s (coreIx c) = true ∧ hazard (getCore f (coreIx c)) ⟨reads, writes, flags⟩ = false ∧
  ∃ w, fetchAt (boundary s (coreIx c)) (coreIx c) (getCore s (coreIx c)).pc = .ok (f, w)

/-- The same for an instruction before which a floating-point exception is delivered (R206): the unit is idle and no
exception is pending. -/
def BeginsFp (s f : State) (c : CoreId) (reads writes : List Nat) (flags : Bool) : Prop :=
  Begins s f c reads writes flags ∧ (getCore s (coreIx c)).fpu = none ∧ (getCore s (coreIx c)).fpePend = false

/-- No interlock: the floating-point unit of core `i` is idle. -/
def UnitIdle (s : State) (i : Nat) : Prop := (getCore s i).fpu = none

/-- Everything outside core `i` is as in `f`; every byte of memory reads as before. -/
def OnlyCore (f t : State) (i : Nat) : Prop :=
  { t with cpu := f.cpu } = f ∧ t.cpu.mcLoad = f.cpu.mcLoad ∧ (∀ j, j ≠ i → getCore t j = getCore f j) ∧
  ∀ a, rb t a = rb f a

/-- Core `i` of `t` as in `f`, but for the general registers, PC and PSTAT (and the working state of the instruction
that has ended). -/
def SameBeyondRegs (f t : State) (i : Nat) : Prop :=
  { getCore t i with g := (getCore f i).g, pc := (getCore f i).pc, pstat := (getCore f i).pstat,
                     ports := (getCore f i).ports, micro := (getCore f i).micro } = getCore f i

/-- General register `rd` takes `v`, G0 excepted (R166); the others stay. -/
def GprSet (f t : State) (i rd : Nat) (v : W64) : Prop :=
  ∀ r, (getCore t i).gr r = if r = rd ∧ r ≠ 0 then v else (getCore f i).gr r

/-- The core has gone on to the next instruction with `v` in rd and `p` in PSTAT; nothing else has changed. -/
def Wrote (f t : State) (c : CoreId) (rd : Nat) (v : W64) (p : W32) : Prop :=
  OnlyCore f t (coreIx c) ∧ SameBeyondRegs f t (coreIx c) ∧ GprSet f t (coreIx c) rd v ∧
  (getCore t (coreIx c)).pc = (getCore f (coreIx c)).pc + 4 ∧ (getCore t (coreIx c)).pstat = p

/-- The instruction answers with `v` in rd, `p` in PSTAT, and nothing else changed. -/
def Gives (s f : State) (c : CoreId) (i : Instr) (rd : Nat) (v : W64) (p : W32) : Prop :=
  Answers i s (fun t => Wrote f t c rd v p)

/-- A core whose instruction has ended with nothing but PC moved on (the answers and the routine it had are used up). -/
def Core.retired (k : Core) : Core := { k with pc := k.pc + 4, ports := [], micro := none }

/-- Core `i` alone has changed, into `k`. -/
def CoreBecomes (f t : State) (i : Nat) (k : Core) : Prop := OnlyCore f t i ∧ getCore t i = k

/-- Nothing but cores and memory has changed; of the other cores at most reservations have ended (R186). -/
def CoresAndMemory (f t : State) (i : Nat) : Prop :=
  { t with cpu := f.cpu, mem := f.mem } = f ∧ t.cpu.mcLoad = f.cpu.mcLoad ∧
  ∀ j, j ≠ i → getCore t j = getCore f j ∨ getCore t j = { getCore f j with lladdr := 0 }

/-- Level of a trap entry (R216): the handler that it interrupts. -/
def trapLevel (k : Core) : Nat := b2n (k.pstat.getLsbD 13)
/-- Offset of the trap slot in common memory (R215). -/
def slotOffset (s : State) (i : Nat) : Nat :=
  rdF s (i / 32) (R.TSAVE (i % 32)) 23 6 * 64 + 64 * trapLevel (getCore s i)

/-- A trap entry that is no double trap can be made (R215, R217): unit idle, no exception pending, not at level 1
already, and the core's own common memory takes the slot writes. -/
def TrapReady (f : State) (i : Nat) : Prop :=
  (getCore f i).fpu = none ∧ (getCore f i).fpePend = false ∧ coreCut f i = false ∧ f.mem.bad = [] ∧ i < 64 ∧
  ¬ ((getCore f i).pstat.getLsbD 13 = true ∧ (getCore f i).trapc.getLsbD 9 = true) ∧
  slotOffset f i + 48 ≤ 0x1000000 ∧ rangeServes f (i / 32) (0x010000000000 + slotOffset f i) 48 = true

/-- The trap of `cause` has been entered from `f` (R214, R215): the saved registers, PSTAT, G1 to G3, PC at TVEC, and
48 bytes of the slot; every other byte of memory reads as before. -/
def TrapEntered (f t : State) (i : Nat) (epc : BitVec 48) (cause : Nat) (value : W64) (async : Bool) : Prop :=
  let k := getCore f i
  let tc : W64 := BitVec.ofNat 64 (cause + 256 * b2n async + 512 * trapLevel k + k.pstat.toNat * 2 ^ 32)
  let slot : W64 := BitVec.ofNat 64 (0x010000000000 + slotOffset f i)
  let vec : BitVec 48 :=
    BitVec.ofNat 48 (rdF f (i / 32) (R.TVECHI (i % 32)) 15 0 * 2 ^ 32 + rdF f (i / 32) (R.TVECLO (i % 32)) 31 2 * 4)
  let lo := commonBase (i / 32) + slotOffset f i
  let saved : List W64 := [k.gr 1, k.gr 2, k.gr 3, epc.setWidth 64, tc, value]
  CoresAndMemory f t i ∧
  getCore t i = ((({ k with
    shadow := if k.pstat.getLsbD 13 then some (k.epc, k.trapc, k.trapv) else k.shadow
    epc := epc.setWidth 64
    trapc := tc
    trapv := value
    lladdr := 0
    pc := vec
    pstat := (k.pstat &&& ~~~(0x1000 : W32)) ||| 0x2000
    sleep := false
    bare := k.bare || k.running.isNone
    rstate := .running
    ports := []
    micro := none } : Core).setG 1 slot).setG 2 tc).setG 3 value ∧
  (∀ j < 48, rb t (lo + j) = BitVec.ofNat 8 ((saved.getD (j / 8) 0).toNat / 256 ^ (j % 8))) ∧
  ∀ a, ¬ (lo ≤ a ∧ a < lo + 48) → rb t a = rb f a

/-- An access of n bytes to the core's own or the other hub's common memory that every check lets pass and no error
meets (R12, R169, R183, R390). -/
def CommonAccess (f : State) (i : Nat) (ea : W64) (n need : Nat) : Prop :=
  ea.toNat % n = 0 ∧ winOk f i ea.toNat need = true ∧ coreCut f i = false ∧
  watchHits f i ea.toNat n (need % 2 == 1) (decide (2 ≤ need)) = [] ∧
  (∃ h, region (i / 32) ea.toNat = .common h) ∧ rangeServes f (i / 32) ea.toNat n = true ∧ f.mem.bad = []

/-- The cores are as before, but for reservations that have ended (R186). -/
def CoresKept (s t : State) : Prop := ∀ i, getCore t i = getCore s i ∨ getCore t i = { getCore s i with lladdr := 0 }

/-- Core `i` is `k`, but for a reservation that a record written to memory has ended (R186). -/
def CoreIs (t : State) (i : Nat) (k : Core) : Prop := getCore t i = k ∨ getCore t i = { k with lladdr := 0 }

/-- Nothing outside the matching store, dispatch, the journal, the trace and their registers has changed. -/
def OnlyTokens (s t : State) : Prop :=
  t.part = s.part ∧ t.arr = s.arr ∧ t.net = s.net ∧ t.evi = s.evi ∧ t.lan = s.lan ∧ t.fab = s.fab ∧
  t.boot = s.boot ∧ t.pwr = s.pwr ∧ t.rul.marks = s.rul.marks ∧ t.rul.pos = s.rul.pos ∧ t.pending = s.pending ∧
  CoresKept s t

/-- The number that n bytes of memory spell, low byte first (R14). -/
def littleEndian (s : State) (k n : Nat) : Nat := ((List.range n).map (fun j => (rb s (k + j)).toNat * 256 ^ j)).sum

/-- PSTAT `p` with N, Z, C and V replaced and every other bit kept. -/
def nzcv (p : W32) (n z c v : Bool) : W32 :=
  (p &&& ~~~(0xF : W32)) ||| BitVec.ofNat 32 (b2n n + 2 * b2n z + 4 * b2n c + 8 * b2n v)

/-- PSTAT after an addition of a, b and a carry (R172). -/
def sumFlags (p : W32) (a b : W64) (cin : Nat) : W32 :=
  let r := a + b + BitVec.ofNat 64 cin
  nzcv p r.msb (decide (r = 0)) (decide (2 ^ 64 ≤ a.toNat + b.toNat + cin)) (decide (r.toInt ≠ a.toInt + b.toInt + cin))

/-- PSTAT after a − b − borrow (R172). -/
def differenceFlags (p : W32) (a b : W64) (borrow : Nat) : W32 :=
  let r := a - b - BitVec.ofNat 64 borrow
  nzcv p r.msb (decide (r = 0)) (decide (b.toNat + borrow ≤ a.toNat)) (decide (r.toInt ≠ a.toInt - b.toInt - borrow))

/-- PSTAT after a bitwise operation: N and Z of the result, C and V kept (R172). -/
def bitFlags (p : W32) (r : W64) : W32 :=
  nzcv p r.msb (decide (r = 0)) (p.getLsbD 2) (p.getLsbD 3)

/-- The sixteen branch conditions of R181, by cond, on PSTAT `p`. -/
def branchConds (p : W32) : List Bool :=
  let n := p.getLsbD 0
  let z := p.getLsbD 1
  let c := p.getLsbD 2
  let v := p.getLsbD 3
  [z, !z, c, !c, n, !n, v, !v, c && !z, !c || z, n == v, n != v, !z && (n == v), z || (n != v), true, p.getLsbD 5]

/-- The number that sixteen BCD digits spell (R178). -/
def decimalValue (a : W64) : Nat := ((List.range 16).map (fun k => digit a k * 10 ^ k)).sum

/-- Every nibble is a decimal digit. -/
def allDigits (a : W64) : Prop := ∀ k < 16, digit a k < 10

/-! ## The array -/

/-- Nothing but the array has changed. -/
def OnlyArray (s t : State) : Prop := { t with arr := s.arr } = s

/-- Word q comes next in gang g: the gang may execute it, it passes the check of R87 and need not wait, every row slice is
sound, and no debugger steps the gang or injects words into it. -/
def WordReady (s : State) (g : Nat) (q : QWord) : Prop :=
  gangReady s g = true ∧ headWord (getGang s g) = some q ∧ wordCheck s g (getGang s g) q.w = 0 ∧
  wordWaits s g q.w = false ∧ (getGang s g).step = false ∧ injecting s g = false ∧ s.arr.bad = []

/-- Every member of gang g holds the place that its position names. -/
def Formed (s : State) (g : Nat) : Prop :=
  ∀ sh ∈ members s g, (getSheet s sh).gx < (getSheet s g).gw ∧ (getSheet s sh).gy < (getSheet s g).gh ∧
    memberAt s g (getSheet s sh).gx (getSheet s sh).gy = some sh

/-- The number that a field of n planes from `base` spells in nib k of sheet sh, lowest plane first. -/
def nibField (s : State) (sh base n k : Nat) : Nat :=
  ((List.range n).map (fun j => b2n ((plane s sh (base + j)).getLsbD k) * 2 ^ j)).sum

/-- An n-bit number as two's complement when `sgn`. -/
def asSigned (sgn : Bool) (n v : Nat) : Int := if sgn = true ∧ 2 ^ (n - 1) ≤ v then (v : Int) - 2 ^ n else v

/-- Nib k of sheet sh is active under MASKMODE `mm` (R56, R91). -/
def nibOn (s : State) (sh mm k : Nat) : Bool :=
  match mm with
  | 0 => true
  | 1 => (getSheet s sh).m.getLsbD k
  | _ => !((getSheet s sh).m.getLsbD k)

/-- The nib that lies beside nib k of sheet sh in its gang: 0 north, 1 east, 2 south, 3 west; none outside the gang
(R65, R66). Nib k stands in row k / 128 and column k mod 128. -/
def neighbour (s : State) (sh k dir : Nat) : Option (Nat × Nat) :=
  let x := getSheet s sh
  let col : Int := (128 * x.gx + k % 128 : Nat)
  let row : Int := (128 * x.gy + k / 128 : Nat)
  let at' : Int × Int := match dir with
    | 0 => (col, row - 1)
    | 1 => (col + 1, row)
    | 2 => (col, row + 1)
    | _ => (col - 1, row)
  if at'.1 < 0 ∨ at'.2 < 0 then none else
  let c := at'.1.toNat
  let r := at'.2.toNat
  let home := if c / 128 = x.gx ∧ r / 128 = x.gy then some sh else memberAt s x.gid (c / 128) (r / 128)
  home.map (fun n => (n, 128 * (r % 128) + c % 128))

/-- What field operation `f` computes in nib k of sheet sh (R92). -/
def fieldResult (s : State) (sh : Nat) (f : FieldW) (k : Nat) : Nat :=
  let n := f.n
  let a := nibField s sh f.a n k
  let b := nibField s sh f.b n k
  let x := asSigned f.sgn n a
  let y := asSigned f.sgn n b
  let c := b2n ((getSheet s sh).c.getLsbD k)
  match f.op with
  | 0x00 => a
  | 0x01 => 2 ^ n - 1 - a
  | 0x02 => a &&& b
  | 0x03 => a ||| b
  | 0x04 => a ^^^ b
  | 0x05 => (a + b) % 2 ^ n
  | 0x06 => (a + b + c) % 2 ^ n
  | 0x07 => (2 ^ n + a - b) % 2 ^ n
  | 0x08 => b2n (decide (a = b))
  | 0x09 => b2n (decide (x < y))
  | 0x0A => (x - y).natAbs
  | 0x0B => if x < y then a else b
  | 0x0C => if x < y then b else a
  | 0x0D => ((x * y) % 2 ^ (2 * n)).toNat
  | 0x0E => (((nibField s sh f.d (2 * n) k : Int) + x * y) % 2 ^ (2 * n)).toNat
  | 0x0F =>
    match neighbour s sh k f.nsel with
    | none => if f.edge then 2 ^ n - 1 else 0
    | some (m, j) =>
      if nibOn s m f.mm j then nibField s m f.a n j else if (getSheet s m).t.getLsbD j then 2 ^ n - 1 else 0
  | _ => ((List.range n).map (fun j => b2n ((plane s sh (f.a + j)).getLsbD k))).sum

/-- C in an active nib after field operation `f` (R92). -/
def fieldCarry (s : State) (sh : Nat) (f : FieldW) (k : Nat) : Bool :=
  let n := f.n
  let a := nibField s sh f.a n k
  let b := nibField s sh f.b n k
  let x := asSigned f.sgn n a
  let y := asSigned f.sgn n b
  let c := (getSheet s sh).c.getLsbD k
  match f.op with
  | 0x05 => decide (2 ^ n ≤ a + b)
  | 0x06 => decide (2 ^ n ≤ a + b + b2n c)
  | 0x07 => decide (b ≤ a)
  | 0x08 => decide (a = b)
  | 0x09 => decide (x < y)
  | 0x0A => decide (x < y)
  | 0x0B => decide (y ≤ x)
  | 0x0C => decide (y ≤ x)
  | 0x0D => false
  | 0x0E => false
  | 0x10 => false
  | _ => c

/-- The blot value of nib k after field operation `f` (R92). -/
def fieldBlots (s t : State) (sh : Nat) (f : FieldW) (k : Nat) : Bool :=
  match f.op with
  | 0x05 => fieldCarry s sh f k
  | 0x06 => fieldCarry s sh f k
  | 0x07 => !(fieldCarry s sh f k)
  | 0x08 => fieldCarry s sh f k
  | 0x09 => fieldCarry s sh f k
  | _ => decide (nibField t sh f.d (fieldWidth f.op f.n) k ≠ 0)

/-- The seventeen FIELD rows, by OP. -/
def fieldRows (g : Sheet) : List (Nat × Instr) :=
  [(0x00, .fieldMov g), (0x01, .fieldNot g), (0x02, .fieldAnd g), (0x03, .fieldOr g), (0x04, .fieldXor g),
   (0x05, .fieldAdd g), (0x06, .fieldAddc g), (0x07, .fieldSub g), (0x08, .fieldCmpeq g), (0x09, .fieldCmplt g),
   (0x0A, .fieldAbsdiff g), (0x0B, .fieldMin g), (0x0C, .fieldMax g), (0x0D, .fieldMul g), (0x0E, .fieldMulacc g),
   (0x0F, .fieldShl g), (0x10, .fieldPopcnt g)]

/-- Planes read in t as in s, those that P names excepted. -/
def PlanesKept (s t : State) (P : Nat → Nat → Prop) : Prop :=
  ∀ sh p, p < 4096 → ¬ P sh p → plane t sh p = plane s sh p

/-- One more blot is in flight in gang g: its value, and no token of it yet (R70). -/
def BlotMade (s t : State) (g core : Nat) (hit : Nat → Nat → Prop) : Prop :=
  ∃ b, (getGang t g).blots = (getGang s g).blots ++ [b] ∧ b.core = core ∧ b.toks = [] ∧
    (b.val = true ↔ ∃ sh ∈ members s g, ∃ k < 16384, hit sh k)

/-- Operands a, b and c of a BIT word in nib k of sheet sh, as the index into its truth tables (R56). -/
def bitIndex (s : State) (sh : Nat) (w : AWord) (k : Nat) : Nat :=
  let x := getSheet s sh
  let a : Bool := match fld w 39 38 with
    | 0 => (plane s sh (fld w 91 80)).getLsbD k
    | 1 => x.x.getLsbD k
    | 2 => match neighbour s sh k (fld w 35 34) with
      | some (m, j) => (getSheet s m).t.getLsbD j
      | none => fld w 24 24 == 1
    | _ => x.y.getLsbD k
  let b : Bool := match fld w 37 36 with
    | 0 => (plane s sh (fld w 79 68)).getLsbD k
    | 1 => x.y.getLsbD k
    | 2 => x.m.getLsbD k
    | _ => false
  let c : Bool := match fld w 33 32 with
    | 0 => x.c.getLsbD k
    | 1 => false
    | 2 => true
    | _ => x.m.getLsbD k
  4 * b2n a + 2 * b2n b + b2n c

/-- The run that LINE word w commands (R96). -/
def lineRun (w : AWord) (core : Nat) : Run :=
  ⟨fld w 87 81, fld w 80 69, fld w 68 64 + 1, fld w 63 57 + 1, fld w 51 46, core⟩

/-- The word has gone by: outside a loop it has left the queue, every member is in RUN, and nothing else of gang g but
what P says has changed. -/
def Passed (s t : State) (g : Nat) (P : GangSt → GangSt) : Prop :=
  (∀ sh ∈ members s g, getSheet t sh = { getSheet s sh with state := .run }) ∧ PlanesKept s t (fun _ _ => False) ∧
  getGang t g = P { getGang s g with queue := (getGang s g).queue.drop 1, body := [], lpos := 0 }

/-- Registers of hub h whose offsets l names apart, every register reads as before. -/
def RegsKept (s t : State) (h : Nat) (l : List Nat) : Prop :=
  ∀ j o, j < 2 → o < 0x4000000 → ¬ (j = h ∧ o ∈ l) → csr t j o = csr s j o

/-- Nothing but registers of hub h that l names has changed. -/
def OnlyRegs (s t : State) (h : Nat) (l : List Nat) : Prop := { t with csr := s.csr } = s ∧ RegsKept s t h l

/-- A free-running count of 32 bits that stops at its largest value, one higher. -/
def oneMore (s : State) (h o : Nat) : Nat := Nat.min (rdF s h o 31 0 + 1) 0xFFFFFFFF

/-! ## The mailbox -/

/-- The command of slot `slot`, rung by x, is at the front, its bytes are b and their check is right (R328). -/
def MbFront (s : State) (h : Hub) (slot : Fin 8) (x : Bell) (b : Bytes) : Prop :=
  live s h = true ∧ frontBell s h slot = some x ∧ cmdBytes s h slot = b ∧ byteAt b 63 = crc8 (b.take 63).reverse

/-- After hand-off, with no stroke begun: no command is refused by the state of the device. -/
def MbServed (s : State) (h : Hub) : Prop := strokeOf s h = .none ∧ bootOf s h = .done

/-- Command b of the slot has been answered: status, tag, results and check, the done bit, and the bell is gone (R327). -/
def MbAnswer (t : State) (h : Hub) (slot : Fin 8) (b : Bytes) (status : Nat) (res : Bytes) : Prop :=
  let r := (List.range 16).flatMap (fun k => natLe 4 (csr t h (R.MBRSP slot k)).toNat)
  leAt r 0 2 = status ∧ sub r 2 2 = sub b 2 2 ∧ sub r 8 55 = sub res 0 55 ∧ byteAt r 63 = crc8 (r.take 63).reverse ∧
  rdB t h R.MBDONE slot = true ∧ rdB t h R.MBDB slot = false ∧ ∀ y ∈ bellsOf t h, y.slot ≠ slot.val

/-- Nothing but the mailbox's own registers and queue has changed. -/
def OnlyMailbox (s t : State) (h : Hub) (slot : Fin 8) : Prop :=
  OnlyRegs { s with lan := t.lan } t h (R.MBDONE :: R.MBDB :: (List.range 16).map (fun k => R.MBRSP slot k))

end Sys2Proof.Machine
end

