-- ==== Sys2Proof/Certificates/Slice0/Obligations.lean ====
section
/-! DEFINITION. Statements for the provers, from the rules of the spec. -/

open Sys2Proof Sys2Proof.Machine

/-! ## The queue and reset -/

/-- A step takes the front command and runs it with the queue's rest. On an empty queue the block idles (assumption 2). -/
def Obligations.StepTakesFront : Prop :=
  (∀ (c : Instr) (s : State) (rest : List Instr), s.pending = c :: rest → step s = exec c { s with pending := rest }) ∧
  (∀ s : State, s.pending = [] → step s = .next s)

/-! ## Integer instructions -/

/-- R172, R173: sums and differences, modulo 2^64, with N, Z, C and V where S = 1 or the row always sets them. -/
def Obligations.SumsAndDifferences : Prop :=
  ∀ (s f : State) (c : CoreId) (sf : Bool) (rd ra rb : Reg) (imm : BitVec 12),
    let k := getCore f (coreIx c)
    let a := k.gr ra
    let b := k.gr rb
    let x := imm.signExtend 64
    let p := k.pstat
    let cy := b2n (p.getLsbD 2)
    (Begins s f c [ra, rb] [rd] sf →
      Gives s f c (.add c sf rd ra rb) rd (a + b) (if sf then sumFlags p a b 0 else p) ∧
      Gives s f c (.sub c sf rd ra rb) rd (a - b) (if sf then differenceFlags p a b 0 else p)) ∧
    (Begins s f c [ra, rb] [rd] true →
      Gives s f c (.adc c sf rd ra rb) rd (a + b + BitVec.ofNat 64 cy) (if sf then sumFlags p a b cy else p) ∧
      Gives s f c (.sbc c sf rd ra rb) rd (a - b - BitVec.ofNat 64 (1 - cy))
        (if sf then differenceFlags p a b (1 - cy) else p)) ∧
    (Begins s f c [ra, rb] [] true → Gives s f c (.cmp c sf rd ra rb) 0 0 (differenceFlags p a b 0)) ∧
    (Begins s f c [ra] [rd] false → Gives s f c (.addi c rd ra imm) rd (a + x) p) ∧
    (Begins s f c [ra] [rd] true → Gives s f c (.addis c rd ra imm) rd (a + x) (sumFlags p a x 0)) ∧
    (Begins s f c [ra] [] true → Gives s f c (.cmpi c rd ra imm) 0 0 (differenceFlags p a x 0))

/-- R172, R173: bitwise operations; C and V stay. R172, R173: comparisons into a register, minimum and maximum; no flag
changes. -/
def Obligations.BitwiseAndOrderResults : Prop :=
  (∀ (s f : State) (c : CoreId) (sf : Bool) (rd ra rb : Reg) (imm : BitVec 12),
    let k := getCore f (coreIx c)
    let a := k.gr ra
    let b := k.gr rb
    let z := imm.setWidth 64
    let p := k.pstat
    let q (r : W64) : W32 := if sf then bitFlags p r else p
    (Begins s f c [ra, rb] [rd] sf →
      Gives s f c (.and c sf rd ra rb) rd (a &&& b) (q (a &&& b)) ∧
      Gives s f c (.or c sf rd ra rb) rd (a ||| b) (q (a ||| b)) ∧
      Gives s f c (.xor c sf rd ra rb) rd (a ^^^ b) (q (a ^^^ b)) ∧
      Gives s f c (.andn c sf rd ra rb) rd (a &&& ~~~b) (q (a &&& ~~~b))) ∧
    (Begins s f c [ra] [rd] false →
      Gives s f c (.andi c rd ra imm) rd (a &&& z) p ∧
      Gives s f c (.ori c rd ra imm) rd (a ||| z) p ∧
      Gives s f c (.xori c rd ra imm) rd (a ^^^ z) p ∧
      Gives s f c (.shori c rd ra imm) rd (a * 4096 ||| z) p)) ∧
  (∀ (s f : State) (c : CoreId) (rd ra rb : Reg) (imm : BitVec 12),
    let k := getCore f (coreIx c)
    let a := k.gr ra
    let b := k.gr rb
    let x : W64 := imm.signExtend 64
    let p := k.pstat
    (Begins s f c [ra, rb] [rd] false →
      Gives s f c (.slt c rd ra rb) rd (if a.toInt < b.toInt then 1 else 0) p ∧
      Gives s f c (.sltu c rd ra rb) rd (if a.toNat < b.toNat then 1 else 0) p ∧
      Gives s f c (.min c rd ra rb) rd (BitVec.ofInt 64 (Min.min a.toInt b.toInt)) p ∧
      Gives s f c (.max c rd ra rb) rd (BitVec.ofInt 64 (Max.max a.toInt b.toInt)) p ∧
      Gives s f c (.minu c rd ra rb) rd (BitVec.ofNat 64 (Min.min a.toNat b.toNat)) p ∧
      Gives s f c (.maxu c rd ra rb) rd (BitVec.ofNat 64 (Max.max a.toNat b.toNat)) p) ∧
    (Begins s f c [ra] [rd] false →
      Gives s f c (.slti c rd ra imm) rd (if a.toInt < x.toInt then 1 else 0) p ∧
      Gives s f c (.sltiu c rd ra imm) rd (if a.toNat < x.toNat then 1 else 0) p))

/-- R174: shifts and rotations by 0 to 63 and the bit operations, each bit of the result; no flag changes. -/
def Obligations.ShiftAndBitResults : Prop :=
  ∀ (s f : State) (c : CoreId) (rd ra rb : Reg) (sh : BitVec 6),
    let k := getCore f (coreIx c)
    let a := k.gr ra
    let p := k.pstat
    let n := (k.gr rb).toNat % 64
    let m := sh.toNat
    let left (n : Nat) : W64 := BitVec.ofNat 64 (a.toNat * 2 ^ n)
    let right (n : Nat) : W64 := BitVec.ofNat 64 (a.toNat / 2 ^ n)
    let arith (n : Nat) : W64 := BitVec.ofInt 64 (a.toInt / 2 ^ n)
    let ror (n : Nat) : W64 := BitVec.ofNat 64 (a.toNat / 2 ^ n + a.toNat * 2 ^ (64 - n))
    (Begins s f c [ra, rb] [rd] false →
      Gives s f c (.sll c rd ra rb) rd (left n) p ∧ Gives s f c (.srl c rd ra rb) rd (right n) p ∧
      Gives s f c (.sra c rd ra rb) rd (arith n) p ∧ Gives s f c (.ror c rd ra rb) rd (ror n) p ∧
      Gives s f c (.bext c rd ra rb sh) rd (BitVec.ofNat 64 (a.toNat / 2 ^ n % 2 ^ (m + 1))) p) ∧
    (Begins s f c [ra] [rd] false →
      Gives s f c (.slli c rd ra sh) rd (left m) p ∧ Gives s f c (.srli c rd ra sh) rd (right m) p ∧
      Gives s f c (.srai c rd ra sh) rd (arith m) p ∧ Gives s f c (.rori c rd ra sh) rd (ror m) p ∧
      (∃ z, z ≤ 64 ∧ Gives s f c (.clz c rd ra) rd (BitVec.ofNat 64 z) p ∧ a.toNat < 2 ^ (64 - z) ∧
        (z < 64 → 2 ^ (63 - z) ≤ a.toNat)) ∧
      (∃ z, z ≤ 64 ∧ Gives s f c (.ctz c rd ra) rd (BitVec.ofNat 64 z) p ∧ 2 ^ z ∣ a.toNat ∧
        (z < 64 → a.getLsbD z = true) ∧ (z = 64 → a = 0)) ∧
      Gives s f c (.popc c rd ra) rd (BitVec.ofNat 64 ((List.range 64).map (fun j => b2n (a.getLsbD j))).sum) p ∧
      (∃ v, Gives s f c (.bswap c rd ra) rd v p ∧ ∀ j < 8, fld v (8 * j + 7) (8 * j) = fld a (63 - 8 * j) (56 - 8 * j)))

/-- R175, R176: products, quotients and remainders; the multiplies change no flag, the divisions V alone. -/
def Obligations.ProductsAndQuotients : Prop :=
  ∀ (s f : State) (c : CoreId) (rd ra rb : Reg),
    let k := getCore f (coreIx c)
    let a := k.gr ra
    let b := k.gr rb
    let p := k.pstat
    let v (x : Bool) : W32 := nzcv p (p.getLsbD 0) (p.getLsbD 1) (p.getLsbD 2) x
    (Begins s f c [ra, rb] [rd] false →
      Gives s f c (.mul c rd ra rb) rd (BitVec.ofNat 64 (a.toNat * b.toNat)) p ∧
      Gives s f c (.mulh c rd ra rb) rd (BitVec.ofInt 64 (a.toInt * b.toInt / 2 ^ 64)) p ∧
      Gives s f c (.mulhu c rd ra rb) rd (BitVec.ofNat 64 (a.toNat * b.toNat / 2 ^ 64)) p ∧
      Gives s f c (.mul32 c rd ra rb) rd
        (BitVec.ofInt 64 ((a.setWidth 32).toInt * (b.setWidth 32).toInt)) p) ∧
    (Begins s f c [ra, rb] [rd] true →
      (b ≠ 0 →
        Gives s f c (.divu c rd ra rb) rd (BitVec.ofNat 64 (a.toNat / b.toNat)) (v false) ∧
        Gives s f c (.remu c rd ra rb) rd (BitVec.ofNat 64 (a.toNat % b.toNat)) (v false)) ∧
      (b ≠ 0 → ¬ (a.toInt = -2 ^ 63 ∧ b.toInt = -1) →
        Gives s f c (.div c rd ra rb) rd (BitVec.ofInt 64 (a.toInt.tdiv b.toInt)) (v false) ∧
        Gives s f c (.rem c rd ra rb) rd (BitVec.ofInt 64 (a.toInt.tmod b.toInt)) (v false)) ∧
      (a.toInt = -2 ^ 63 ∧ b.toInt = -1 →
        Gives s f c (.div c rd ra rb) rd a (v true) ∧ Gives s f c (.rem c rd ra rb) rd 0 (v true)) ∧
      (b = 0 → p.getLsbD 8 = false →
        Gives s f c (.div c rd ra rb) rd (BitVec.allOnes 64) (v true) ∧
        Gives s f c (.divu c rd ra rb) rd (BitVec.allOnes 64) (v true) ∧
        Gives s f c (.rem c rd ra rb) rd a (v true) ∧ Gives s f c (.remu c rd ra rb) rd a (v true)))

/-- R178, R180: on operands whose nibbles are all decimal digits. R179: with CNT = 16 and rd = 0, BTOD leaves the sixteen
digits of ra mod 10^16 and DTOB the value of the digits; CNT ends at 0. -/
def Obligations.DecimalResults : Prop :=
  (∀ (s f : State) (c : CoreId) (rd ra rb : Reg),
    let k := getCore f (coreIx c)
    let a := k.gr ra
    let b := k.gr rb
    let x := decimalValue a
    let y := decimalValue b
    let n := Min.min ((k.gr rb).toNat % 32) 16
    let dec (p : W32) (dc : Bool) : W32 := (p &&& ~~~(0x10 : W32)) ||| BitVec.ofNat 32 (16 * b2n dc)
    let zdec (p : W32) (dc z : Bool) : W32 := (p &&& ~~~(0x12 : W32)) ||| BitVec.ofNat 32 (16 * b2n dc + 2 * b2n z)
    allDigits a →
      (allDigits b → Begins s f c [ra, rb] [rd] true →
        (∃ r, allDigits r ∧ decimalValue r = (x + y) % 10 ^ 16 ∧
          Gives s f c (.dadd c rd ra rb) rd r (zdec k.pstat (decide (10 ^ 16 ≤ x + y)) (decide (r = 0)))) ∧
        (∃ r, allDigits r ∧ decimalValue r = (10 ^ 16 + x - y) % 10 ^ 16 ∧
          Gives s f c (.dsub c rd ra rb) rd r (zdec k.pstat (decide (x < y)) (decide (r = 0))))) ∧
      (allDigits b → Begins s f c [ra, rb] [] true →
        Gives s f c (.dcmp c ra rb) 0 0 (zdec k.pstat (decide (x < y)) (decide (x = y)))) ∧
      (Begins s f c [ra] [rd] true → Gives s f c (.dadj c rd ra) rd a (zdec k.pstat false (decide (a = 0)))) ∧
      (Begins s f c [ra, rb] [rd] false →
        Gives s f c (.dshl c rd ra rb) rd (BitVec.ofNat 64 (a.toNat * 16 ^ n))
          (dec k.pstat (decide (10 ^ 16 ≤ x * 10 ^ n))) ∧
        Gives s f c (.dshr c rd ra rb) rd (BitVec.ofNat 64 (a.toNat / 16 ^ n))
          (dec k.pstat (decide (1 ≤ n ∧ 5 ≤ x / 10 ^ (n - 1) % 10))))) ∧
  (∀ (s f : State) (c : CoreId) (rd ra : Reg),
    let i := coreIx c
    let k := getCore f i
    let a := k.gr ra
    Begins s f c [rd, ra] [rd, ra] false → eventDue k = false → haltDue f i = false → k.stepReq = false →
    rd ≠ ra → rd ≠ 0 → ra ≠ 0 → k.gr rd = 0 → k.cnt = 16 →
      Answers (.btod c rd ra) s (fun t =>
        OnlyCore f t i ∧ (getCore t i).cnt = 0 ∧ allDigits ((getCore t i).gr rd) ∧
        decimalValue ((getCore t i).gr rd) = a.toNat % 10 ^ 16 ∧
        (getCore t i).gr ra = BitVec.ofNat 64 (a.toNat / 10 ^ 16) ∧
        (getCore t i).pstat = (k.pstat &&& ~~~(0x10 : W32)) ||| BitVec.ofNat 32 (16 * b2n (decide (10 ^ 16 ≤ a.toNat))) ∧
        (getCore t i).pc = k.pc + 4 ∧ ∀ r, r ≠ rd.val → r ≠ ra.val → (getCore t i).gr r = k.gr r) ∧
      (allDigits a → Answers (.dtob c rd ra) s (fun t =>
        OnlyCore f t i ∧ (getCore t i).cnt = 0 ∧ (getCore t i).gr rd = BitVec.ofNat 64 (decimalValue a) ∧
        (getCore t i).gr ra = 0 ∧ (getCore t i).pstat = k.pstat &&& ~~~(0x10 : W32) ∧
        (getCore t i).pc = k.pc + 4 ∧ ∀ r, r ≠ rd.val → r ≠ ra.val → (getCore t i).gr r = k.gr r)))

/-- R181: branches and jumps; a link is the address after the branch, and JLR takes its target before rd is written. -/
def Obligations.BranchTargets : Prop :=
  ∀ (s f : State) (c : CoreId) (rd ra : Reg) (d26 : BitVec 26) (d22 : BitVec 22) (cond : BitVec 4),
    let i := coreIx c
    let k := getCore f i
    let link : W64 := (k.pc + 4).setWidth 64
    let far (d : Int) : BitVec 48 := BitVec.ofInt 48 (k.pc.toNat + 4 * d)
    let goes (x : Instr) (pc : BitVec 48) (r : Nat) (v : W64) : Prop :=
      Answers x s (fun t => OnlyCore f t i ∧ SameBeyondRegs f t i ∧ GprSet f t i r v ∧ (getCore t i).pc = pc ∧
        (getCore t i).pstat = k.pstat)
    (Begins s f c [] [] false → goes (.br c d26) (far d26.toInt) 0 0) ∧
    (Begins s f c [] [31] false → goes (.bl c d26) (far d26.toInt) 31 link) ∧
    (Begins s f c [] [] (decide (cond.toNat < 14)) →
      ((branchConds k.pstat).getD cond.toNat false = true → goes (.bcc c cond d22) (far d22.toInt) 0 0) ∧
      ((branchConds k.pstat).getD cond.toNat false = false → goes (.bcc c cond d22) (k.pc + 4) 0 0)) ∧
    ((k.gr ra).toNat % 4 = 0 →
      (Begins s f c [ra] [] false → goes (.jr c ra) ((k.gr ra).setWidth 48) 0 0) ∧
      (Begins s f c [ra] [rd] false → goes (.jlr c rd ra) ((k.gr ra).setWidth 48) rd link))

/-! ## Loads, stores, locked accesses, block operations and prefixes -/

/-- R182, R211: what a load writes once its access is answered with v from state g: rd zero- or sign-extended, with U the
base last; nothing else. -/
def Obligations.LoadResults : Prop :=
  ∀ (s f g : State) (c : CoreId) (sz : BitVec 2) (sx u : Bool) (off : BitVec 12) (rd ra rb : Reg) (v : W64),
    let i := coreIx c
    let k := getCore f i
    let n := 2 ^ sz.toNat
    let ea := k.gr ra + off.signExtend 64 * BitVec.ofNat 64 n
    let ex := k.gr ra + k.gr rb * BitVec.ofNat 64 n
    let x : W64 := if sx then BitVec.ofInt 64 (BitVec.ofNat (8 * n) v.toNat).toInt else v
    (Begins s f c [ra] (if u then [rd.val, ra.val] else [rd.val]) false →
      ¬ (sx = true ∧ sz = 3) → ¬ (u = true ∧ rd = ra) →
      coreLoadV f i ea n (portFin false sx false rd u ra ea) = .ok (g, v) →
      Answers (.load c sz sx u off rd ra) s (fun t =>
        CoreBecomes g t i
          (if u then (((getCore g i).setG rd x).setG ra ea).retired else ((getCore g i).setG rd x).retired))) ∧
    (Begins s f c [ra, rb] [rd] false → ¬ (sx = true ∧ sz = 3) →
      coreLoadV f i ex n (portFin false sx false rd false ra ex) = .ok (g, v) →
      Answers (.loadIndexed c sz sx rd ra rb) s (fun t =>
        CoreBecomes g t i ((getCore g i).setG rd x).retired)) ∧
    (BeginsFp s f c [ra] [] false → sz ≠ 0 →
      coreLoadV f i ea n (portFin false false true rd false ra ea) = .ok (g, v) →
      Answers (.fpLoad c sz off rd ra) s (fun t => CoreBecomes g t i ((getCore g i).setFr rd v).retired))

/-- R182, R211: a store of the low bytes of G[rd] or F[rd], once its access is taken in state g: with U the base takes the
address; no other register changes. -/
def Obligations.StoreResults : Prop :=
  ∀ (s f g : State) (c : CoreId) (sz : BitVec 2) (u : Bool) (off : BitVec 12) (rd ra rb : Reg),
    let i := coreIx c
    let k := getCore f i
    let n := 2 ^ sz.toNat
    let ea := k.gr ra + off.signExtend 64 * BitVec.ofNat 64 n
    let ex := k.gr ra + k.gr rb * BitVec.ofNat 64 n
    (Begins s f c [rd, ra] (if u then [ra.val] else []) false → coreStoreV f i ea n (k.gr rd) = .ok (g, ()) →
      Answers (.store c sz u off rd ra) s (fun t =>
        CoreBecomes g t i (if u then ((getCore g i).setG ra ea).retired else (getCore g i).retired))) ∧
    (Begins s f c [rd, ra, rb] [] false → coreStoreV f i ex n (k.gr rd) = .ok (g, ()) →
      Answers (.storeIndexed c sz rd ra rb) s (fun t => CoreBecomes g t i (getCore g i).retired)) ∧
    (BeginsFp s f c [ra] [] false → sz ≠ 0 → coreStoreV f i ea n (k.fr rd) = .ok (g, ()) →
      Answers (.fpStore c sz off rd ra) s (fun t => CoreBecomes g t i (getCore g i).retired))

/-- R182, R183, R14: an access of common memory: a load gives the n bytes at the address, low byte first, and changes
nothing; a store changes those bytes and no other byte of memory, and keeps every register of the core. It rests also
on the model's choices in assumption 5 (what unlisted bytes read as). -/
def Obligations.CommonMemoryAccess : Prop :=
  ∀ (f : State) (i : Nat) (ea v : W64) (n : Nat) (fin : Option PortFin), n ∈ [1, 2, 4, 8] →
    let k := absKey (i / 32) ea.toNat
    (CommonAccess f i ea n 1 → coreLoadV f i ea n fin = .ok (f, BitVec.ofNat 64 (littleEndian f k n))) ∧
    (CommonAccess f i ea n 2 → ∃ g, coreStoreV f i ea n v = .ok (g, ()) ∧ CoresAndMemory f g i ∧
      getCore g i = getCore f i ∧
      (∀ j < n, rb g (k + j) = BitVec.ofNat 8 (v.toNat / 256 ^ j)) ∧
      ∀ a, ¬ (k ≤ a ∧ a < k + n) → rb g a = rb f a)

/-- R183: a misaligned access raises ALIGN with the address, before any effect; so does an access of 1 or 2 bytes to CSR
space. R176, R181, R183: operands on which an instruction traps instead: a division by zero under DZE, a jump to an
address that is no multiple of 4. -/
def Obligations.MisalignmentAndOperandTraps : Prop :=
  (∀ (f : State) (i : Nat) (ea v : W64) (n : Nat) (fin : Option PortFin), n ∈ [1, 2, 4, 8] →
    (ea.toNat % n ≠ 0 ∨ (n < 4 ∧ ∃ h off, region (i / 32) ea.toNat = .csr h off)) →
      coreLoadV f i ea n fin = .error (.trap f trAlign ea) ∧ coreStoreV f i ea n v = .error (.trap f trAlign ea)) ∧
  (∀ (s f : State) (c : CoreId) (rd ra rb : Reg),
    let i := coreIx c
    let k := getCore f i
    (getCore s i).fpu = none → TrapReady f i →
    (Begins s f c [ra, rb] [rd] true → k.gr rb = 0 → k.pstat.getLsbD 8 = true →
      Answers (.div c rd ra rb) s (fun t => TrapEntered f t i k.pc 0x09 (k.gr ra) false) ∧
      Answers (.divu c rd ra rb) s (fun t => TrapEntered f t i k.pc 0x09 (k.gr ra) false) ∧
      Answers (.rem c rd ra rb) s (fun t => TrapEntered f t i k.pc 0x09 (k.gr ra) false) ∧
      Answers (.remu c rd ra rb) s (fun t => TrapEntered f t i k.pc 0x09 (k.gr ra) false)) ∧
    ((k.gr ra).toNat % 4 ≠ 0 →
      (Begins s f c [ra] [] false → Answers (.jr c ra) s (fun t => TrapEntered f t i k.pc 0x04 (k.gr ra) false)) ∧
      (Begins s f c [ra] [rd] false →
        Answers (.jlr c rd ra) s (fun t => TrapEntered f t i k.pc 0x04 (k.gr ra) false))))

/-- R185, R186: LDL takes a reservation, STC stores only under it and ends it, the atomics exchange; g is the state after
the checks, u the state after the read, w the state after the write. -/
def Obligations.LockedResults : Prop :=
  ∀ (s f g u w : State) (c : CoreId) (rd ra rb : Reg) (old : W64),
    let i := coreIx c
    let k := getCore f i
    let a := k.gr ra
    let held : Prop := (getCore g i).lladdr.getLsbD 0 = true ∧ (getCore g i).lladdr.toNat / 64 = a.toNat / 64
    (Begins s f c [ra] [rd] false → lockCheck f i a false = .ok (g, ()) → loadAt g i a.toNat 8 none = .ok (u, old) →
      Answers (.ldl c rd ra) s (fun t => CoreBecomes u t i
        { ((getCore u i).setG rd old).retired with lladdr := BitVec.ofNat 64 (a.toNat / 64 * 64 + 1) })) ∧
    (Begins s f c [ra, rb] [rd] false → lockCheck f i a false = .ok (g, ()) →
      (held → lockStore g i a.toNat (k.gr rb) = .ok (w, ()) →
        Answers (.stc c rd ra rb) s (fun t =>
          CoreBecomes w t i { ((getCore w i).setG rd 0).retired with lladdr := 0 })) ∧
      (¬ held → Answers (.stc c rd ra rb) s (fun t =>
        CoreBecomes g t i { ((getCore g i).setG rd 1).retired with lladdr := 0 }))) ∧
    (lockCheck f i a true = .ok (g, ()) → loadAt g i a.toNat 8 none = .ok (u, old) →
      (Begins s f c [rd, ra, rb] [rd] false → lockStore u i a.toNat (old + k.gr rb) = .ok (w, ()) →
        Answers (.aadd c rd ra rb) s (fun t => CoreBecomes w t i ((getCore w i).setG rd old).retired)) ∧
      (Begins s f c [rd, ra, rb] [rd] false → lockStore u i a.toNat (k.gr rb) = .ok (w, ()) →
        Answers (.aswap c rd ra rb) s (fun t => CoreBecomes w t i ((getCore w i).setG rd old).retired)) ∧
      (Begins s f c [rd, ra, rb] [rd] true →
        (old = k.gr rd → lockStore u i a.toNat (k.gr rb) = .ok (w, ()) →
          Answers (.acas c rd ra rb) s (fun t => CoreBecomes w t i
            { ((getCore w i).setG rd old).retired with pstat := (getCore w i).pstat ||| 2 })) ∧
        (old ≠ k.gr rd →
          Answers (.acas c rd ra rb) s (fun t => CoreBecomes u t i
            { ((getCore u i).setG rd old).retired with pstat := (getCore u i).pstat &&& ~~~(2 : W32) }))))

/-- R190: the last element of a block operation (CNT = 1), with the accesses it makes from f to g; and R190's check of
the pointers, before any effect. R188, R189: a prefixed ADD of rb to rd runs CNT times, none for CNT = 0; PC passes
the prefix and the word. REPZ stops after an iteration that leaves Z = 0 and REPNZ after one that leaves Z = 1, with
CNT counting the iterations left. The word is the encoding of ADD (R172), with S for REPZ and REPNZ. It rests also on
the model's choices in assumption 108 (the order of the pointer checks). -/
def Obligations.BlockElementsAndPrefixes : Prop :=
  (∀ (s f g1 g2 g3 g : State) (c : CoreId) (sz : BitVec 2) (rd ra : Reg) (x y : W64),
    let i := coreIx c
    let k := getCore f i
    let n := 2 ^ sz.toNat
    let step (p : Nat) (d : Core) : Core := d.setG p (d.gr p + BitVec.ofNat 64 n)
    rd ≠ ra → k.cnt = 1 → (getCore g i).ports = [] → (k.gr rd).toNat % n = 0 →
    ((k.gr ra).toNat % n = 0 → Begins s f c [rd, ra] [rd, ra] false →
      dataCheck f i (k.gr ra) n 1 2 = .ok (g1, ()) → dataCheck g1 i (k.gr rd) n 2 3 = .ok (g2, ()) →
      loadAt g2 i (k.gr ra).toNat n none = .ok (g3, x) → storeAt g3 i (k.gr rd).toNat n x = .ok (g, ()) →
      Answers (.bmove c sz rd ra) s (fun t =>
        CoreBecomes g t i { (step ra (step rd (getCore g i))).retired with cnt := (getCore g i).cnt - 1 })) ∧
    (Begins s f c [rd, ra] [rd] false → coreStoreV f i (k.gr rd) n (k.gr ra) = .ok (g, ()) →
      Answers (.bfill c sz rd ra) s (fun t =>
        CoreBecomes g t i { (step rd (getCore g i)).retired with cnt := (getCore g i).cnt - 1 })) ∧
    (∀ f', f' = updCore f i (fun d => { d with pstat := d.pstat ||| 2 }) →
      (k.gr ra).toNat % n = 0 → Begins s f c [rd, ra] [rd, ra] true →
      dataCheck f' i (k.gr rd) n 1 2 = .ok (g1, ()) → dataCheck g1 i (k.gr ra) n 1 2 = .ok (g2, ()) →
      loadAt g2 i (k.gr rd).toNat n none = .ok (g3, x) → loadAt g3 i (k.gr ra).toNat n none = .ok (g, y) →
      (x = y → Answers (.bcmp c sz rd ra) s (fun t =>
        CoreBecomes g t i { (step ra (step rd (getCore g i))).retired with cnt := (getCore g i).cnt - 1 })) ∧
      (x ≠ y → Answers (.bcmp c sz rd ra) s (fun t =>
        CoreBecomes g t i { (getCore g i).retired with
          pstat := ((getCore g i).pstat &&& ~~~(6 : W32)) ||| BitVec.ofNat 32 (4 * b2n (decide (y.toNat ≤ x.toNat))) })))) ∧
  (∀ (s f : State) (c : CoreId) (rd rb : Reg) (w0 : W32),
    let i := coreIx c
    let k := getCore f i
    let word (sf : Nat) : W32 := BitVec.ofNat 32 (0x02 * 2 ^ 26 + rd.val * 2 ^ 21 + rd.val * 2 ^ 16 + rb.val * 2 ^ 11 + sf * 2 ^ 10)
    let sum := k.gr rd + k.gr rb
    Begins s f c [] [] false → fetchAt f i (k.pc + 4) = .ok (f, w0) → k.fpu = none → rd ≠ 0 → rd ≠ rb →
    eventDue k = false → haltDue f i = false → k.stepReq = false → k.ports = [] → k.micro = none →
      (k.cnt = 0 → ∀ n ∈ [Instr.rep c (word 0), Instr.repz c (word 0), Instr.repnz c (word 0)],
        Answers n s (fun t => CoreBecomes f t i { k with pc := k.pc + 8 })) ∧
      (k.cnt ≠ 0 → Answers (.rep c (word 0)) s (fun t =>
        CoreBecomes f t i { k.setG rd (k.gr rd + k.cnt * k.gr rb) with cnt := 0, pc := k.pc + 8 })) ∧
      (k.cnt ≠ 0 → sum ≠ 0 → Answers (.repz c (word 1)) s (fun t =>
        CoreBecomes f t i { k.setG rd sum with
          cnt := k.cnt - 1, pc := k.pc + 8, pstat := sumFlags k.pstat (k.gr rd) (k.gr rb) 0 })) ∧
      (k.cnt ≠ 0 → sum = 0 → Answers (.repnz c (word 1)) s (fun t =>
        CoreBecomes f t i { k.setG rd sum with
          cnt := k.cnt - 1, pc := k.pc + 8, pstat := sumFlags k.pstat (k.gr rd) (k.gr rb) 0 })))

/-! ## System instructions and traps -/

/-- R192, R206, R218, R222, R167, R168: instructions that move special registers or nothing. -/
def Obligations.SystemInstructions : Prop :=
  ∀ (s f : State) (c : CoreId) (rd ra : Reg) (spr : BitVec 8),
    let i := coreIx c
    let k := getCore f i
    let x := k.gr ra
    let low : W32 := x.setWidth 32
    let n := spr.toNat
    (Begins s f c [] [] false →
      Answers (.nop c) s (fun t => CoreBecomes f t i k.retired) ∧
      Answers (.sync c) s (fun t => CoreBecomes f t i k.retired) ∧
      Answers (.sleep c) s (fun t => CoreBecomes f t i
        (if k.watch || k.array.isSome || k.memerr.isSome || k.preempt then k.retired
         else { k.retired with sleep := true }))) ∧
    (BeginsFp s f c [] [] false → Answers (.fbar c) s (fun t => CoreBecomes f t i k.retired)) ∧
    (BeginsFp s f c [] [rd] (n == 1) → n ≤ 0x0C →
      ∃ v, Answers (.mfs c rd spr) s (fun t => CoreBecomes f t i (k.setG rd v).retired) ∧
        (n = 0 → v = k.pc.setWidth 64) ∧ (n = 1 → v = k.pstat.setWidth 64) ∧ (n = 2 → v = k.cnt) ∧
        (n = 3 → v = k.fpcr.setWidth 64) ∧ (n = 4 → v = k.fpsr.setWidth 64) ∧ (n = 5 → v = k.ctx) ∧
        (n = 6 → v = k.tag) ∧ (n = 7 → v = k.epc) ∧ (n = 8 → v = k.trapc) ∧ (n = 9 → v = k.trapv) ∧
        (n = 10 → v = k.lladdr) ∧
        (n = 12 → v = BitVec.ofNat 64 (c.num.val + 32 * c.hub.val + 256 * corePart f i))) ∧
    (BeginsFp s f c [ra] [] (n == 1) → (1 ≤ n ∧ n ≤ 4) ∨ (7 ≤ n ∧ n ≤ 9) →
      ∃ k', Answers (.mts c spr ra) s (fun t => CoreBecomes f t i k'.retired) ∧
        (n = 1 → k' = { k with pstat := (k.pstat &&& ~~~(0x113F : W32)) ||| (low &&& 0x113F) }) ∧
        (n = 2 → k' = { k with cnt := x }) ∧
        (n = 3 → k' = if (low &&& 7).toNat ≤ 4 then { k with fpcr := low &&& 0x1FF } else k) ∧
        (n = 4 → k' = { k with fpsr := (k.fpsr &&& ~~~(0x3F : W32)) ||| (low &&& 0x3F) }) ∧
        (n = 7 → k' = { k with epc := x }) ∧ (n = 8 → k' = { k with trapc := x }) ∧ (n = 9 → k' = { k with trapv := x }))

/-- R214, R215, R192, R223, R224, R225: the trap that an instruction is for is entered. R216: ERET. It rests also on
the model's choices in assumption 114 (bits of PSTAT that ERET restores). -/
def Obligations.TrapEntriesAndReturns : Prop :=
  (∀ (s f : State) (c : CoreId) (imm : BitVec 15) (w : W32),
    let i := coreIx c
    let k := getCore f i
    let major := w.toNat / 2 ^ 26
    Begins s f c [] [] false → (getCore s i).fpu = none → TrapReady f i →
      Answers (.trap c imm) s (fun t => TrapEntered f t i (k.pc + 4) 0x0C (imm.setWidth 64) false) ∧
      (rdB f c.hub R.DBGCTL 31 = false →
        Answers (.brk c) s (fun t => TrapEntered f t i k.pc 0x0D 0x8 false)) ∧
      ((decodeOp w).ill = true →
        Answers (.illegalWord c w) s (fun t => TrapEntered f t i k.pc 0x01 (w.setWidth 64) false)) ∧
      (major = 0x07 ∨ (0x1A ≤ major ∧ major ≤ 0x37) →
        Answers (.emulatedWord c w) s (fun t => TrapEntered f t i k.pc 0x02 (w.setWidth 64) false)) ∧
      (0x38 ≤ major → (getCore s i).micro = none → k.mode = false →
        Answers (.tableRangeWord c w) s (fun t => TrapEntered f t i k.pc 0x02 (w.setWidth 64) false))) ∧
  (∀ (s f : State) (c : CoreId), let i := coreIx c
    let k := getCore f i
    let back : Core := { k with pstat := (k.trapc >>> 32).setWidth 32 &&& 0x313F, lladdr := 0, pc := k.epc.setWidth 48 }
    BeginsFp s f c [] [] true →
      (k.pstat.getLsbD 13 = true → k.trapc.getLsbD 9 = false → Answers (.eret c) s (fun t => CoreBecomes f t i back)) ∧
      (∀ e t' v, k.pstat.getLsbD 13 = true → k.trapc.getLsbD 9 = true → k.shadow = some (e, t', v) →
        Answers (.eret c) s (fun t =>
          CoreBecomes f t i { back with epc := e, trapc := t', trapv := v, shadow := none })) ∧
      (k.pstat.getLsbD 13 = false → TrapReady f i →
        Answers (.eret c) s (fun t => TrapEntered f t i k.pc 0x0A 0 false)))

/-- R217: a trap that arrives at level 1 is a double trap: TNEST records it, EPC, TRAPC and TRAPV stay, the core is
out of service. R52, R112, R214, R218, R219: an event is taken at a boundary when the core accepts it, in the order
WATCH, ARRAY, MEMERR, and enters its trap with ASYNC = 1; a core that does not accept it goes on unchanged. It rests
also on the model's choices in assumption 107 (what an idle core records). -/
def Obligations.AsynchronousAndDoubleTraps : Prop :=
  (∀ (s f : State) (c : CoreId) (imm : BitVec 15), let i := coreIx c
    let k := getCore f i
    Begins s f c [] [] false → (getCore s i).fpu = none → k.fpePend = false →
    k.pstat.getLsbD 13 = true → k.trapc.getLsbD 9 = true →
      Answers (.trap c imm) s (fun t =>
        (getCore t i).rstate = .out ∧ (getCore t i).running = none ∧
        (getCore t i).epc = k.epc ∧ (getCore t i).trapc = k.trapc ∧ (getCore t i).trapv = k.trapv ∧
        csr t c.hub (R.TNEST c.num) = 0x8000000C ∧
        csr t c.hub (R.TNPCLO c.num) = (k.pc + 4).setWidth 32 ∧
        csr t c.hub (R.TNPCHI c.num) = ((k.pc + 4) >>> 32).setWidth 32)) ∧
  (∀ (s : State) (c : CoreId) (v : W64), let i := coreIx c
    let k := getCore s i
    k.isIdle = false →
    (atBoundary s i = true → k.pstat.getLsbD 12 = true → k.pstat.getLsbD 13 = false → TrapReady s i →
      (k.watch = true → Answers (.watchTrap c) s (fun t =>
        TrapEntered (updCore s i (fun d => { d with watch := false })) t i k.pc 0x0F 1 true)) ∧
      (k.watch = false → k.array = some v → Answers (.arrayTrap c) s (fun t =>
        TrapEntered (updCore s i (fun d => { d with array := none })) t i k.pc 0x0E v true)) ∧
      (k.watch = false → k.array = none → k.memerr = some v → Answers (.storeMemerr c) s (fun t =>
        TrapEntered (updCore s i (fun d => { d with memerr := none })) t i k.pc 0x06 v true))) ∧
    (k.pstat.getLsbD 12 = false ∨ k.pstat.getLsbD 13 = true →
      exec (.watchTrap c) s = .next s ∧ exec (.arrayTrap c) s = .next s ∧ exec (.storeMemerr c) s = .next s))

/-! ## Floating point -/

/-- R200, R207, R208, R210: a floating-point instruction issues with its operands and its own address; its result, flags
and exceptions come at completion, so nothing else changes. The one-operand and comparison forms issue likewise; a
field that the form does not use is 0. -/
def Obligations.FpIssue : Prop :=
  (∀ (s f : State) (c : CoreId) (fmt rz : Bool) (d x y z : Reg),
    let i := coreIx c
    let k := getCore f i
    let issues (n : Instr) (major func : Nat) (a b e : W64) : Prop :=
      Answers n s (fun t => CoreBecomes f t i { k.retired with
        fpu := some { major := major, func := BitVec.ofNat 11 func, rd := d, ra := x, a := a, b := b, c := e, pc := k.pc } })
    let m := 1024 * b2n fmt
    let q := 8 * b2n fmt
    let p := 64 * b2n fmt
    let r := 128 * b2n rz
    (BeginsFp s f c [] [] false →
      issues (.fadd c fmt d x y) 0x10 (m + 0x0) (k.fr x) (k.fr y) 0 ∧
      issues (.fsub c fmt d x y) 0x10 (m + 0x1) (k.fr x) (k.fr y) 0 ∧
      issues (.fmul c fmt d x y) 0x10 (m + 0x2) (k.fr x) (k.fr y) 0 ∧
      issues (.fdiv c fmt d x y) 0x10 (m + 0x3) (k.fr x) (k.fr y) 0 ∧
      issues (.fmin c fmt d x y) 0x10 (m + 0x5) (k.fr x) (k.fr y) 0 ∧
      issues (.fmax c fmt d x y) 0x10 (m + 0x6) (k.fr x) (k.fr y) 0 ∧
      issues (.fmadd c fmt d x y z) 0x11 (q + 0x00) (k.fr x) (k.fr y) (k.fr z) ∧
      issues (.fmsub c fmt d x y z) 0x11 (q + 0x10) (k.fr x) (k.fr y) (k.fr z) ∧
      issues (.fnmadd c fmt d x y z) 0x11 (q + 0x20) (k.fr x) (k.fr y) (k.fr z) ∧
      issues (.fnmsub c fmt d x y z) 0x11 (q + 0x30) (k.fr x) (k.fr y) (k.fr z) ∧
      issues (.fcvtS2d c d x) 0x12 0x0 (k.fr x) 0 0 ∧ issues (.fcvtD2s c d x) 0x12 0x1 (k.fr x) 0 0 ∧
      issues (.fcvtH2s c d x) 0x12 0x2 (k.fr x) 0 0 ∧ issues (.fcvtS2h c d x) 0x12 0x3 (k.fr x) 0 0 ∧
      issues (.fcvtH2d c d x) 0x12 0x4 (k.fr x) 0 0 ∧ issues (.fcvtD2h c d x) 0x12 0x5 (k.fr x) 0 0 ∧
      issues (.fcvti c fmt rz d x) 0x12 (r + p + 0x8) (k.fr x) 0 0 ∧
      issues (.fcvtiu c fmt rz d x) 0x12 (r + p + 0x9) (k.fr x) 0 0 ∧
      issues (.fmvgf c d x) 0x12 0xC (k.fr x) 0 0 ∧ issues (.fclass c fmt d x) 0x12 (p + 0xE) (k.fr x) 0 0) ∧
    (BeginsFp s f c [x] [] false →
      issues (.icvtf c fmt d x) 0x12 (p + 0xA) (k.gr x) 0 0 ∧ issues (.icvtfu c fmt d x) 0x12 (p + 0xB) (k.gr x) 0 0 ∧
      issues (.fmvfg c d x) 0x12 0xD (k.gr x) 0 0)) ∧
  (∀ (s f : State) (c : CoreId) (fmt : Bool) (d x y : Reg),
    let i := coreIx c
    let k := getCore f i
    let m := 1024 * b2n fmt
    (BeginsFp s f c [] [] false → ∀ (n : Instr) (op : Nat),
      (n = .fsqrt c fmt d x ∧ op = 4) ∨ (n = .fabs c fmt d x ∧ op = 7) ∨ (n = .fneg c fmt d x ∧ op = 8) ∨
        (n = .fmov c fmt d x ∧ op = 9) →
      ∃ o : FpOp, o.major = 0x10 ∧ o.func = BitVec.ofNat 11 (m + op) ∧ o.rd = d ∧ o.a = k.fr x ∧ o.pc = k.pc ∧
        Answers n s (fun t => CoreBecomes f t i { k.retired with fpu := some o })) ∧
    (BeginsFp s f c [] [] true → ∀ (n : Instr) (op : Nat),
      (n = .fcmp c fmt x y ∧ op = 0xA) ∨ (n = .fcmpe c fmt x y ∧ op = 0xB) →
      ∃ o : FpOp, o.major = 0x10 ∧ o.func = BitVec.ofNat 11 (m + op) ∧ o.a = k.fr x ∧ o.b = k.fr y ∧ o.pc = k.pc ∧
        Answers n s (fun t => CoreBecomes f t i { k.retired with fpu := some o })))

/-- R200, R205, R206: completion. Either the highest enabled sub-cause becomes pending with the instruction's address and
nothing else is written, or the flags raised join FPSR and the destination is written. R207, R210: the operations that
raise nothing, exactly: sign operations and moves of all bits, and FCLASS with one bit set. -/
def Obligations.FpCompletion : Prop :=
  (∀ (s : State) (c : CoreId) (o : FpOp), let i := coreIx c
    let k := getCore s i
    let r := fpCompute o k.fpcr
    serving s c.hub = true → domOf s (64 * c.hub.val + 36 + c.num.val / 8) = .on → k.fpu = some o →
      (∀ n, fpCause r.fx k.fpcr = some n → Answers (.fpComplete c) s (fun t => CoreBecomes s t i
        { k with fpu := none, fpePc := o.pc,
                 fpsr := (k.fpsr &&& ~~~(0xF100 : W32)) ||| BitVec.ofNat 32 (n * 4096 + 256) })) ∧
      (fpCause r.fx k.fpcr = none →
        let k' : Core := { k with fpu := none, fpsr := k.fpsr ||| BitVec.ofNat 32 (fpFlags r.fx) }
        Answers (.fpComplete c) s (fun t =>
          (r.dst = .freg → CoreBecomes s t i (k'.setFr o.rd r.val)) ∧
          (r.dst = .greg → CoreBecomes s t i (k'.setG o.rd r.val)) ∧
          (∀ q, r.dst = .flags q → CoreBecomes s t i { k' with pstat := fcmpFlags k.pstat q })))) ∧
  (∀ (o : FpOp) (fpcr : W32),
    let op := o.func.toNat % 64
    let b32 : Bool := if o.major = 0x10 then o.func.getLsbD 10 else o.func.getLsbD 6
    let w := if b32 then 32 else 64
    let n := o.a.toNat % 2 ^ w
    let quiet (r : FpOut) : Prop := fpFlags r.fx = 0 ∧ fpCause r.fx fpcr = none
    (o.major = 0x10 →
      (op = 7 → quiet (fpCompute o fpcr) ∧ (fpCompute o fpcr).dst = .freg ∧
        (fpCompute o fpcr).val.toNat = n % 2 ^ (w - 1)) ∧
      (op = 8 → quiet (fpCompute o fpcr) ∧ (fpCompute o fpcr).dst = .freg ∧
        (fpCompute o fpcr).val.toNat = (n + 2 ^ (w - 1)) % 2 ^ w) ∧
      (op = 9 → quiet (fpCompute o fpcr) ∧ (fpCompute o fpcr).dst = .freg ∧ (fpCompute o fpcr).val.toNat = n)) ∧
    (o.major = 0x12 →
      (op = 0xC → quiet (fpCompute o fpcr) ∧ (fpCompute o fpcr).dst = .greg ∧ (fpCompute o fpcr).val = o.a) ∧
      (op = 0xD → quiet (fpCompute o fpcr) ∧ (fpCompute o fpcr).dst = .freg ∧ (fpCompute o fpcr).val = o.a) ∧
      (op = 0xE → quiet (fpCompute o fpcr) ∧ (fpCompute o fpcr).dst = .greg ∧
        ∃ b, b < 10 ∧ (fpCompute o fpcr).val = BitVec.ofNat 64 (2 ^ b))))

/-! ## Tokens, contexts and ordered flows from a core -/

/-- R118, R193, R194: a token that passes every check of R118, to a hub that is reached, enters the token path; a vector
sends its values to consecutive ports. A token that fails a check raises TOKEN with its tag and the reason. -/
def Obligations.TokenSends : Prop :=
  ∀ (s f g : State) (c : CoreId) (hsel n : BitVec 2) (rd ra rb : Reg) (d : Desc) (r : Nat),
    let i := coreIx c
    let k := getCore f i
    let p := corePart f i
    let tag := k.gr ra
    let dst := if hsel = 0 then c.hub.val else if hsel = 1 then 1 - c.hub.val else fld (k.gr rd) 12 12
    let tok (j : Nat) : Tok := mkTok (withPort tag (tagPort tag + j)) (k.gr (rb.val + j)) dst (.core c) p
    let sent (m : Nat) (t : State) : Prop :=
      getCore t i = { (getCore g i).retired with sent := (getCore g i).sent + m } ∧ t.mem = g.mem ∧ t.csr = g.csr ∧
      t.tok = { g.tok with transit := g.tok.transit ++ (List.range m).map tok }
    (hsel ≠ 3 ∧ (hsel ≠ 2 → rd = 0)) → reach g c.hub dst = true → pathAccepts g dst (mkTok tag 0 dst (.core c) p) = true →
    (tokenCheck f dst p false tag = (g, .inr d) → Begins s f c [rd, ra, rb] [] false → tagPort tag < d.arity →
      Answers (.send c hsel rd ra rb) s (sent 1)) ∧
    (tokenCheck f dst p false tag = (g, .inr d) → rb.val + n.toNat ≤ 31 →
      Begins s f c (rd :: ra :: (List.range (n.toNat + 1)).map (fun j => rb.val + j)) [] false →
      tagPort tag + n.toNat < d.arity → Answers (.sendv c hsel n rd ra rb) s (sent (n.toNat + 1))) ∧
    (tokenCheck f dst p false tag = (g, .inl r) → Begins s f c [rd, ra, rb] [] false → (getCore s i).fpu = none →
      TrapReady g i → r < 16 →
      Answers (.send c hsel rd ra rb) s (fun t =>
        TrapEntered g t i (getCore g i).pc 0x0B ((tag &&& ~~~(0xF : W64)) ||| BitVec.ofNat 64 r) false))

/-- R124, R125, R154: a context is allocated to the core's partition, freed, and cancelled; a request that finds no
quota or a throttle gives the codes of R124. R125, R154 to R157: a cancel removes what it selects; a context that
nothing names becomes FREE, last in order; a sweep ends. It rests also on the model's choices in assumptions 18 (which
FREE context is taken) and 20 (a cancel acts whole). -/
def Obligations.ContextsAndCancellation : Prop :=
  (∀ (s f g : State) (c : CoreId) (hsel : BitVec 2) (rd ra : Reg) (x : Nat),
    let i := coreIx c
    let h := c.hub.val
    let k := getCore f i
    let p := corePart f i
    let v := k.gr ra
    let vh := fld v 12 12
    let vx := fld v 11 0
    let kh := if hsel = 0 then h else if hsel = 1 then 1 - h else fld (k.gr rd) 12 12
    let cancel (hh xx : Nat) (key : Option (BitVec 56)) (pg : Bool) : Cancel :=
      { dst := hubFin hh, src := i, ctx := BitVec.ofNat 12 xx, key := key, purge := pg }
    let usable : Prop := bankList f h p ≠ [] ∧ rdB f h (R.BLTCTL p) 31 = true
    (Begins s f c [] [rd] false →
      (usable → ctxUsed f h p < rdF f h (R.CTXQ p) 28 16 → throttledNow f h p = false → freeCtx f h = (g, some x) →
        Answers (.ctxnew c rd) s (fun t => CoreIs t i (k.setG rd (BitVec.ofNat 64 (4096 * h + x))).retired ∧
          (getCtx t h x).state = .live ∧ (getCtx t h x).part = p ∧ (getCtx t h x).late = 0)) ∧
      (usable → ctxUsed f h p < rdF f h (R.CTXQ p) 28 16 → throttledNow f h p = true → freeCtx f h = (g, some x) →
        Answers (.ctxnew c rd) s (fun t => CoreIs t i (k.setG rd (BitVec.ofNat 64 (2 ^ 64 - 2))).retired ∧
          t.tok.ctxs = f.tok.ctxs)) ∧
      (¬ usable ∨ rdF f h (R.CTXQ p) 28 16 ≤ ctxUsed f h p →
        Answers (.ctxnew c rd) s (fun t => CoreIs t i (k.setG rd (BitVec.allOnes 64)).retired ∧
          t.tok.ctxs = f.tok.ctxs))) ∧
    (Begins s f c [ra] [] false → ctxOwned f i vh vx = true → reach f h vh = true →
      Answers (.ctxfree c ra) s (fun t => getCore t i = k.retired ∧ (getCtx t vh vx).state = .purge ∧
        t.tok.cancels = f.tok.cancels ++ [cancel vh vx none true]) ∧
      ((sweepsOf f vh).length < 16 → Answers (.cancelContext c ra) s (fun t => getCore t i = k.retired ∧
        t.tok = { f.tok with cancels := f.tok.cancels ++ [cancel vh vx none false] }))) ∧
    (Begins s f c [rd, ra] [] false → (hsel ≠ 3 ∧ (hsel ≠ 2 → rd = 0)) → ctxOwned f i kh (tagCtx v) = true →
      reach f h kh = true →
      Answers (.cancelKey c hsel rd ra) s (fun t => getCore t i = k.retired ∧
        t.tok = { f.tok with cancels := f.tok.cancels ++ [cancel kh (tagCtx v) (some (tagKey v)) false] }))) ∧
  (∀ (s : State) (h : Hub) (x : BitVec 12) (k : Cancel) (l : List Cancel),
    live s h = true →
    (takeCancel s h [] s.tok.cancels = some (k, l) →
      Answers (.cancelPoint h) s (fun t => t.tok.cancels = l ∧
        (∀ e ∈ t.tok.entries, e.hub = k.dst → selKey k.ctx k.key e.key = false) ∧
        (∀ b < 16, ∀ e ∈ getAq t k.dst b, selKey k.ctx k.key (tagKey e.tag) = false) ∧
        (∀ e ∈ inboxOf t k.dst, e.hub = k.dst → selKey k.ctx k.key e.key = false) ∧
        (k.key = none → t.tok.sweeps = s.tok.sweeps ++ [(k.dst, k.ctx, k.purge)]) ∧ t.arr = s.arr ∧ t.evi = s.evi)) ∧
    ((getCtx s h x.toNat).state = .purge → ctxNamed s h x.toNat = false →
      Answers (.contextReturnFree h x) s (fun t => OnlyTokens s t ∧ t.mem = s.mem ∧
        getCtx t h x.toNat = { getCtx s h x.toNat with state := .free, freed := s.tok.freeSeq + 1 } ∧
        ∀ j, j ≠ 4096 * h.val + x.toNat → tget (fun _ => ctxDflt) t.tok.ctxs j = tget (fun _ => ctxDflt) s.tok.ctxs j)) ∧
    (sweepsOf s h ≠ [] → Answers (.sweepEnd h) s (fun t =>
      sweepsOf t h = (sweepsOf s h).drop 1 ∧ t.tok.entries = s.tok.entries ∧ t.arr = s.arr ∧ t.evi = s.evi)))

/-- R158, R159: NEXT hands out the next sequence number with a pending entry of the running context; PUT fills an entry
with a token and SKIP with none. R158, R160, R161: a filled head leaves in sequence order, its token into the token
path; entries come back on chip within their share; enabling a flow starts both counts at 0. -/
def Obligations.OrderedFlows : Prop :=
  (∀ (s f g : State) (c : CoreId) (rd ra rb : Reg) (d : Desc) (e : Lig),
    let i := coreIx c
    let h := c.hub.val
    let k := getCore f i
    let p := corePart f i
    let v := k.gr ra
    let w := fld v 11 0
    let q : W32 := (v >>> 32).setWidth 32
    let dst := fld v 12 12
    let x := flowOf f h w
    let mine : Prop := flowEn f h w = true ∧ flowPart f h w = p
    let pendingEntry : Prop := (q - x.rel).toNat < flowPending x ∧ ligAt f h w q = some e ∧ e.fill = none
    mine →
    (Begins s f c [ra] [rd] false → flowPending x < 2 ^ 20 → ligUsed f h p < ligShare f h p →
      Answers (.flowseqNext c rd ra) s (fun t => CoreIs t i (k.setG rd (x.alloc.setWidth 64)).retired ∧
        flowOf t h w = { x with alloc := x.alloc + 1 } ∧
        t.dsp.ligs = f.dsp.ligs ++ [{ hub := c.hub, flow := w, seq := x.alloc, owner := k.ctx.setWidth 13, part := p,
                                      fill := none, onchip := true }])) ∧
    (Begins s f c [ra] [rd] false → flowPending x = 2 ^ 20 →
      Answers (.flowseqNext c rd ra) s (fun t => CoreBecomes f t i (k.setG rd (BitVec.allOnes 64)).retired)) ∧
    (Begins s f c [rd, ra, rb] [] false → pendingEntry → tokenCheck f dst p false (k.gr rb) = (g, .inr d) →
      Answers (.flowseqPut c rd ra rb) s (fun t => getCore t i = (getCore g i).retired ∧
        t.dsp.ligs = g.dsp.ligs.map (fun y => if isLig h w q y then
          { y with fill := some (some (mkTok (k.gr rb) (k.gr rd) dst (.core c) p)) } else y))) ∧
    (Begins s f c [ra] [] false → pendingEntry →
      Answers (.flowseqSkip c ra) s (fun t => getCore t i = k.retired ∧
        t.dsp.ligs = f.dsp.ligs.map (fun y => if isLig h w q y then { y with fill := some none } else y)))) ∧
  (∀ (s : State) (h : Hub) (f : BitVec 12) (w : Nat) (e : Lig) (k : Tok) (m : Master) (v : W32),
    live s h = true →
    let x := flowOf s h w
    let gone := s.dsp.ligs.filter (fun y => !(isLig h w x.rel y))
    (nextFlow s h = some w → headFilled s h w = some e → e.onchip = true →
      (e.fill = some (some k) → pathAccepts s k.dst k = true → reach s h k.dst = true →
        Answers (.ligatureRelease h) s (fun t => OnlyTokens s t ∧ t.dsp.ligs = gone ∧
          flowOf t h w = { x with rel := x.rel + 1 } ∧
          t.tok.transit = s.tok.transit ++ [{ k with src := .ligature }])) ∧
      (e.fill = some none → Answers (.ligatureRelease h) s (fun t => OnlyTokens s t ∧ t.dsp.ligs = gone ∧
        flowOf t h w = { x with rel := x.rel + 1 } ∧ t.tok.transit = s.tok.transit))) ∧
    (rdB s h R.TRCTL 31 = false → ligAt s h f.toNat (flowOf s h f.toNat).rel = some e → e.onchip = false →
      ligUsed s h e.part < ligShare s h e.part → bltServes s h e.part = true →
      Answers (.ligatureRefill h f) s (fun t => OnlyTokens s t ∧
        ∃ e', ligAt t h f.toNat (flowOf s h f.toNat).rel = some e' ∧ e' = { e with onchip := true })) ∧
    (masterPart s m = 0 → flowEn s h f.toNat = false → v.getLsbD 31 = true →
      Answers (.flowEnable m h f v) s (fun t => flowOf t h f.toNat = ⟨0, 0⟩ ∧
        csr t h (R.FLOW f.toNat) = v &&& 0xF0000000 ∧ t.cpu = s.cpu ∧ t.mem = s.mem)))

/-! ## The matching store and dispatch -/

/-- R116, R119, R122, R128: an arriving token that passes the checks becomes a ready instance when its codelet takes one
port, else joins its bank's queue; one that fails a check is counted and dropped. -/
def Obligations.TokenArrivals : Prop :=
  ∀ (s g : State) (h : Hub) (k : Tok) (l : List Tok) (d : Desc) (b r : Nat),
    let s1 : State := { s with tok := { s.tok with transit := l } }
    let x := getCtx s1 h (tagCtx k.tag)
    let part := match k.src with | .core _ => x.part | _ => k.part
    live s h = true → takeTransit h k.src s.tok.transit = some (k, l) → pathAccepts s h k = true →
    dispHeld s h x.part = none → k.chk = tagCheck k.tag → x.state = .live →
    (tokenCheck s1 h part (k.src == .stall) k.tag = (g, .inr d) → d.arity = 1 →
      Answers (.tokenArrival h k.src) s (fun t => OnlyTokens s t ∧ t.tok.transit = l ∧
        inboxOf t h = inboxOf g h ++ [{ hub := h, key := tagKey k.tag, cls := tagClass k.tag, arity := 1, vals := [k.value],
                                        entry := BitVec.ofNat 48 d.entry, part := x.part, noaff := d.noaff, nopre := d.nopre, frame := none, bank := 0 }])) ∧
    (tokenCheck s1 h part (k.src == .stall) k.tag = (g, .inr d) → d.arity ≠ 1 → keyBank g h x.part (tagKey k.tag) = some b →
      getSpill g h b = [] → (getAq g h b).length < 1024 →
      Answers (.tokenArrival h k.src) s (fun t => OnlyTokens s t ∧ t.tok.transit = l ∧ getAq t h b = getAq g h b ++ [k])) ∧
    (tokenCheck s1 h part (k.src == .stall) k.tag = (g, .inl r) →
      Answers (.tokenArrival h k.src) s (fun t => OnlyTokens s t ∧ t.tok.transit = l ∧ inboxOf t h = inboxOf g h ∧
        t.tok.aq = g.tok.aq))

/-- R129 to R132: a lookup that finds no entry and has a free way makes one; one that fills the last port makes a ready
instance with its values in port order; one whose set has entries outside the store waits for the blotter. R130: a
token whose port is present leaves its entry as it is and counts in MSDUP, without a trap or a record. R128, R133, R146: refills from
a blotter that answers bring the oldest records back, in order: up to 64 tokens of a bank, the oldest entry of a set into
a free way, up to 16 instances of the highest class with any. -/
def Obligations.LookupsAndBlotters : Prop :=
  (∀ (s g : State) (h : Hub) (b : Fin 16) (k : Tok) (l : List Tok) (d : Desc) (e : Entry),
    let key := tagKey k.tag
    let dry := setAq s h b l
    let wet := setBlook s h b l
    let full := e.vals.set (tagPort k.tag) (some k.value)
    let ready : Inst := { hub := e.hub, key := e.key, cls := Nat.max e.cls (tagClass k.tag), arity := e.arity,
                          vals := (full.take e.arity).map (fun v => v.getD 0), entry := BitVec.ofNat 48 d.entry, part := e.part,
                          noaff := d.noaff, nopre := d.nopre, frame := none, bank := e.bank }
    let noneExhausted : Prop := ∀ p < 8, poolTotal s h p ≤ poolPages s h p →
      poolTotal s h p = 0 ∨ rdB s h (R.SDSTAT p) 30 = true
    let duplicate (t : State) : Prop := t.tok.entries = s.tok.entries ∧ (noneExhausted → t.svc = s.svc) ∧
      (csr t h R.MSDUP).toNat = min ((csr s h R.MSDUP).toNat + 1) (2 ^ 32 - 1)
    let fresh (p : Place) : Entry :=
      { hub := h, bank := b, set := keySet key, key := key, arity := d.arity,
        vals := (List.range 4).map (fun j => if j = tagPort k.tag then some k.value else none), cls := tagClass k.tag,
        part := (getCtx s h (tagCtx k.tag)).part, place := p, chk := tagCheck (keyTag key 0) }
    live s h = true → (getCtx s h (tagCtx k.tag)).state = .live → sweeping s h (tagCtx k.tag) = false →
    dispHeld s h (bankOwner s h b) = none → rdB s h R.TRCTL 31 = false →
    (getAq s h b = k :: l → (getBlook s h b).any (fun u => tagKey u.tag == key) = false →
      (s.tok.entries.all (fun y => !(isEntry h key y)) = true → ovf s h b (keySet key) = 0 →
        readDesc dry h (tagCodelet k.tag) = (g, some d) → waysUsed g h b (keySet key) < 8 →
        Answers (.lookup h b) s (fun t => OnlyTokens s t ∧ getAq t h b = l ∧ t.tok.entries = g.tok.entries ++ [fresh .way])) ∧
      (s.tok.entries.find? (isEntry h key) = some e → e.place = .way → e.vals.getD (tagPort k.tag) none = none →
        presence full = 2 ^ e.arity - 1 →
        readDesc (setEntries dry (s.tok.entries.filter (fun y => !(isEntry h key y)))) h (tagCodelet k.tag) = (g, some d) →
        Answers (.lookup h b) s (fun t => OnlyTokens s t ∧ getAq t h b = l ∧ inboxOf t h = inboxOf s h ++ [ready] ∧
          t.tok.entries = s.tok.entries.filter (fun y => !(isEntry h key y)))) ∧
      (s.tok.entries.find? (isEntry h key) = some e → e.place = .way → (e.vals.getD (tagPort k.tag) none).isSome = true →
        Answers (.lookup h b) s (fun t => OnlyTokens s t ∧ getAq t h b = l ∧ duplicate t)) ∧
      (s.tok.entries.all (fun y => !(isEntry h key y)) = true → 0 < ovf s h b (keySet key) →
        (getBlook s h b).length < 32 →
        Answers (.lookup h b) s (fun t => OnlyTokens s t ∧ getAq t h b = l ∧ getBlook t h b = getBlook s h b ++ [k] ∧
          t.tok.entries = s.tok.entries))) ∧
    (getBlook s h b = k :: l → s.tok.entries.find? (isEntry h key) = some e →
      (e.place ≠ .way → e.chk = tagCheck (keyTag key 0) ∧ bltServes (setBlook s h b l) h e.part = true) →
      (e.vals.getD (tagPort k.tag) none).isSome = true →
      Answers (.blotterLookupDone h b) s (fun t => OnlyTokens s t ∧ getBlook t h b = l ∧ duplicate t)) ∧
    (getBlook s h b = k :: l → s.tok.entries.all (fun y => !(isEntry h key y)) = true →
      readDesc wet h (tagCodelet k.tag) = (g, some d) → waysUsed g h b (keySet key) < 8 →
      Answers (.blotterLookupDone h b) s (fun t => OnlyTokens s t ∧ getBlook t h b = l ∧
        t.tok.entries = g.tok.entries ++ [fresh .way]))) ∧
  (∀ (s : State) (h : Hub) (b : Fin 16) (set : BitVec 11) (c : CoreId) (e : Entry) (j : Nat),
    rdB s h R.TRCTL 31 = false →
    (live s h = true → getSpill s h b ≠ [] → (getAq s h b).length ≤ 512 → bltServes s h (bankOwner s h b) = true →
      (getSpill s h b).all (fun k => k.chk == tagCheck k.tag) = true →
      Answers (.spillRefill h b) s (fun t => OnlyTokens s t ∧ getAq t h b = getAq s h b ++ (getSpill s h b).take 64 ∧
        getSpill t h b = (getSpill s h b).drop 64)) ∧
    (live s h = true → waysUsed s h b set.toNat < 8 →
      s.tok.entries.find? (fun y => y.hub == h && y.bank == b.val && y.set == set.toNat && y.place != .way) = some e →
      e.chk = tagCheck (keyTag e.key 0) → bltServes s h e.part = true →
      Answers (.wayRefill h b set) s (fun t => OnlyTokens s t ∧
        t.tok.entries = s.tok.entries.map (fun y => if isEntry h e.key y then { y with place := .way } else y))) ∧
    (let r := readyOf s (coreIx c)
     live s c.hub = true → r.on.length ≤ 128 → j ≤ 3 → r.spill j ≠ [] → (∀ m ≤ 3, j < m → r.spill m = []) →
      bltServes s c.hub (corePart s (coreIx c)) = true →
      Answers (.readyRefill c) s (fun t => OnlyTokens s t ∧
        readyOf t (coreIx c) = { r.setSpill j ((r.spill j).drop 16) with on := r.on ++ (r.spill j).take 16 })))

/-- R144, R146, R149, R150: an instance is placed at the tail of the chosen core's list, and an idle core takes it
with CTX, TAG and the values preloaded. R151, R192: DONE ends the instance; YIELD and a pre-emption save it in a free
frame and let a fresh instance of a higher class run; YIELD without a free frame writes 1 and goes on. It rests also
on the model's choices in assumptions 17 (when a frame is freed) and 18 (which frame is taken). -/
def Obligations.InstancesBeginAndEnd : Prop :=
  (∀ (s : State) (h : Hub) (c : CoreId) (x : Inst) (l : List Inst) (j step : Nat),
    let s1 := setInbox s h l
    let i := coreIx c
    let k := getCore s i
    (serving s h = true → inboxOf s h = x :: l → x.hub = h → deadInst s x = false → x.frame = none →
      chooseCore s1 x = some (j, step) → (readyOf s j).on.length < 256 → (readyOf s j).spill x.cls = [] →
      Answers (.dispatchPlace h) s (fun t => inboxOf t h = l ∧
        readyOf t j = { readyOf s j with on := (readyOf s j).on ++ [x] } ∧ t.arr = s.arr ∧ t.evi = s.evi ∧
        (∀ m, m ≠ j → readyOf t m = readyOf s m))) ∧
    (atBoundary s i = true → k.isIdle = true → k.watch = false → k.array = none → k.memerr = none → k.drain = false →
      readyOf s i = ⟨[x], [], [], [], []⟩ → x.frame = none → x.vals.length ≤ 4 →
      Answers (.dispatchInterrupt c) s (fun t => (getCore t i).running = some x ∧ (getCore t i).rstate = .running ∧
        (getCore t i).pc = x.entry ∧ (getCore t i).ctx = BitVec.ofNat 64 (4096 * x.hub.val + instCtx x) ∧
        (getCore t i).gr 1 = (getCore t i).ctx ∧ (getCore t i).gr 2 = (getCore t i).tag ∧
        (getCore t i).tag = instTag x ∧ (∀ m < 4, (getCore t i).gr (3 + m) = x.vals.getD m 0) ∧
        (∀ r, 7 ≤ r → (getCore t i).gr r = k.gr r) ∧ (readyOf t i).len = 0))) ∧
  (∀ (s f : State) (c : CoreId) (rd : Reg) (x y : Inst), let i := coreIx c
    let k := getCore f i
    let ks := getCore s i
    let out (u t : State) : Prop :=
      (getCore t i).running = some y ∧ (getCore t i).pc = y.entry ∧ (getCore t i).tag = instTag y ∧
      (getCore t i).lladdr = 0 ∧
      ∃ fr x', fr < frameCount u c.hub x.part ∧ frameUsed u c.hub x.part fr = false ∧ (readyOf t i).on = [x'] ∧ x'.key = x.key ∧ x'.frame = some fr ∧
        frameUsed t c.hub x.part fr = true
    (BeginsFp s f c [] [] true → k.running = some x → k.drain = false → k.pstat.getLsbD 13 = false →
      readyOf f i = ⟨[], [], [], [], []⟩ →
      Answers (.done c) s (fun t => (getCore t i).running = none ∧ (getCore t i).isIdle = true ∧
        (getCore t i).lladdr = 0 ∧ (∀ r, (getCore t i).gr r = k.gr r) ∧
        ∀ fr, x.frame = some fr → frameUsed t c.hub x.part fr = false)) ∧
    (BeginsFp s f c [] [rd] false → k.running = some x →
      (freeFrames f c.hub x.part = [] ∨ k.pstat.getLsbD 13 = true →
        Answers (.yield c rd) s (fun t => CoreBecomes f t i { (k.setG rd 1).retired with lladdr := 0 })) ∧
      (freeFrames f c.hub x.part ≠ [] →
        k.pstat.getLsbD 13 = false → k.drain = false → readyOf f i = ⟨[y], [], [], [], []⟩ → y.frame = none →
        x.cls < y.cls → y.cls ≤ 3 → Answers (.yield c rd) s (fun t => out f t))) ∧
    (atBoundary s i = true → ks.preempt = true → ks.pstat.getLsbD 12 = true → ks.pstat.getLsbD 13 = false →
      ks.watch = false → ks.array = none → ks.memerr = none → ks.fpu = none → ks.fpePend = false → ks.drain = false →
      ks.running = some x → ks.rstate = .running → freeFrames s c.hub x.part ≠ [] →
      readyOf s i = ⟨[y], [], [], [], []⟩ → y.frame = none → y.cls = 3 → x.cls < 3 →
      Answers (.preemptionInterrupt c) s (fun t => out s t)))

/-- R137, R138: a quiet partition with waiting entries launches a drain marker; its quiet return sets STALLED, counts the
stall, writes the snapshot and sends the STALL token. R121, R134, R427: the bases of the codelet table and a
partition's blotter, by P0. -/
def Obligations.StallDetectionAndRegisters : Prop :=
  (∀ (s : State) (h : Hub) (p : Part),
    live s h = true → rdB s h (R.SDCTL p) 31 = true → rdB s h (R.SDSTAT p) 31 = false → quiet s h p = true →
    waiting s h p ≠ [] →
    (tget (fun _ => none) s.tok.marker (8 * h.val + p.val) = none →
      Answers (.drainMarkerLaunch h p) s (fun t => OnlyTokens s t ∧ t.mem = s.mem ∧ t.csr = s.csr ∧
        tget (fun _ => none) t.tok.marker (8 * h.val + p.val) = some true)) ∧
    (tget (fun _ => none) s.tok.marker (8 * h.val + p.val) = some true → reach s h h = true →
      Answers (.stallDetect h p) s (fun t => OnlyTokens s t ∧ rdB t h (R.SDSTAT p) 31 = true ∧
        rdF t h (R.SDSTAT p) 15 0 = Nat.min (rdF s h (R.SDSTAT p) 15 0 + 1) 0xFFFF ∧
        tget (fun _ => none) t.tok.marker (8 * h.val + p.val) = none ∧ t.tok.entries = s.tok.entries ∧
        (rdB s h (R.SDCTL p) 29 = true → t.tok.transit.length = s.tok.transit.length + 1)))) ∧
  (∀ (s : State) (m : Master) (h : Hub) (p : Part) (v : W32),
    live s h = true → masterPart s m = 0 →
    Answers (.cltbaseWrite m h false v) s (fun t => OnlyTokens s t ∧ t.mem = s.mem ∧
      csr t h R.CLTBASELO = v &&& 0xFFFFFFF0 ∧ ∀ e ∈ t.tok.affin, e.1 / 0x100000 ≠ h.val) ∧
    Answers (.cltbaseWrite m h true v) s (fun t => OnlyTokens s t ∧ t.mem = s.mem ∧
      csr t h R.CLTBASEHI = v &&& 0xFFFF ∧ ∀ e ∈ t.tok.affin, e.1 / 0x100000 ≠ h.val) ∧
    (v.toNat % 2 ^ 21 ≤ 1048576 → Answers (.cltsizeWrite m h v) s (fun t => OnlyTokens s t ∧ t.mem = s.mem ∧
      csr t h R.CLTSIZE = v &&& 0x1FFFFF ∧ ∀ e ∈ t.tok.affin, e.1 / 0x100000 ≠ h.val)) ∧
    (16 ≤ v.toNat % 2 ^ 13 → v.toNat % 2 ^ 13 ≤ 4096 → v.getLsbD 31 = true → rdB s h (R.BLTCTL p) 31 = false →
      Answers (.bltctlEnable m h p v) s (fun t => csr t h (R.BLTCTL p) = v &&& 0x80001FFF ∧
        (∀ e ∈ t.tok.entries, e.hub = h → e.part = p.val → e.place = .way) ∧ backlogOf t h p = [])))

/-- R46, R48, R50: a fired mark's token and a monitor's held token enter the token path when it accepts them. R46,
R47, R48: when a ruling has moved, no mark of it that the new position has reached is left; marks of other rulings
that are no half of a cross mark stay as they are. It rests also on the model's choices in assumption 120 (which mark
handle is taken). -/
def Obligations.MarksAndTheirTokens : Prop :=
  (∀ (s : State) (h : Hub) (n : Fin 64) (k : Tok) (l : List Tok) (v : W64),
    let q := mkTok (csr64 s h (R.LMTAGLO n) (R.LMTAGHI n)) v h .loss (rdF s h (R.LMON n) 29 27)
    live s h = true →
    (takeHub h s.rul.fired = some (k, l) → pathAccepts s h k = true →
      Answers (.markTokenEmit h) s (fun t => t.tok = { s.tok with transit := s.tok.transit ++ [k] } ∧
        t.rul = { s.rul with fired := l } ∧ t.cpu = s.cpu ∧ t.mem = s.mem ∧ t.csr = s.csr)) ∧
    (tget (fun _ => none) s.rul.lmTok (lmKey h n) = some v → pathAccepts s h q = true →
      Answers (.lossTokenEmit h n) s (fun t => t.tok = { s.tok with transit := s.tok.transit ++ [q] } ∧
        tget (fun _ => none) t.rul.lmTok (lmKey h n) = none ∧ t.cpu = s.cpu ∧ t.mem = s.mem ∧ t.csr = s.csr))) ∧
  (∀ (s : State) (h : Hub) (r : Nat) (p : W64), p ≠ rulPos s h r →
    let t := moveTo s h r p
    (∀ k m, k < 16384 → getMark t h k = some m → m.rid = r → reached t h r p m.pos = false) ∧
    (∀ k m, k < 16384 → getMark s h k = some m → m.rid ≠ r → m.mate = none →
      (∀ j n, getMark s h j = some n → n.mate ≠ some k) → getMark t h k = some m) ∧
    s.rul.fired <+: t.rul.fired)

/-! ## Rulings, marks, loss monitors and watchdogs -/

/-- R36 to R40: an accepted advance moves its ruling and no other: a packet of a later timestamp to the line of a
later frame, of the same timestamp never backwards within the frame, of an earlier one not at all; a line event by a
line, a frame event to line 0 of the next frame, a derived advance to its position. R39, R44, R45, R46, R196: RREAD
reads a position, RADV presents a forward position, RMARK and RXMARK place marks under free handles, or answer that
the quota is used up. It rests also on the model's choices in assumption 120 (which mark handle is taken). -/
def Obligations.RulingMovesAndInstructions : Prop :=
  (∀ (s : State) (h : Hub) (r : Nat) (l : List Advance) (ts cur : W32) (line : Nat) (q : W64),
    let p := rulPos s h r
    let fl := frameLines s h r
    let src := rdF s h (R.RCFG r) 30 28
    let stamp := tget (fun _ => none) s.rul.rtp (2048 * h.val + r)
    let goes (a : Advance) (w : W64) : Prop :=
      advOf s h = a :: l → Answers (.rulingAdvance h) s (fun t => rulPos t h r = w ∧ advOf t h = l ∧
        (∀ g j, ¬ (g = h.val ∧ j = r) → j < 2048 → rulPos t g j = rulPos s g j) ∧ t.cpu = s.cpu ∧ t.mem = s.mem ∧
        t.tok = s.tok ∧ t.arr = s.arr)
    live s h = true → r < 0x400 → rulEnabled s h r = true →
    (src ≤ 3 →
      (stamp = none → goes (.packet r ts (some line) false) (streamPos 0 (Nat.min line fl))) ∧
      (stamp = some cur → ts = cur →
        goes (.packet r ts (some line) false) (if Nat.min line fl ≤ lineOf p then streamPos (frameOf p) (lineOf p)
          else streamPos (frameOf p) (Nat.min line fl))) ∧
      (stamp = some cur → ts ≠ cur → (ts - cur).toNat < 2 ^ 31 →
        goes (.packet r ts (some line) false)
          (streamPos ((frameOf p + frameStep (ts - cur).toNat (csr s h (R.RFMT r)).toNat) % 1000000) (Nat.min line fl)) ∧
        goes (.packet r ts (some line) true)
          (streamPos ((frameOf p + frameStep (ts - cur).toNat (csr s h (R.RFMT r)).toNat) % 1000000) fl)) ∧
      (stamp = some cur → 2 ^ 31 ≤ (ts - cur).toNat → goes (.packet r ts (some line) false) p)) ∧
    (src = 4 → goes (.lineEvent r) (streamPos (frameOf p) (Nat.min (lineOf p + 1) fl)) ∧
      goes (.frameEvent r) (streamPos ((frameOf p + 1) % 1000000) 0)) ∧
    (src = 5 →
      let d := fwd (linWrap fl) (linIx fl p) (linIx fl q)
      (1 ≤ d → d ≤ linWrap fl / 2 → goes (.derived r q) q) ∧ (d = 0 ∨ linWrap fl / 2 < d → goes (.derived r q) p))) ∧
  (∀ (s f g : State) (c : CoreId) (rd ra rb : Reg) (d d1 d2 : Desc) (g1 : State),
    let i := coreIx c
    let h := c.hub.val
    let k := getCore f i
    let p := corePart f i
    let r := fld (k.gr ra) 10 0
    let q := k.gr rb
    let usable (n : Nat) : Prop := ridOk n = true ∧ (n < 0x400 → rdF f h (R.RCFG n) 27 25 = p)
    let far := fwd (linWrap (frameLines f h r)) (linIx (frameLines f h r) (rulPos f h r)) (linIx (frameLines f h r) q)
    usable r →
    (Begins s f c [ra] [rd] false →
      Answers (.rread c rd ra) s (fun t => CoreBecomes f t i (k.setG rd (rulPos f h r)).retired)) ∧
    (Begins s f c [ra, rb] [] false → r < 0x400 → rdF f h (R.RCFG r) 30 28 = 5 → posValid f h r q = true →
      rulEnabled f h r = true → 1 ≤ far → far ≤ linWrap (frameLines f h r) / 2 →
      Answers (.radv c ra rb) s (fun t => getCore t i = k.retired ∧ advOf t h = advOf f h ++ [.derived r q] ∧
        t.csr = f.csr ∧ t.mem = f.mem)) ∧
    (Begins s f c [rd, ra, rb] [rd] false → posValid f h r q = true →
      tokenCheck f h p false (k.gr rd) = (g, .inr d) →
      (markRoom g h p 1 = true → freeMarks g h ≠ [] → reached g h r (rulPos g h r) q = false →
        Answers (.rmark c rd ra rb) s (fun t => ∃ n < 16384, getMark g h n = none ∧
          getCore t i = ((getCore g i).setG rd (BitVec.ofNat 64 n)).retired ∧ t.mem = g.mem ∧
          getMark t h n = some { rid := r, pos := q, tag := k.gr rd, part := p, mate := none, primary := true } ∧
          ∀ j, j < 16384 → j ≠ n → getMark t h j = getMark g h j)) ∧
      (markRoom g h p 1 = false →
        Answers (.rmark c rd ra rb) s (fun t =>
          CoreBecomes g t i ((getCore g i).setG rd (BitVec.allOnes 64)).retired))) ∧
    (let r2 := q.toNat % 2048
     let p1 := k.gr (ra.val + 1)
     let p2 := k.gr (rb.val + 1)
     let regs := [ra.val, ra.val + 1, ra.val + 2, rb.val, rb.val + 1, rb.val + 2]
     Begins s f c regs [rd] false → ra.val ≤ 29 → rb.val ≤ 29 → usable r2 → r ≠ r2 → posValid f h r p1 = true →
      posValid f h r2 p2 = true → tokenCheck f h p false (k.gr (ra.val + 2)) = (g1, .inr d1) →
      tokenCheck g1 h p false (k.gr (rb.val + 2)) = (g, .inr d2) → markRoom g h p 2 = true →
      2 ≤ (freeMarks g h).length → reached g h r (rulPos g h r) p1 = false → reached g h r2 (rulPos g h r2) p2 = false →
      Answers (.rxmark c rd ra rb) s (fun t => ∃ n1 n2, n1 ≠ n2 ∧ getMark g h n1 = none ∧ getMark g h n2 = none ∧
        getCore t i = ((getCore g i).setG rd (BitVec.ofNat 64 n1)).retired ∧ t.mem = g.mem ∧
        getMark t h n1 =
          some { rid := r, pos := p1, tag := k.gr (ra.val + 2), part := p, mate := some n2, primary := true } ∧
        getMark t h n2 =
          some { rid := r2, pos := p2, tag := k.gr (rb.val + 2), part := p, mate := some n1, primary := false })))

/-- R32, R42, R44: a selected edge of an enabled pin counts 1, at once without debounce, else when its debounce ends; an
edge that is not selected ends a debounce. R41: the PTP ruling adds PTPINC in units of 2^-24 ns; a forward step moves
it, a backward step makes it hold until the count overtakes. -/
def Obligations.PinsAndPtp : Prop :=
  (∀ (s : State) (h : Hub) (k : Fin 10) (level : Bool),
    let ix := 16 * h.val + k.val
    let r := pinRid k
    let e := rdF s h (R.EDGECFG k) 29 28
    let d := rdF s h (R.EDGECFG k) 15 0
    let sel : Prop := e = 2 ∨ (e = 0 ∧ level = true) ∨ (e = 1 ∧ level = false)
    let deb (t : State) := tget (fun _ => none) t.rul.deb ix
    pinsLive s = true → hubOk s h = true → rulEnabled s h r = true →
    (tget (fun _ => false) s.rul.level ix ≠ level →
      (d = 0 ∨ k = 9 → sel → Answers (.pinEdge h k level) s (fun t =>
        tget (fun _ => false) t.rul.level ix = level ∧ rulPos t h r = rulPos s h r + 1 ∧ t.cpu = s.cpu ∧ t.mem = s.mem)) ∧
      (d = 0 ∨ k = 9 → ¬ sel → Answers (.pinEdge h k level) s (fun t =>
        tget (fun _ => false) t.rul.level ix = level ∧ t.rul.pos = s.rul.pos ∧ t.csr = s.csr ∧ t.mem = s.mem)) ∧
      (d ≠ 0 → k ≠ 9 → Answers (.pinEdge h k level) s (fun t =>
        tget (fun _ => false) t.rul.level ix = level ∧ t.rul.pos = s.rul.pos ∧ (sel → deb t = some d) ∧
        (¬ sel → deb t = none) ∧ t.csr = s.csr ∧ t.mem = s.mem))) ∧
    (deb s = some 0 → Answers (.debounceExpiry h k) s (fun t =>
      deb t = none ∧ rulPos t h r = rulPos s h r + 1 ∧ t.cpu = s.cpu ∧ t.mem = s.mem))) ∧
  (∀ (s : State) (m : Master) (h : Hub) (v : W32),
    let inc := (csr s h R.PTPINC).toNat
    let now := ptpNs (rulPos s h 0x400) * 2 ^ 24 + tget (fun _ => 0) s.rul.frac h
    let hold := tget (fun _ => 0) s.rul.hold h
    let after (n : Nat) (t : State) : Prop :=
      (rulPos t h 0x400 = ptpPos ((now + n) / 2 ^ 24)) ∧ tget (fun _ => 0) t.rul.frac h = (now + n) % 2 ^ 24 ∧
      t.cpu = s.cpu ∧ t.mem = s.mem
    let held (n : Nat) (t : State) : Prop :=
      t.rul.pos = s.rul.pos ∧ t.rul.frac = s.rul.frac ∧ tget (fun _ => 0) t.rul.hold h = n ∧ t.cpu = s.cpu ∧
      t.mem = s.mem ∧ t.csr = s.csr
    live s h = true → rulEnabled s h 0x400 = true →
    (hold = 0 → Answers (.ptpReferenceCycle h) s (after inc)) ∧
    (inc < hold → Answers (.ptpReferenceCycle h) s (held (hold - inc))) ∧
    (hold ≠ 0 → hold ≤ inc → Answers (.ptpHoldEnd h) s (fun t =>
      after (inc - hold) t ∧ tget (fun _ => 0) t.rul.hold h = 0)) ∧
    (masterPart s m = 0 →
      (v.toNat < 2 ^ 31 → Answers (.ptpstepWrite m h v) s (after (v.toNat * 2 ^ 24))) ∧
      (2 ^ 31 ≤ v.toNat → Answers (.ptpstepWrite m h v) s (held (hold + (2 ^ 32 - v.toNat) * 2 ^ 24)))))

/-- R38, R44, R428: a fabric event is presented to a ruling of the region's partition with SRC 4 and is discarded and
counted otherwise; a write of RCFG or RFMT by its owner or P0 sets a stream ruling to 0 without its marks; a read of
RPOS loads the latch, and a debug read does not. R50, R52: a closed window records its advance and, outside its
bounds, sets LOST once; a kick and a write of WDLOAD reload the count; an expired core watchdog raises WATCH, and one
that was not kicked since takes its core out of service. -/
def Obligations.RulingRegistersAndMonitors : Prop :=
  (∀ (s : State) (m : Master) (h : Hub) (fp : Fin 8) (r : Rid) (v : W32),
    let n := r.toNat
    let takes : Prop := rdB s h (R.FPORT fp) 31 = true ∧ rdF s h (R.RCFG n) 30 28 = 4 ∧
      rdF s h (R.RCFG n) 27 25 = rdF s h (R.FREG (rdF s h (R.FPORT fp) 27 24)) 26 24
    live s h = true →
    (n < 0x400 → takes →
      Answers (.rfevtLineEvent h fp r) s (fun t => advOf t h = advOf s h ++ [.lineEvent n] ∧ t.csr = s.csr ∧ t.mem = s.mem) ∧
      Answers (.rfevtFrameEvent h fp r) s (fun t =>
        advOf t h = advOf s h ++ [.frameEvent n] ∧ t.csr = s.csr ∧ t.mem = s.mem)) ∧
    (¬ takes →
      Answers (.rfevtLineEvent h fp r) s (fun t => t.rul = s.rul ∧
        rdF t h R.NISODISC 31 0 = Nat.min (rdF s h R.NISODISC 31 0 + 1) 0xFFFFFFFF) ∧
      Answers (.rfevtFrameEvent h fp r) s (fun t => t.rul = s.rul ∧
        rdF t h R.NISODISC 31 0 = Nat.min (rdF s h R.NISODISC 31 0 + 1) 0xFFFFFFFF)) ∧
    (n < 0x400 → masterPart s m = 0 →
      (fld v 30 28 ≤ 5 → fld v 23 14 ≠ 0 → 1 ≤ fld v 13 0 → fld v 13 0 ≤ 9999 →
        Answers (.rcfgWrite m h r v) s (fun t => csr t h (R.RCFG n) = v ∧ rulPos t h n = 0 ∧
          (∀ k m, k < 16384 → getMark t h k = some m → m.rid ≠ n) ∧ t.cpu = s.cpu ∧ t.mem = s.mem)) ∧
      Answers (.rfmtWrite m h r v) s (fun t => csr t h (R.RFMT n) = v ∧ rulPos t h n = 0 ∧
        (∀ k m, k < 16384 → getMark t h k = some m → m.rid ≠ n) ∧ t.cpu = s.cpu ∧ t.mem = s.mem)) ∧
    (ridOk n = true → Answers (.rposLoRead m h r) s (fun t =>
      t.resp = ⟨0, ((rulPos s h n).setWidth 32).setWidth 2048⟩ ∧ t.rul.pos = s.rul.pos ∧ t.mem = s.mem ∧
      tget (fun _ => 0) t.rul.latch (2048 * h.val + n) =
        match m with
        | .debug _ _ => tget (fun _ => 0) s.rul.latch (2048 * h.val + n)
        | _ => rulPos s h n))) ∧
  (∀ (s : State) (m : Master) (h : Hub) (n : Fin 64) (w : Fin 33) (c : CoreId) (adv : Nat) (l : List Nat) (v : W32),
    let last := Nat.min adv 0xFFFFFFFF
    let mx := (csr s h (R.LMMAX n)).toNat
    let bad : Prop := last < (csr s h (R.LMMIN n)).toNat ∨ (mx ≠ 0 ∧ mx < last)
    let cw := wdKey c.hub c.num
    live s h = true →
    (tget (fun _ => []) s.rul.lmDue (lmKey h n) = adv :: l →
      Answers (.lossWindowClose h n) s (fun t => csr t h (R.LMLAST n) = BitVec.ofNat 32 last ∧
        tget (fun _ => []) t.rul.lmDue (lmKey h n) = l ∧ rdB t h (R.LMLOST n) 0 = (rdB s h (R.LMLOST n) 0 || decide bad) ∧
        (bad → rdB s h (R.LMLOST n) 0 = false → rdB s h (R.LMON n) 30 = true →
          tget (fun _ => none) t.rul.lmTok (lmKey h n) = some (BitVec.ofNat 64 last)) ∧
        (¬ bad → t.rul.lmTok = s.rul.lmTok) ∧ CoresKept s t)) ∧
    (masterPart s m = 0 →
      Answers (.wdkickWrite m h w 0xA5) s (fun t => csr t h (R.WDCNT w) = csr s h (R.WDLOAD w) ∧
        tget (fun _ => false) t.rul.wdOnce (wdKey h w) = false ∧ t.cpu = s.cpu ∧ t.mem = s.mem) ∧
      Answers (.wdloadWrite m h w v) s (fun t => csr t h (R.WDLOAD w) = v ∧ csr t h (R.WDCNT w) = v ∧ t.cpu = s.cpu ∧
        t.mem = s.mem)) ∧
    (v ≠ 0xA5 → exec (.wdkickWrite m h w v) s = .next s) ∧
    (live s c.hub = true → tget (fun _ => none) s.rul.wdDue cw = some 0 →
      (tget (fun _ => false) s.rul.wdOnce cw = false → Answers (.coreWatchdogExpiry c) s (fun t =>
        (getCore t (coreIx c)).watch = true ∧ tget (fun _ => false) t.rul.wdOnce cw = true ∧
        csr t c.hub (R.WDCNT c.num) = csr s c.hub (R.WDLOAD c.num) ∧ tget (fun _ => none) t.rul.wdDue cw = none)) ∧
      (tget (fun _ => false) s.rul.wdOnce cw = true → Answers (.coreWatchdogExpiry c) s (fun t =>
        (getCore t (coreIx c)).rstate = .out))) ∧
    (tget (fun _ => none) s.rul.wdDue (wdKey h 32) = some adv → rdB s h (R.WDCFG 32) 30 = false →
      Answers (.deviceWatchdogExpiry h) s (fun t => rdB t h R.ALARMSTAT 0 = true ∧
        tget (fun _ => none) t.rul.wdDue (wdKey h 32) = none ∧ t.evi = s.evi ∧ t.arr = s.arr)))

/-! ## Array words -/

/-- R90 to R94: each FIELD word whose destination does not cut across its operands leaves in every active nib the result
and the carry of R92, and nothing in the others; M, X, Y and the mask stack stay, T changes for SHL alone; with BLOT =
1 it makes one blot. -/
def Obligations.FieldWords : Prop :=
  ∀ (s : State) (g : Sheet) (q : QWord) (x : Nat × Instr), x ∈ fieldRows g → WordReady s g.val q →
    wordKind q.w = 0x20 + x.1 →
    let f := fieldOf q.w
    let w := fieldWidth f.op f.n
    let apart (p : Nat) : Prop := p = f.d ∨ overlap p f.n f.d w = false
    apart f.a → (readsB f.op = true → apart f.b) →
    Answers x.2 s (fun t => OnlyArray s t ∧
      PlanesKept s t (fun sh p => sh ∈ members s g.val ∧ f.d ≤ p ∧ p < f.d + w) ∧
      (∀ sh ∈ members s g.val, (getSheet t sh).x = (getSheet s sh).x ∧ (getSheet t sh).y = (getSheet s sh).y ∧
        (getSheet t sh).m = (getSheet s sh).m ∧ (getSheet t sh).stack = (getSheet s sh).stack ∧
        (f.op ≠ 0x0F → (getSheet t sh).t = (getSheet s sh).t) ∧ (getSheet t sh).state = .run ∧
        ∀ k < 16384,
          nibField t sh f.d w k = (if nibOn s sh f.mm k then fieldResult s sh f k else nibField s sh f.d w k) ∧
          (getSheet t sh).c.getLsbD k =
            (if nibOn s sh f.mm k then fieldCarry s sh f k else (getSheet s sh).c.getLsbD k)) ∧
      (f.blot = false → (getGang t g.val).blots = (getGang s g.val).blots) ∧
      (f.blot = true → Formed s g.val →
        BlotMade s t g.val q.core (fun sh k => nibOn s sh f.mm k = true ∧ fieldBlots s t sh f k = true)))

/-- R56, R89: a BIT word writes, in every active nib, the entry of its truth tables to what WEN names; an inactive nib
keeps everything. R101, R102: the MASK words act in every nib whatever M holds; MCLRF clears M in the nib that the
latest finder result names; MSAVE writes a plane. -/
def Obligations.BitAndMaskWords : Prop :=
  (∀ (s : State) (g : Sheet) (q : QWord), WordReady s g.val q → wordKind q.w = 0x10 →
    let w := q.w
    let d := fld w 67 56
    Answers (.bitWord g) s (fun t => OnlyArray s t ∧
      PlanesKept s t (fun sh p => sh ∈ members s g.val ∧ p = d ∧ fld w 31 31 = 1) ∧
      (∀ sh ∈ members s g.val, (getSheet t sh).m = (getSheet s sh).m ∧ (getSheet t sh).stack = (getSheet s sh).stack ∧
        ∀ k < 16384,
          let on := nibOn s sh (fld w 27 26) k
          let r := w.getLsbD (48 + bitIndex s sh w k)
          let c := w.getLsbD (40 + bitIndex s sh w k)
          let x := getSheet s sh
          let y := getSheet t sh
          (plane t sh d).getLsbD k = (if on && fld w 31 31 == 1 then r else (plane s sh d).getLsbD k) ∧
          y.x.getLsbD k = (if on && fld w 30 30 == 1 then r else x.x.getLsbD k) ∧
          y.y.getLsbD k = (if on && fld w 30 30 == 1 then x.x.getLsbD k else x.y.getLsbD k) ∧
          y.t.getLsbD k = (if on && fld w 29 29 == 1 then r else x.t.getLsbD k) ∧
          y.c.getLsbD k = (if on && fld w 28 28 == 1 then c else x.c.getLsbD k)) ∧
      (fld w 25 25 = 0 → (getGang t g.val).blots = (getGang s g.val).blots) ∧
      (fld w 25 25 = 1 → Formed s g.val → BlotMade s t g.val q.core (fun sh k =>
        nibOn s sh (fld w 27 26) k = true ∧ w.getLsbD (48 + bitIndex s sh w k) = true)))) ∧
  (∀ (s : State) (g : Sheet) (q : QWord), WordReady s g.val q →
    let a := fld q.w 87 76
    let inv := fld q.w 75 75 == 1
    let goes (i : Instr) (m : Nat → Nat → Bool) (st : SheetSt → List Plane) (save : Prop) : Prop :=
      Answers i s (fun t => OnlyArray s t ∧ PlanesKept s t (fun sh p => sh ∈ members s g.val ∧ p = a ∧ save) ∧
        ∀ sh ∈ members s g.val,
          { getSheet t sh with m := (getSheet s sh).m, stack := (getSheet s sh).stack } =
            { getSheet s sh with state := .run } ∧
          (getSheet t sh).stack = st (getSheet s sh) ∧ ∀ k < 16384, (getSheet t sh).m.getLsbD k = m sh k ∧
            (save → (plane t sh a).getLsbD k = ((getSheet s sh).m.getLsbD k ^^ inv)))
    let v (sh k : Nat) : Bool := (plane s sh a).getLsbD k ^^ inv
    let old (sh k : Nat) : Bool := (getSheet s sh).m.getLsbD k
    let f := (getGang s g.val).finder
    (wordKind q.w = 0x60 → goes (.mset g) v SheetSt.stack False) ∧
    (wordKind q.w = 0x61 → goes (.mand g) (fun sh k => old sh k && v sh k) SheetSt.stack False) ∧
    (wordKind q.w = 0x62 → goes (.mor g) (fun sh k => old sh k || v sh k) SheetSt.stack False) ∧
    (wordKind q.w = 0x63 → goes (.mpush g) old (fun x => x.m :: x.stack) False) ∧
    (wordKind q.w = 0x64 → goes (.mpop g) (fun sh k => ((getSheet s sh).stack.headD 0).getLsbD k)
      (fun x => x.stack.drop 1) False) ∧
    (wordKind q.w = 0x65 → goes (.mall g) (fun _ _ => !inv) SheetSt.stack False) ∧
    (wordKind q.w = 0x66 → goes (.mclrf g) (fun sh k => old sh k && !(decide (fld f 31 31 = 1 ∧ sh = fld f 28 24 ∧
      k = 128 * (fld f 23 12 % 128) + fld f 11 0 % 128))) SheetSt.stack False) ∧
    (wordKind q.w = 0x67 → goes (.msave g) old SheetSt.stack True))

/-- R88, R96, R99, R103 to R105, outside a loop: NOP, GSYNC, WAITB and WAITLP pass; LOOP opens a body; SKIPB skips when
the blot equals POL; LINE queues its run at one member's port; BTOK emits a token for the latest blot and KEND one of
its own; KEND leaves the sheets IDLE when no word is queued. On a replay BREAKB ends the loop when the blot equals
POL, and the last word of a body goes back to its first while passes are left. -/
def Obligations.StreamWords : Prop :=
  ∀ (s : State) (g : Sheet) (q : QWord) (l : List QItem) (lp : LoopSt) (bl : List BlotSt) (b : BlotSt), WordReady s g.val q →
    let w := q.w
    let G := getGang s g.val
    let n := fld w 87 80
    let pol := fld w 79 79 == 1
    let v := (latestBlot G).1
    let tag := w.extractLsb' 0 64
    let plain (i : Instr) (P : GangSt → GangSt) : Prop := Answers i s (fun t => OnlyArray s t ∧ Passed s t g.val P)
    (G.loops = [] → G.skip = 0 →
      (wordKind w = 0x00 → plain (.syncNop g) id) ∧ (wordKind w = 0x01 → plain (.gsync g) id) ∧
      (wordKind w = 0x53 → plain (.waitb g) id) ∧ (wordKind w = 0x54 → plain (.waitlp g) id) ∧
      (wordKind w = 0x50 →
        plain (.loop g) (fun G => { G with loops := [{ start := 0, len := n, left := fld w 79 56 }] })) ∧
      (wordKind w = 0x51 → G.blot ≠ pol → plain (.skipb g) id) ∧
      (wordKind w = 0x51 → G.blot = pol → G.queue = [.word q] → plain (.skipb g) (fun G => { G with skip := n })) ∧
      (wordKind w = 0x51 → G.blot = pol → G.queue = .word q :: l → n ≤ l.length → l.length = wordsIn l →
        plain (.skipb g) (fun G => { G with queue := l.drop n })) ∧
      (wordKind w = 0x48 → fld w 87 87 = 1 → v = false → plain (.btok g) id) ∧
      (wordKind w = 0x48 → (fld w 87 87 = 0 ∨ v = true) → G.blots = [] → plain (.btok g) (fun G =>
        { G with btoks := G.btoks ++ [arrayTok q tag (blotValue (fld w 79 64) G.blot G.finder)] })) ∧
      (wordKind w = 0x48 → (fld w 87 87 = 0 ∨ b.val = true) → G.blots = bl ++ [b] → plain (.btok g) (fun G =>
        { G with blots := bl ++ [{ b with toks := b.toks ++ [arrayTok q tag (blotValue (fld w 79 64) b.val b.finder)] }] })) ∧
      (wordKind w = 0x49 → Formed s g.val → Answers (.bplane g) s (fun t => OnlyArray s t ∧
        PlanesKept s t (fun _ _ => False) ∧
        (∀ sh ∈ members s g.val, getSheet t sh = { getSheet s sh with state := .run }) ∧
        BlotMade s t g.val q.core (fun sh k => nibOn s sh (fld w 75 74) k = true ∧
          ((plane s sh (fld w 87 76)).getLsbD k ^^ (fld w 73 73 == 1)) = true))) ∧
      (q.core < 64 → wordKind w = 0x40 → Answers (.lineIn g) s (fun t => OnlyArray s t ∧
        ∀ sh ∈ members s g.val, (getSheet t sh).outQ = (getSheet s sh).outQ ∧ (getSheet t sh).inQ =
          (getSheet s sh).inQ ++ (if sh = lineMember s g.val w then [lineRun w q.core] else []))) ∧
      (q.core < 64 → wordKind w = 0x41 → Answers (.lineOut g) s (fun t => OnlyArray s t ∧
        ∀ sh ∈ members s g.val, (getSheet t sh).inQ = (getSheet s sh).inQ ∧ (getSheet t sh).outQ =
          (getSheet s sh).outQ ++ (if sh = lineMember s g.val w then [lineRun w q.core] else []))) ∧
      (wordKind w = 0x55 → Answers (.kend g) s (fun t => OnlyArray s t ∧
        (getGang t g.val).ctoks = G.ctoks ++
          (if fld w 87 87 = 1 then [arrayTok q tag (blotValue (fld w 79 64) G.blot G.finder)] else []) ∧
        ∀ sh ∈ members s g.val, getSheet t sh =
          { getSheet s sh with state := if wordsIn (G.queue.drop 1) = 0 then .idle else .run }))) ∧
    (G.loops = [lp] → lp.start = 0 → G.body.length = lp.len → G.lpos < lp.len → G.skip = 0 →
      (wordKind w = 0x52 → G.blot = pol →
        Answers (.breakb g) s (fun t => OnlyArray s t ∧ (getGang t g.val).loops = [] ∧ (getGang t g.val).body = [] ∧
          (getGang t g.val).skip = 0 ∧ (getGang t g.val).queue = G.queue)) ∧
      (wordKind w = 0x52 → G.blot ≠ pol → G.lpos + 1 < lp.len →
        Answers (.breakb g) s (fun t => OnlyArray s t ∧ getGang t g.val = { G with lpos := G.lpos + 1 })) ∧
      (wordKind w = 0x00 → G.lpos + 1 = lp.len → 1 < lp.left →
        Answers (.syncNop g) s (fun t => OnlyArray s t ∧
          getGang t g.val = { G with lpos := 0, loops := [{ lp with left := lp.left - 1 }] })))

/-- R82, R86, R87, R112: a word that fails its check changes nothing but this: every member enters FAULT with the cause
and W recorded, its runs and mask stack are gone, and the words still queued are discarded; the core that issued W
gets a pending ARRAY. A word of a reserved class or operation always fails so. R107 to R111: AISSUE queues its word
for the gang and the block form a run of them; AGANG answers its status and queues an accepted change; AWAIT and ABLOT
read the latest blot once nothing is outstanding. -/
def Obligations.ArrayIssueAndFaults : Prop :=
  (∀ (s : State) (g : Sheet) (q : QWord) (c : Nat),
    let G := getGang s g.val
    gangReady s g.val = true → headWord G = some q → wordCheck s g.val G q.w = c → q.core < 64 →
    (wordKind q.w = 0xFFF → c ≠ 0) ∧
    (wordKind q.w = 0xFFF → Answers (.reservedArrayWord g) s (fun t =>
      PlanesKept s t (fun _ _ => False) ∧ t.mem = s.mem ∧ t.net = s.net ∧ t.evi = s.evi ∧
      (∀ sh ∈ members s g.val, sh < 24 ∧
        getSheet t sh = { getSheet s sh with state := .fault, stack := [], inQ := [], outQ := [] } ∧
        csr t (sheetHome s sh) (R.SHFAULT sh) = BitVec.ofNat 32 (2 ^ 31 + c * 2 ^ 16 + headPos G * 2 ^ 8 +
          Nat.min (wordsIn (takeHead G).queue) 0xFF) ∧
        csr t (sheetHome s sh) (R.SHFW0 sh) = q.w.extractLsb' 0 32 ∧
        csr t (sheetHome s sh) (R.SHFW1 sh) = q.w.extractLsb' 32 32 ∧
        csr t (sheetHome s sh) (R.SHFW2 sh) = q.w.extractLsb' 64 32) ∧
      wordsIn (getGang t g.val).queue = 0 ∧ (getGang t g.val).loops = [] ∧
      ((getCore s q.core).array = none → (getCore t q.core).array =
        some (BitVec.ofNat 64 (c * 2 ^ 24 + headPos G * 2 ^ 16 + (members s g.val).headD g.val * 2 ^ 8 + g.val))) ∧
      (∀ j, j ≠ q.core → getCore t j = getCore s j)))) ∧
  (∀ (s f r : State) (c : CoreId) (rd ra rb : Reg) (bytes : Bytes),
    let i := coreIx c
    let k := getCore f i
    let p := corePart f i
    let named (n : Nat) : Prop := n < 24 ∧ isGang f n = true ∧ sheetPart f n = p ∧ reach f (i / 32) (sheetHome f n) = true
    let takes (n : Nat) : Prop := named n ∧ (∀ m ∈ members f n, deadState (getSheet f m).state = false) ∧
      changing f n = false ∧ ((getGang f n).claim = none ∨ (getGang f n).claim = some i)
    let sent (w : AWord) : QItem := .word { w := w, core := i, part := p }
    k.array = none →
    (let n := fld (k.gr rd) 4 0
     let w : AWord := (((k.gr rb).setWidth 32).setWidth 96 <<< 64) ||| (k.gr ra).setWidth 96
     Begins s f c [rd, ra, rb] [] false → takes n → wordsIn (getGang f n).queue < 64 →
      (getGang f n).skip = 0 → Answers (.aissue c rd ra rb) s (fun t =>
        getCore t i = k.retired ∧ (getGang t n).queue = (getGang f n).queue ++ [sent w] ∧
        (getGang t n).claim = (if wordKind w = 0x55 then none else some i) ∧
        (∀ m ∈ members f n, (getSheet t m).state = (if (getSheet f m).state = .idle then .run else (getSheet f m).state)) ∧
        t.mem = f.mem ∧ t.csr = f.csr)) ∧
    (let n := fld (k.gr rd) 4 0
     let w := BitVec.ofNat 96 (leNat (bytes.take 12))
     Begins s f c [rd, ra] [ra] false → takes n → wordsIn (getGang f n).queue < 64 → (getGang f n).skip = 0 →
      eventDue k = false → haltDue f i = false → k.stepReq = false → fld (k.gr ra) 3 0 = 0 → k.cnt = 1 →
      ra ≠ 0 → winOk f i (k.gr ra).toNat 1 = true → bytesRead f i (k.gr ra) 16 = .ok (r, bytes) →
      r.arr = f.arr → getCore r i = k → corePart r i = p → reach r (i / 32) (sheetHome r n) = true → r.part = f.part →
      Answers (.aissueBlock c rd ra) s (fun t =>
        (getCore t i).cnt = 0 ∧ (getCore t i).gr ra = k.gr ra + 16 ∧ (getCore t i).pc = k.pc + 4 ∧
        (getGang t n).queue = (getGang f n).queue ++ [sent w])) ∧
    (let op := k.gr ra
     let gid := fld op 20 16
     Begins s f c [ra, rb] [rd] false → fld op 15 15 = 1 → changing f gid = false →
      (dissolveStatus f p gid ≠ 0 → Answers (.agang c rd ra rb) s (fun t =>
        CoreBecomes f t i (k.setG rd (BitVec.ofNat 64 (dissolveStatus f p gid))).retired)) ∧
      (takes gid → 1 < (members f gid).length → (∀ m ∈ members f gid, reach f (i / 32) (sheetHome f m) = true) →
        Answers (.agang c rd ra rb) s (fun t => getCore t i = (k.setG rd 0).retired ∧
          tget (fun _ => none) t.arr.changes f.arr.nextChange = some (.dissolve gid) ∧
          (getGang t gid).queue = (getGang f gid).queue ++ [.change f.arr.nextChange] ∧ t.mem = f.mem))) ∧
    (let op := k.gr ra
     let gw := fld op 4 0
     let gh := fld op 9 5
     let l := bytes.map BitVec.toNat
     Begins s f c [ra, rb] [rd] false → fld op 15 15 = 0 → 0 < gw * gh → gw * gh ≤ 24 →
      bytesRead f i (k.gr rb) (gw * gh) = .ok (r, bytes) → getCore r i = k → corePart r i = p →
      (∀ n ∈ l, n < 24 → changing r n = false) →
      (agangStatus r p gw gh l ≠ 0 → Answers (.agang c rd ra rb) s (fun t =>
        CoreBecomes r t i (k.setG rd (BitVec.ofNat 64 (agangStatus r p gw gh l))).retired)) ∧
      (agangStatus r p gw gh l = 0 → (∀ n ∈ l, reach r (i / 32) (sheetHome r n) = true) →
        (∀ n ∈ l, (getGang r (getSheet r n).gid).claim = none) →
        Answers (.agang c rd ra rb) s (fun t => getCore t i = (k.setG rd 0).retired ∧
          tget (fun _ => none) t.arr.changes r.arr.nextChange = some (.form gw gh l) ∧
          (∀ n ∈ l, .change r.arr.nextChange ∈ (getGang t (getSheet r n).gid).queue) ∧ t.mem = r.mem))) ∧
    (let n := fld (k.gr ra) 4 0
     let value := blotValue 0 (getGang f n).blot (getGang f n).finder
     Begins s f c [ra] [rd] false → named n →
      (wordsLeft (getGang f n) i = false → coreRuns f n i = false →
        Answers (.await c rd ra) s (fun t => CoreBecomes f t i (k.setG rd value).retired)) ∧
      (blotPending (getGang f n) = false →
        Answers (.ablot c rd ra) s (fun t => CoreBecomes f t i (k.setG rd value).retired))))

/-- R69, R81, R83, R84, R85, R110, R357: how sheets change their state and their gang. It rests also on the model's
choices in assumption 95 (changes that wait). -/
def Obligations.SheetStates : Prop :=
  ∀ (s : State) (m : Master) (sh : Sheet) (v : W32) (logicf : Bool) (bad : BitVec 132) (id gw gh : Nat) (l : List Nat),
    let x := getSheet s sh.val
    let h := sheetHome s sh.val
    let n := ((List.range 132).filter (fun c => bad.getLsbD c)).length
    let pass := !logicf && decide (n ≤ 4)
    let cleared (t : State) : Prop := (∀ p < 4096, plane t sh.val p = 0) ∧
      getSheet t sh.val = { x with state := .idle, x := 0, y := 0, c := 0, t := 0, m := BitVec.allOnes 16384, stack := [],
                                   inQ := [], outQ := [] }
    live s h = true → sheetOk s sh.val = true →
    (x.state = .off → serving s h = true → domOf s (160 + sh.val / 4) = .on →
      (rdB s h (R.SHCFG sh.val) 31 = true ∨ wordFor s sh.val = true ∨ heldOf s (128 + sh.val) ≠ []) →
      Answers (.sheetWake sh) s (fun t => getSheet t sh.val = { x with state := .clear } ∧
        rdB t h (R.SHCFG sh.val) 31 = true ∧ domOf t (128 + sh.val) = .waking ∧ t.cpu = s.cpu ∧ t.mem = s.mem)) ∧
    (x.state = .clear → s.svc.svcs = [] → (getGang s x.gid).haltReq = false → injecting s x.gid = false →
      Answers (.clearComplete sh) s (fun t => cleared t ∧ domOf t (128 + sh.val) = .on ∧
        heldOf t (128 + sh.val) = [] ∧ t.cpu = s.cpu ∧ t.mem = s.mem ∧ t.csr = s.csr)) ∧
    (x.state = .idle → rdB s h (R.SHCFG sh.val) 31 = false → wordFor s sh.val = false →
      (getGang s x.gid).blots = [] → x.inQ = [] → x.outQ = [] →
      Answers (.sheetPowerOff sh) s (fun t => getSheet t sh.val = { x with state := .off } ∧
        domOf t (128 + sh.val) = .off ∧ t.cpu = s.cpu ∧ t.mem = s.mem ∧ t.csr = s.csr)) ∧
    (asP0 s m = true →
      (x.state = .fault → v.getLsbD 0 = true → Answers (.clrfault m sh v) s (fun t =>
        getSheet t sh.val = { x with state := .idle } ∧ PlanesKept s t (fun _ _ => False) ∧ t.cpu = s.cpu ∧
        t.mem = s.mem ∧ OnlyRegs { s with arr := t.arr } t h
          [R.SHFAULT sh.val, R.SHFW0 sh.val, R.SHFW1 sh.val, R.SHFW2 sh.val] ∧
        csr t h (R.SHFAULT sh.val) = 0 ∧ csr t h (R.SHFW0 sh.val) = 0 ∧ csr t h (R.SHFW1 sh.val) = 0 ∧
        csr t h (R.SHFW2 sh.val) = 0)) ∧
      (x.state = .idle → v.getLsbD 1 = true → Answers (.clrplanes m sh v) s (fun t => OnlyArray s t ∧
        getSheet t sh.val = { x with state := .clear }))) ∧
    (x.state = .test → s.svc.svcs = [] → Answers (.bistComplete sh logicf bad) s (fun t =>
      (getSheet t sh.val).state = (if pass then .clear else .retired) ∧
      csr t h (R.SHBIST sh.val) =
        BitVec.ofNat 32 (2 ^ 31 + b2n pass * 2 ^ 30 + b2n logicf * 2 ^ 29 + Nat.min n 0xFF) ∧
      csr t h (R.SHBISTCOL sh.val) = bistCols bad ∧
      (pass = true → rdB s h (R.SHCFG sh.val) 30 = true → csr t h (R.SHCOLREP sh.val) = bistCols bad))) ∧
    ((getGang s sh.val).queue.head? = some (.change id) → tget (fun _ => none) s.arr.changes id = some (.form gw gh l) →
      changeReady s id (.form gw gh l) = true → l.length = gw * gh → l.Nodup → l ≠ [] →
      Answers (.gangChangeEffect sh) s (fun t => OnlyArray s t ∧ PlanesKept s t (fun _ _ => False) ∧
        ∀ k < gw * gh, getSheet t (l.getD k 0) = { getSheet s (l.getD k 0) with
          gid := l.headD 0, gw := gw, gh := gh, gx := k % gw, gy := k / gw })) ∧
    ((getGang s sh.val).queue.head? = some (.change id) →
      tget (fun _ => none) s.arr.changes id = some (.dissolve sh.val) → changeReady s id (.dissolve sh.val) = true →
      Answers (.gangChangeEffect sh) s (fun t => OnlyArray s t ∧ PlanesKept s t (fun _ _ => False) ∧
        ∀ k ∈ members s sh.val, getSheet t k = { getSheet s k with gid := k, gw := 1, gh := 1, gx := 0, gy := 0 })) ∧
    ((∃ id, pendingChanges s = [(id, .evac sh.val none)] ∧ changeReady s id (.evac sh.val none) = true) → s.svc.svcs = [] →
      Answers (.evacEffect sh) s (fun t => (getSheet t sh.val).state = .evac ∧
        ∀ k ∈ members s x.gid, (getSheet t k).gid = k ∧ (getSheet t k).gw = 1 ∧ (getSheet t k).gh = 1))

/-- R98: the owner of a line channel or P0 enables it, which sets both counts to 0; the producer of an IN channel moves
LCHWR and the consumer of an OUT channel moves LCHRD, never more than NSLOT apart. R71, R74, R75, R97, R98, R100,
R105: the oldest blot in flight becomes the latest one; the next blot or completion token leaves for the token path; a
run takes its slot and fills its row, or reads its planes into its slot. -/
def Obligations.LinesAndArrayResults : Prop :=
  (∀ (s : State) (m : Master) (h : Hub) (c : Fin 64) (v : W32),
    let old := csr s h (R.LCH c)
    let wr := csr s h (R.LCHWR c)
    let rd := csr s h (R.LCHRD c)
    let slots := rdF s h (R.LCHNSLOT c) 16 0
    live s h = true → mayLch s m h c = true →
    (old.getLsbD 31 = false → v.getLsbD 31 = true → Answers (.lchEnable m h c v) s (fun t =>
      OnlyRegs s t h [R.LCH c, R.LCHWR c, R.LCHRD c] ∧ csr t h (R.LCH c) = v &&& 0xFC000000 ∧ csr t h (R.LCHWR c) = 0 ∧
      csr t h (R.LCHRD c) = 0)) ∧
    (old.getLsbD 30 = false → (v - rd).toNat ≤ slots → Answers (.lchwrWrite m h c v) s (fun t =>
      OnlyRegs s t h [R.LCHWR c] ∧ csr t h (R.LCHWR c) = v)) ∧
    (old.getLsbD 30 = true → (wr - v).toNat ≤ slots → Answers (.lchrdWrite m h c v) s (fun t =>
      OnlyRegs s t h [R.LCHRD c] ∧ csr t h (R.LCHRD c) = v)) ∧
    (slots < (v - rd).toNat → exec (.lchwrWrite m h c v) s = .next s) ∧
    (slots < (wr - v).toNat → exec (.lchrdWrite m h c v) s = .next s)) ∧
  (∀ (s g : State) (sh : Sheet) (b : BlotSt) (bl : List BlotSt) (k : Tok) (l : List Tok) (r : Run) (rs : List Run)
    (bytes : Bytes),
    let G := getGang s sh.val
    let x := getSheet s sh.val
    let h := sheetHome s sh.val
    let quiet (g : Nat) : Prop := (getGang s g).haltReq = false ∧ injecting s g = false
    (live s h = true → quiet sh.val → G.blots = b :: bl → Answers (.finderResult sh) s (fun t => OnlyArray s t ∧
      PlanesKept s t (fun _ _ => False) ∧ (∀ n, getSheet t n = getSheet s n) ∧
      getGang t sh.val = { G with blots := bl, blot := b.val, finder := b.finder, btoks := G.btoks ++ b.toks })) ∧
    (live s k.dst.val = true → pathAccepts s k.dst.val k = true → reach s k.dst.val k.dst.val = true →
      (G.btoks = k :: l → Answers (.blotToken sh) s (fun t => getGang t sh.val = { G with btoks := l } ∧
        t.tok.transit = s.tok.transit ++ [k] ∧ t.cpu = s.cpu ∧ t.mem = s.mem ∧ t.csr = s.csr)) ∧
      (G.ctoks = k :: l → Answers (.completionToken sh) s (fun t => getGang t sh.val = { G with ctoks := l } ∧
        t.tok.transit = s.tok.transit ++ [k] ∧ t.cpu = s.cpu ∧ t.mem = s.mem ∧ t.csr = s.csr))) ∧
    (live s h = true → quiet x.gid → r.row < 128 → r.base + r.w ≤ 4096 → 1 ≤ r.w → r.chan < 64 → portLive x r = true →
      rdB s h (R.LCH r.chan) 31 = true →
      let rd := csr s h (R.LCHRD r.chan)
      let wr := csr s h (R.LCHWR r.chan)
      (x.inQ = r :: rs → rdB s h (R.LCH r.chan) 30 = false → wr ≠ rd →
        slotRead s h r.chan rd.toNat = (g, some bytes) →
        Answers (.inRun sh) s (fun t =>
          csr t h (R.LCHRD r.chan) = rd + 1 ∧ (getSheet t sh.val).inQ = rs ∧
          PlanesKept g t (fun n p => n = sh.val ∧ r.base ≤ p ∧ p < r.base + r.w) ∧
          ∀ j < r.w, ∀ n < 16384, (plane t sh.val (r.base + j)).getLsbD n =
            (if n / 128 = r.row then decide (n % 128 < r.len) && (leNat bytes).testBit (n % 128 * r.w + j)
             else (plane g sh.val (r.base + j)).getLsbD n))) ∧
      (x.outQ = r :: rs → rdB s h (R.LCH r.chan) 30 = true → s.arr.bad = [] →
        (wr - rd).toNat < rdF s h (R.LCHNSLOT r.chan) 16 0 → 1 ≤ r.len → r.len ≤ 128 → r.w ≤ 32 →
        slotWrite s h r.chan wr.toNat bytes = (g, true) → bytes.length = 512 →
        (∀ n < 4096, (leNat bytes).testBit n = (decide (n / r.w < r.len) &&
          (plane s sh.val (r.base + n % r.w)).getLsbD (128 * r.row + n / r.w))) →
        Answers (.outRun sh) s (fun t => t.mem = g.mem ∧ csr t h (R.LCHWR r.chan) = wr + 1 ∧
          (getSheet t sh.val).outQ = rs ∧ PlanesKept s t (fun _ _ => False)))))

/-! ## Networks and power domains -/

/-- R244, R247 to R250: header checks, absorbed packets, the switch of the routing tables and their writes. It rests
also on the model's choices in assumptions 60 and 61 (which router records a failure, when the old table retires). -/
def Obligations.MeshNetworks : Prop :=
  ∀ (s : State) (m : Master) (h : Hub) (r : Tile) (mesh : Fin 8) (d : Fin 5) (again : Bool) (port : Fin 4)
    (addr : BitVec 48) (dst : Tile) (ep : Fin 2) (esc : Bool) (e : Fin 2) (w : Fin 9) (v : W32),
    let n := if again then failRun s h r mesh d + 1 else 1
    let answered (i : Instr) : Prop := exec i s = .next { s with resp := ⟨1, 0⟩ }
    let counted (o : Nat) (t : State) : Prop := OnlyRegs s t h [o] ∧ rdF t h o 31 0 = oneMore s h o
    let cur := rdF s h R.NEPOCH 29 29
    live s h = true →
    (n < 16 → Answers (.meshHeaderCheckFail h r mesh d again port addr) s (fun t =>
      OnlyRegs { s with net := t.net } t h [R.NREPLAY] ∧ rdF t h R.NREPLAY 31 0 = oneMore s h R.NREPLAY ∧
      failRun t h r mesh d = n)) ∧
    (n = 16 → d ≠ 0 → Answers (.meshHeaderCheckFail h r mesh d again port addr) s (fun t =>
      rdB t h (R.NLSTAT r) (4 * mesh.val + d.val - 1) = true ∧ failRun t h r mesh d = 0 ∧ CoresKept s t)) ∧
    (tileAbsorbs s h r = true → answered (.absorbPacket h r .request) ∧
      Answers (.absorbPacket h r .response) s (counted R.NISODISC) ∧
      Answers (.absorbPacket h r .posted) s (counted R.NISODISC)) ∧
    (noRoute s h r mesh dst ep esc = true → answered (.noRouteAbsorb h r mesh dst ep esc .request) ∧
      Answers (.noRouteAbsorb h r mesh dst ep esc .posted) s (counted R.NISODISC) ∧
      Answers (.noRouteAbsorb h r mesh dst ep esc .response) s (fun t =>
        rdF t h R.NRSPDISC 31 0 = oneMore s h R.NRSPDISC ∧ rdB t h R.ALARMSTAT 1 = true ∧ CoresKept s t)) ∧
    (asP0 s m = true → v.getLsbD 31 = true → rdB s h R.NEPOCH 30 = false →
      Answers (.nepochSwitch m h v) s (fun t => OnlyRegs (drawn s) t h [R.NEPOCH] ∧
        rdF t h R.NEPOCH 29 29 = 1 - cur ∧ rdB t h R.NEPOCH 30 = true)) ∧
    (rdB s h R.NEPOCH 30 = true → heldEpoch s h (1 - cur) = false → Answers (.oldTableRetire h) s (fun t =>
      OnlyRegs s t h [R.NEPOCH] ∧ rdF t h R.NEPOCH 29 29 = cur ∧ rdB t h R.NEPOCH 30 = false ∧
      rdF t h R.NEPOCH 19 0 = 0)) ∧
    (asP0 s m = true →
      (e.val ≠ cur → rdB s h R.NEPOCH 30 = false → entriesOk r v = true → Answers (.nrtabWrite m h r e w v) s (fun t =>
        OnlyRegs s t h [R.NRTAB r e w] ∧ csr t h (R.NRTAB r e w) = v &&& 0x3F3F3F3F)) ∧
      (e.val = cur ∨ rdB s h R.NEPOCH 30 = true ∨ entriesOk r v = false →
        Answers (.nrtabWrite m h r e w v) s (counted R.NTBLREJ)))

/-- R252, R255, R256, R261: a Depol link counts failed flits and replays, moves failed wires onto spares, trains, and
goes DOWN at the sixteenth failure of one flit or a failed training. It rests also on the model's choices in
assumption 65 (the window of pilots and the ninth failed wire). -/
def Obligations.DepolLinks : Prop :=
  ∀ (s : State) (m : Master) (h : Hub) (k : Fin 7) (seq : BitVec 6) (again : Bool) (errs : BitVec 264) (v : W32)
    (w : Nat),
    let d := getDpl s h k
    let n := if again = true ∧ d.lastSeq = seq then d.fails + 1 else 1
    let old (w : Nat) : W64 := tget (fun _ => 0) d.errs w
    let seen (w : Nat) : W64 := old w * 2 + (if errs.getLsbD w then 1 else 0)
    let bad (w : Nat) : Prop := w < 256 ∧ w ∉ d.failed ∧ 4 ≤ ones (seen w)
    live s h = true →
    (dplRuns s h k = true →
      (n < 16 → Answers (.depolCrcFail h k seq again) s (fun t =>
        OnlyRegs { s with net := t.net } t h [R.DPLCRC k] ∧ rdF t h (R.DPLCRC k) 31 0 = oneMore s h (R.DPLCRC k) ∧
        getDpl t h k = { d with lastSeq := seq, fails := n })) ∧
      (16 ≤ n → Answers (.depolCrcFail h k seq again) s (fun t => dplState t h k = 5)) ∧
      Answers (.depolNak h k seq) s (fun t => OnlyRegs { s with net := t.net } t h [R.DPLRPL k] ∧
        rdF t h (R.DPLRPL k) 31 0 = oneMore s h (R.DPLRPL k) ∧ getDpl t h k = { d with replay := some (seq + 1) }) ∧
      (rdB s h (R.DPLCTL k) 26 = false ∨ (∀ w, ¬ bad w) → Answers (.pilotFlit h k errs) s (fun t =>
        { t with net := s.net } = s ∧ (∀ w < 256, tget (fun _ => 0) (getDpl t h k).errs w = seen w) ∧
        (getDpl t h k).failed = d.failed ∧ (getDpl t h k).repair = d.repair)) ∧
      (rdB s h (R.DPLCTL k) 26 = true → d.repair = none → d.failed.length < 8 → bad w → (∀ j < w, ¬ bad j) →
        Answers (.pilotFlit h k errs) s (fun t => ∃ q, (getDpl t h k).repair = some (w, q) ∧
          { t with net := s.net, fresh := s.fresh } = s)) ∧
      (d.repair = some (w, seq) → Answers (.wireRepair h k seq) s (fun t =>
        (getDpl t h k).repair = none ∧ (getDpl t h k).failed = d.failed ++ [w] ∧
        rdF t h (R.DPLCTL k) 18 15 = Nat.min (d.failed.length + 1) 8 ∧ t.cpu = s.cpu ∧ t.mem = s.mem))) ∧
    (dplOk s h k = true → dplState s h k = 1 → rdB s h (R.DPLCTL k) 31 = true →
      Answers (.linkTrained h k true) s (fun t => OnlyRegs { s with net := t.net } t h [R.DPLCTL k] ∧
        (getDpl t h k).replay = none ∧ (getDpl t h k).fails = 0 ∧
        dplState t h k = (if (linkDie s h k).any (fun a => dieHome s a != h.val) then 2
          else if 8 < d.failed.length then 4 else 3)) ∧
      Answers (.linkTrained h k false) s (fun t => dplState t h k = 5)) ∧
    (asP0 s m = true → dplOk s h k = true →
      Answers (.dplctlWrite m h k v) s (fun t => OnlyRegs s t h [R.DPLCTL k] ∧
        rdB t h (R.DPLCTL k) 31 = v.getLsbD 31 ∧ rdB t h (R.DPLCTL k) 30 = v.getLsbD 30 ∧
        rdB t h (R.DPLCTL k) 26 = v.getLsbD 26 ∧ rdF t h (R.DPLCTL k) 22 0 = rdF s h (R.DPLCTL k) 22 0 ∧
        dplState t h k = (if v.getLsbD 31 = false then 0
          else if rdB s h (R.DPLCTL k) 31 = false ∨ dplState s h k = 0 then 1 else dplState s h k)))

/-- R17, R257 to R260: a region is fenced, acknowledged, switched off and woken; a packet that reaches it meanwhile is
held and wakes it; P0's NTILE, NREG and NDIE. It rests also on the model's choices in assumptions 67 (acknowledgements
by domain) and 68 (what wakes). -/
def Obligations.PowerDomains : Prop :=
  ∀ (s : State) (m : Master) (h : Hub) (d : Domain) (pkt : BitVec 96) (g : Fin 4) (t0 : Tile) (r : Fin 5) (a : Fin 6)
    (v : W32),
    let ix := domIx h d
    let state (t : State) (x : DomState) : Prop := domOf t ix = x
    let onlyNet (t : State) : Prop := { t with net := s.net } = s
    live s h = true →
    (domOf s ix = .on → offDue s h d = true → Answers (.regionSleep h d) s (fun t => onlyNet t ∧ state t .fencing)) ∧
    (domOf s ix = .fencing → (∀ g, d ≠ .cluster g) → Answers (.fenceAck h d) s (fun t => onlyNet t ∧ state t .acked)) ∧
    (d = .cluster g → domOf s ix = .fencing → Answers (.fenceAck h d) s (fun t => state t .acked ∧ t.cpu = s.cpu ∧
      t.csr = s.csr ∧ (∀ x, rb t x = rb s x))) ∧
    (domOf s ix = .acked → heldOf s ix = [] → d = .cluster g ∨ d = .fabric → Answers (.powerRemove h d) s (fun t =>
      onlyNet t ∧ state t .off)) ∧
    (domOf s ix = .acked → heldOf s ix = [] → d = .tile t0 →
      Answers (.powerRemove h d) s (fun t => onlyNet t ∧ state t .tileOff)) ∧
    (d = .cluster g →
      (domOf s ix = .fencing ∨ domOf s ix = .acked ∨ domOf s ix = .waking → Answers (.packetHeld h d pkt) s (fun t =>
        onlyNet t ∧ state t (domOf s ix) ∧ heldOf t ix = heldOf s ix ++ [pkt])) ∧
      (domOf s ix = .off → Answers (.packetHeld h d pkt) s (fun t =>
        onlyNet t ∧ state t .waking ∧ heldOf t ix = heldOf s ix ++ [pkt])) ∧
      (domOf s ix = .waking → tget (fun _ => false) s.boot.mcauto h = false → Answers (.wakeComplete h d) s (fun t =>
        state t .on ∧ heldOf t ix = [] ∧ t.mem = s.mem ∧ ∀ k < 8,
          let old := getCore s (32 * h.val + 8 * g.val + k)
          let new := getCore t (32 * h.val + 8 * g.val + k)
          new.rstate = (if old.rstate = .out then .out else .idle) ∧ new.pc = Core.reset.pc ∧
          new.pstat = Core.reset.pstat ∧ new.wcs = [] ∧ new.gr 0 = 0))) ∧
    (asP0 s m = true →
      (let old := csr s h (R.NTILE t0)
       (v.getLsbD 30 = false → Answers (.ntileIso m h t0 v) s (fun t =>
        OnlyRegs { s with net := t.net } t h [R.NTILE t0] ∧ rdB t h (R.NTILE t0) 31 = v.getLsbD 31 ∧
        rdB t h (R.NTILE t0) 30 = false)) ∧
       (v.getLsbD 30 = true → old.getLsbD 30 = false →
        (old.getLsbD 31 = true → v.getLsbD 31 = true → routedThrough s h t0 = false →
          Answers (.ntileOff m h t0 v) s (fun t => OnlyRegs { s with net := t.net } t h [R.NTILE t0] ∧
            rdB t h (R.NTILE t0) 30 = true ∧ domOf t (64 * h.val + t0.val) = .fencing)) ∧
        (old.getLsbD 31 = false ∨ v.getLsbD 31 = false ∨ routedThrough s h t0 = true →
          Answers (.ntileOff m h t0 v) s (fun t => OnlyRegs s t h [R.NTILE t0] ∧ rdB t h (R.NTILE t0) 29 = true ∧
            rdB t h (R.NTILE t0) 30 = false ∧ rdB t h (R.NTILE t0) 31 = old.getLsbD 31)))) ∧
      Answers (.nregIso m h r v) s (fun t => OnlyRegs { s with net := t.net } t h [R.NREG r] ∧
        csr t h (R.NREG r) = v &&& 0xE0000000) ∧
      (dieOk s a = true → dieHome s a = h.val → domOf s (160 + a.val) ≠ .off → Answers (.ndiePwren m h a v) s (fun t =>
        OnlyRegs { s with net := t.net } t h [R.NDIE a] ∧ rdB t h (R.NDIE a) 31 = v.getLsbD 31)))

/-! ## Resets, start-up, supplies, clocks and temperature -/

/-- R84, R113, R166, R206, R216, R375, R397, R411, R427: what the machine holds right after POR_N is asserted, where the
spec gives a value; nothing executes until its release. -/
def Obligations.ResetState : Prop :=
  let s := State.reset
  s.pending = [] ∧ (∀ h, live s h = false) ∧ (∀ i, (getCore s i).rstate = .idle ∧ (getCore s i).pstat = 0 ∧
    (getCore s i).fpcr = 0 ∧ (getCore s i).fpsr = 0 ∧ (getCore s i).lladdr = 0 ∧ (getCore s i).gr 0 = 0) ∧
  (∀ sh < 24, (getSheet s sh).state = .off ∧ (getSheet s sh).gid = sh ∧ (getSheet s sh).stack = [] ∧
    (getGang s sh).queue = []) ∧
  s.tok.entries = [] ∧ s.tok.transit = [] ∧ s.dsp.ligs = [] ∧ s.mem.bad = [] ∧
  (∀ h < 2, csr s h R.PWRCTL = 0x00100F64 ∧ csr s h (R.SHCOLREP 5) = 0xFFFFFFFF ∧ csr s h (R.SHBISTCOL 5) = 0xFFFFFFFF ∧
    csr s h (R.RCFG 7) = 0x00040438 ∧ csr s h (R.WDLOAD 3) = 0xFFFFFFFF ∧ csr s h (R.LCHNSLOT 9) = 1 ∧
    csr s h R.PTPINC = 0x06666666)

/-- R265, R397, R401: POR_N returns everything to its reset value but what lies outside its reach, and main memory
stays only where its devices kept it; its release starts the boot ROM, which trains the populated channels. WARM_N
empties cores, rulings and tokens and keeps plane memory; its release starts the boot ROM on the warm path. R400 to
R403: the debugger's GO has the waiting hub check its image and, when it passes, hand core 0 to it at its entry; a
controller that does not become ready in recovery drying is FAILED. It rests also on the model's choices in
assumptions 84 and 85 (what memory and caches keep), 87 and 89 (what the boot ROM does). -/
def Obligations.ResetsAndBoot : Prop :=
  (∀ (s : State) (kept : Bool) (sel : BitVec 2) (h : Hub) (k : Fin 4),
    (s.pwr.power = .on → Answers (.porNAssert kept) s (fun t =>
      t.pwr.porn = false ∧ t.part = s.part ∧ t.cpu = State.reset.cpu ∧ t.arr = State.reset.arr ∧ t.tok = State.reset.tok ∧
      t.dsp = State.reset.dsp ∧ t.net = State.reset.net ∧ t.csr = [] ∧ t.rul.marks = [] ∧ t.rul.pos = [] ∧
      t.evi.chains = [] ∧ t.evi.ancState = s.evi.ancState ∧ t.boot.serial = s.boot.serial ∧ t.pending = s.pending ∧
      (∀ a < mainTop, rb t a = if kept then rb s a else 0) ∧
      (∀ a, mainTop ≤ a → a < flashBase → rb t a = 0) ∧ (∀ a, flashBase ≤ a → a < romBase → rb t a = rb s a))) ∧
    (s.pwr.porn = false → s.pwr.power ≠ .off → chanOk s h k = true → dimmOf s h k ≠ 0 → s.mem.bad = [] →
      Answers (.porNRelease sel) s (fun t => t.pwr.porn = true ∧ t.pwr.warmn = true ∧ t.pwr.power = .on ∧
        live t h = true ∧ rdF t h R.BOOTSTAT 21 20 = sel.toNat ∧ rdB t h R.BOOTSTAT 18 = false ∧
        bootOf t h = .waitTrain ∧ rdF t h R.BOOTSTAT 31 28 = 4 ∧ chanState t h k = 1 ∧
        (∀ c, 0 < c → c < 32 → (getCore t (32 * h.val + c)).rstate = .out))) ∧
    (s.pwr.porn = true → s.pwr.warmn = true → s.pwr.power = .on → (∀ h, strokeOf s h ≠ .running) →
      Answers .warmNAssert s (fun t => t.pwr.warmn = false ∧ t.pwr.porn = true ∧
        (∀ sh p, plane t sh p = plane s sh p) ∧ t.rul.marks = [] ∧ t.tok = State.reset.tok ∧ t.dsp.ligs = [] ∧
        t.evi.ancState = s.evi.ancState ∧ t.boot.fuse = s.boot.fuse ∧ t.pending = s.pending ∧
        (∀ i, (getCore t i).epc = 0 ∧ (getCore t i).lladdr = 0 ∧ (getCore t i).pstat = 0 ∧ (getCore t i).running = none ∧
          ((getCore t i).rstate = .idle ∨ (getCore t i).rstate = .out)) ∧
        (∀ sh, (getSheet t sh).gid = sh ∧ (getSheet t sh).stack = [] ∧ (getGang t sh).queue = [] ∧
          ((getSheet t sh).state = .idle ∨ (getSheet t sh).state = .off)) ∧
        (twf (csrDflt s.part) s.csr = true → rdF t h R.PWRCTL 7 0 = rdF s h R.PWRCTL 7 0 ∧
          rdF t h (R.SHCFG 2) 26 24 = rdF s h (R.SHCFG 2) 26 24 ∧ csr t h (R.RCFG 7) = 0x00040438))) ∧
    (s.pwr.porn = true → s.pwr.warmn = true → s.pwr.power = .stroke → strokeOf s h = .running → h.val < 2 →
      exec .warmNAssert s = .next { s with pwr := { s.pwr with warmDue := true, warmRel := false } }) ∧
    (s.pwr.porn = true → s.pwr.warmn = false → s.pwr.warmDue = false → s.pwr.power = .on → tget (fun _ => false)
      s.pwr.refStop 0 = false → sel = 1 → rdB s 0 R.DBGCTL 30 = false → s.mem.bad = [] → chanOk s 0 k = true →
      chanState s 0 k = 3 → (∀ j < 4, chanState s 0 j ≠ 1) →
      Answers (.warmNRelease sel) s (fun t => t.pwr.warmn = true ∧ rdF t 0 R.BOOTSTAT 21 20 = 1 ∧
        rdB t 0 R.BOOTSTAT 18 = true ∧ bootOf t 0 = .waitImage ∧ chanState t 0 k = 2 ∧
        (getCore t 0).rstate = .running))) ∧
  (∀ (s g r : State) (m : Master) (h : Hub) (t0 : Fin 8) (v : W32) (b : Bytes),
    live s h = true →
    (mayDebug s m h = true → v.getLsbD 31 = true → bootSrc s = 2 → bootOf s h = .waitImage →
      fetchImage s h 0x010000000000 = (g, some b) → live g h = true → bootOf g h = .waitImage →
      bootOf g (1 - h.val) ≠ .waitImage → mwr g h none 0x010000000000 b = (r, .ok) → r.mem.bad = [] →
      (imageCheck r b = 0 → leAt b 16 4 = 0 → leAt b 20 4 = 0 → ancStateOf r h = 0 → strokeOf r h = .none →
        bootOf r (1 - h.val) ≠ .waitImage → rdB r h R.JCTL 31 = false →
        Answers (.bootctlGo m h v) s (fun t => bootOf t h = .done ∧ rdF t h R.BOOTSTAT 31 28 = 15 ∧
          (getCore t (32 * h.val)).rstate = .running ∧
          (getCore t (32 * h.val)).pc = BitVec.ofNat 48 (0x010000000000 + 128 + leAt b 8 4) ∧
          (getCore t (32 * h.val)).gr 1 = 0x010000000000 ∧
          ∀ c, 0 < c → c < 32 → (getCore t (32 * h.val + c)).rstate =
            (if rdB t h (R.TNEST c) 31 then .out else .idle))) ∧
      (imageCheck r b ≠ 0 → Answers (.bootctlGo m h v) s (fun t => bootOf t h = .failed ∧
        rdF t h R.BOOTSTAT 27 24 = imageCheck r b))) ∧
    (bootOf s h = .waitDry → rdB s h (R.TGT t0) 31 = true → ringsServed (failTarget s h t0) h = true →
      Answers (.nvmeReadyTimeout h t0) s (fun t => rdF t h (R.TGT t0) 24 23 = 2 ∧ bootOf t h = .waitDry)))

/-- R261, R303, R307, R395, R404, R410 to R416: supplies, clocks, the division of ACLK, temperature and fuses. It
rests also on the model's choices in assumptions 90 to 92 (VAUX, temperature and fuses). -/
def Obligations.PowerManagement : Prop :=
  ∀ (s : State) (m : Master) (h : Hub) (d : Fin 8) (k : Fin 4) (raw : BitVec 16) (v : W32) (low ok : Bool) (n : Nat)
    (x : BitVec 256),
    let i := 4 * d.val + k.val
    let t16 := raw.toInt + (calOffset s i).toInt
    (s.pwr.power = .on → Answers (.supplyRemoval false) s (fun t => t.pwr.power = .aux ∧ t.cpu = State.reset.cpu ∧
      t.arr = State.reset.arr ∧ t.evi.ancState = s.evi.ancState ∧ t.evi.ancW = s.evi.ancW ∧ t.evi.ancD = s.evi.ancD ∧
      t.pwr.dryOk = s.pwr.dryOk)) ∧
    (s.pwr.power = .on → Answers (.supplyRemoval true) s (fun t => t.pwr.power = .off ∧ t.cpu = State.reset.cpu ∧
      t.evi.ancState = [] ∧ t.evi.ancW = [] ∧ t.evi.ancD = [] ∧ t.pwr.dryOk = false ∧ t.pwr.porn = false)) ∧
    (s.pwr.power = .off → Answers .vauxPowerUp s (fun t => t.pwr.power = .aux ∧ t.evi.ancState = [] ∧ t.evi.ancW = [] ∧
      t.evi.ancD = [] ∧ t.pwr.dryOk = false ∧ t.mem = s.mem)) ∧
    (hubOk s h = true → Answers (.pcapNChange h low) s (fun t => tget (fun _ => false) t.pwr.pcap h = low ∧
      { t with pwr := s.pwr } = s)) ∧
    (live s h = true →
      (dplRuns s (1 - h.val) 6 = false → Answers (.refclkStop h) s (fun t => live t h = false ∧
        { t with pwr := s.pwr } = s)) ∧
      (dplRuns s (1 - h.val) 6 = true → live s (1 - h.val) = true → Answers (.refclkStop h) s (fun t =>
        live t h = false ∧ dplState t (1 - h.val) 6 = 5)) ∧
      Answers (.divisionChange h) s (fun t => OnlyRegs s t h [R.PWRSTAT] ∧ rdF t h R.PWRSTAT 1 0 =
        Nat.max (rdF s h R.PWRCTL 25 24) (Nat.max (if tget (fun _ => false) s.pwr.pcap h then rdF s h R.PWRCTL 21 20 else 0)
          (if rdB s h R.PWRSTAT 5 then 3 else 0))) ∧
      (asP0 s m = true → 60 ≤ fld v 7 0 → fld v 7 0 ≤ 110 → leastDiv (fld v 11 8) ≤ fld v 25 24 →
        Answers (.pwrctlWrite m h v) s (fun t => OnlyRegs s t h [R.PWRCTL, R.PWRSTAT] ∧
          csr t h R.PWRCTL = v &&& 0x03300FFF)) ∧
      (asP0 s m = true → fld v 7 0 < 60 ∨ 110 < fld v 7 0 ∨ fld v 25 24 < leastDiv (fld v 11 8) →
        exec (.pwrctlWrite m h v) s = .next s) ∧
      (dieReads s h d = true → -2 ^ 15 ≤ t16 → t16 < 2 ^ 15 → Answers (.temperatureSample h d k raw) s (fun t =>
        rdB t h (R.TSENS i) 31 = true ∧ ((csr t h (R.TSENS i)).setWidth 16).toInt = t16 ∧
        OnlyRegs { s with pwr := t.pwr } t h [R.TSENS i, R.PWRSTAT] ∧
        (16 * rdF s h R.PWRCTL 7 0 ≤ t16 → rdB t h R.PWRSTAT 5 = true) ∧
        (16 * 115 ≤ t16 → tget (fun _ => false) t.pwr.thermTrip h = true) ∧
        (t16 < 16 * 115 → t.pwr = s.pwr))) ∧
      (asP0 s m = true → 1 ≤ fld v 18 16 → fld v 18 16 ≤ 4 → rdB s h R.FUSEPRG 30 = false → v.getLsbD 31 = true →
        Answers (.fuseProgram m h v) s (fun t => rdB t h R.FUSEPRG 30 = true ∧ rdF t h R.FUSEPRG 18 16 = fld v 18 16 ∧
          (fusingOf t h).map Prod.fst = some (fld v 18 16) ∧ OnlyRegs { s with boot := t.boot } t h [R.FUSEPRG])) ∧
      (fusingOf s h = some (n, x) → Answers (.fuseProgramDone h ok) s (fun t =>
        rdB t h R.FUSEPRG 30 = false ∧ fusingOf t h = none ∧ t.boot.fuse = s.boot.fuse ∧ t.cpu = s.cpu ∧ t.mem = s.mem ∧
        rdF t h R.FUSESTAT 1 0 = (if slotUsed s n then 1 else if ok then 0 else 2) ∧
        (slotUsed s n = false → ok = true → tget (fun _ => none) t.boot.fuseNew n = some x))))

/-! ## Evidence -/

/-- R283 to R287: CHOP and SEALQ. A request that is refused writes its status and reason; an accepted one writes 0 and
opens or closes its chain or joins its ring's queue. -/
def Obligations.ChopInstructions : Prop :=
  ∀ (s f r g : State) (c : CoreId) (rd ra : Reg) (b : Bytes) (st reason : Nat) (i : Instr),
    let n := coreIx c
    let h := c.hub.val
    let k := getCore f n
    let p := corePart f n
    let op := leAt b 0 1
    let ch := leAt b 2 2
    let x := getChain g h ch
    let q := chopRing g h b
    let gave (t : State) (v : Nat) : Prop := CoreIs t n ((getCore g n).setG rd (BitVec.ofNat 64 v)).retired
    (Begins s f c [ra] [rd] false → bytesRead f n (k.gr ra) 64 = .ok (r, b) → corePart r n = p →
      chopOp s n ra = op → chopStatus r h p b = (g, st, reason) →
      (op = 1 ∧ i = .chopOpen c rd ra) ∨ (op = 2 ∧ i = .chopBand c rd ra) ∨ (op = 3 ∧ i = .chopSeal c rd ra) ∨
        (op = 4 ∧ i = .chopClose c rd ra) →
      (st ≠ 0 → Answers i s (fun t => gave t (reason * 256 + st) ∧ t.evi = g.evi)) ∧
      (st = 0 → (ringQ g h q).length < 64 →
        (op = 1 → Answers i s (fun t => gave t (reason * 256) ∧ (getChain t h ch).state = .opened ∧
          (getChain t h ch).part = p ∧ (getChain t h ch).rate = leAt b 4 4 ∧ (getChain t h ch).ring = leAt b 8 1)) ∧
        (op = 2 → Answers i s (fun t => gave t (reason * 256) ∧ t.csr = g.csr ∧ t.mem = g.mem ∧
          ∃ y, ringQ t h q = ringQ g h q ++ [y] ∧ y.kind = .band ∧ y.chain = ch ∧ y.len = leAt b 4 4)) ∧
        (op = 3 → x.cnt ≠ x.next → Answers i s (fun t => gave t (reason * 256) ∧ t.csr = g.csr ∧ t.mem = g.mem ∧
          ∃ y, ringQ t h q = ringQ g h q ++ [y] ∧ y.kind = .seal ∧ y.chain = ch)) ∧
        (op = 4 → Answers i s (fun t => gave t (reason * 256) ∧ t.csr = g.csr ∧ t.mem = g.mem ∧
          getChain t h ch = { x with state := .closing, band := [], lost := x.lost + x.band.length } ∧
          ∃ y, ringQ t h q = ringQ g h q ++ [y] ∧ y.kind = .eor ∧ y.chain = ch)))) ∧
    (let y := getChain f h (fld (k.gr ra) 9 0)
     let value : W64 := if y.state = .free then 0 else if y.part ≠ p then BitVec.allOnes 64 else
       BitVec.ofNat 64 ((if y.state = .opened then 1 else 2) * 2 ^ 62 + y.ring * 2 ^ 60 + (if y.src1 then 2 ^ 59 else 0) +
         (y.cnt - 1) % 2 ^ 48)
     Begins s f c [ra] [rd] false → Answers (.sealq c rd ra) s (fun t => CoreBecomes f t n (k.setG rd value).retired))

/-- R279, R281, R282, R290, R296: the head of a ring's queue takes its index and its space, 64 bytes at a time, and at its
commit the chain's hash takes in the record; a seal leaves the signer. -/
def Obligations.RecordsAndSeals : Prop :=
  ∀ (s g w : State) (h : Hub) (r : Fin 4) (q : Req) (rest : List Req) (body : Bytes) (bad : Bool) (e : SealReq)
    (k : SealKey),
    let size := recSize q.len
    let x := getChain s h q.chain
    (serving s h = true → ringEn s h r = true → ringFailed s h r = false → ringQ s h r = q :: rest →
      recoverOf s h r = none → q.kind ≠ .seal → q.chain < 1024 → 0 < ringSize s h r → needAt s h r size = size → roomFor s h size = true →
      headReady s h r q = true → rdB s h R.ECTL 30 = false → borrowing s h = none →
      Answers (.ringReserve h r) s (fun t => ringQ t h r = rest ∧ t.cpu = s.cpu ∧ t.mem = s.mem ∧
        wseq t h r = (wseq s h r + size) % 2 ^ 64 ∧ (getChain t h q.chain).next = x.next + 1 ∧
        ∃ y, reservedOf t h r = reservedOf s h r ++ [y] ∧ y.n = x.next ∧ y.seq = BitVec.ofNat 64 (wseq s h r) ∧
          y.kind = q.kind ∧ y.chain = q.chain ∧ y.len = q.len)) ∧
    (serving s h = true → reservedOf s h r = q :: rest → q.chain < 1024 → reqBody s h q = (g, body, bad) →
      let y := getChain g h q.chain
      let flags := b2n (bad || q.badsrc) + 2 * b2n q.foreign
      let head := recSeal (recHead g h q.kind.code flags q.chain q.n q.pos body.length y.rid q.seq.toNat q.aux.toNat)
      storeRec (setReserved g h r rest) h r q.seq.toNat q.chain head body = (w, true) →
      Answers (.recordCommit h r) s (fun t => CoresKept w t ∧ (getChain t h q.chain).cnt = q.n + 1 ∧
        (getChain t h q.chain).h = sha256 (be256 y.h ++ head ++ body) ∧
        (reservedOf t h r = rest ∨ reservedOf t h r = []))) ∧
    (serving s h = true → s.evi.signer.find? (fun e => e.hub == h) = some e → s.evi.key = some k →
      let y := getChain s h e.chain
      y.ring < 4 → ringEn s h y.ring = true → roomFor s h (needAt s h y.ring 192) = true →
      Answers (.signComplete h) s (fun t => (∀ z ∈ t.evi.signer, ¬ (z.hub = h ∧ z.chain = e.chain)) ∧ t.evi.key = some k ∧
        CoresKept s t ∧ (e.final = true → (getChain t h e.chain).state = .free ∨ ringFailed t h y.ring = true)))

/-- R289, R290, R292 to R294: a seal key is generated with the next KEYID or loaded from its blob; a ring is enabled
empty; its segments are issued and complete in order, and DSEQ follows them. It rests also on the model's choices in
assumptions 42 (random numbers) and 44 (a failed ring). -/
def Obligations.KeysRingsAndSegments : Prop :=
  ∀ (s g : State) (m : Master) (h : Hub) (r : Fin 4) (t0 : Fin 8) (v : W32) (k : SealKey) (b p : Bytes) (x : Segment)
    (xs : List Segment),
    live s h = true →
    (asP0 s m = true →
      (v.getLsbD 31 = true → anyOpen s = false → s.evi.key = some k → k.keyid.toNat < 0xFFFF →
        Answers (.sealKeyGen m h v) s (fun t => ∃ d x y, ecPublic d = (x, y) ∧ 1 ≤ d.toNat ∧
          t.evi.key = some { keyid := k.keyid + 1, d := d, x := x, y := y } ∧ rdF t h R.SKCTL 29 28 = 1 ∧
          rdF t h R.SKCTL 15 0 = (k.keyid + 1).toNat ∧ CoresKept s t)) ∧
      (v.getLsbD 31 = true → anyOpen s = true → exec (.sealKeyGen m h v) s = .next s) ∧
      (v.getLsbD 31 = false → v.getLsbD 30 = true → mrd s h (skAddr s h) 256 = (g, .ok, b) →
        (blobGood b = true → kwUnwrap s.boot.wrapKey ((b.drop 8).take 40) = some p → Answers (.sealKeyLoad m h v) s
          (fun t => rdF t h R.SKCTL 29 28 = 1 ∧ t.cpu = g.cpu ∧ t.mem = g.mem ∧ t.evi.key =
            some ⟨BitVec.ofNat 16 (leAt b 4 2), of256 p, of256 ((b.drop 64).take 32), of256 ((b.drop 96).take 32)⟩)) ∧
        (blobGood b = false → Answers (.sealKeyLoad m h v) s (fun t =>
          t.evi.key = none ∧ rdF t h R.SKCTL 29 28 = 3 ∧ t.cpu = g.cpu ∧ t.mem = g.mem))) ∧
      (rdB s h (R.ERCTL r) 31 = false → v.getLsbD 31 = true → fld v 12 0 % 2 = 0 → 16 ≤ fld v 12 0 → fld v 12 0 ≤ 4096 →
        rdF s h R.WETLIM 12 0 + 8 ≤ fld v 12 0 → Answers (.erEnable m h r v) s (fun t =>
          ringEn t h r = true ∧ rdF t h (R.ERCTL r) 12 0 = fld v 12 0 ∧ ringPart t h r = fld v 30 28 ∧ wseq t h r = 0 ∧
          dseq t h r = 0 ∧ recsOf t h r = [] ∧ segsOf t h r = [] ∧ CoresKept s t))) ∧
    (bootOf s h ≠ .waitDry → strokeOf s h ≠ .finished → ringEn s h r = true → tgtServes s h r t0 = true →
      adoptedInk s h = 0 → tgtFull s h r t0 = false → (∀ x ∈ segsOf s h r, x.target ≠ 8) →
      ((segsOf s h r).filter (fun x => !x.done)).length < 16 →
      segmentDue s h r (nextSegment s h r).1 (nextSegment s h r).2 = true →
      Answers (.segmentIssue h r t0) s (fun t => dseq t h r = dseq s h r ∧ CoresKept s t ∧ ∃ y ∈ segsOf t h r,
        y.start = BitVec.ofNat 64 (nextSegment s h r).1 ∧ y.stop = BitVec.ofNat 64 (nextSegment s h r).2 ∧
        y.done = false ∧ (y.target = t0.val ∨ (y.target = 8 ∧ rdF t h (R.TGT t0) 24 23 = 2)))) ∧
    (strokeOf s h ≠ .finished → segsOf s h r = x :: xs → x.target = t0.val → x.done = false →
      (∀ y ∈ xs, y.start ≠ x.start ∧ y.done = false) →
      memServes s h (rdF s h (R.CQBASEHI t0) 15 0 * 2 ^ 32 + (csr s h (R.CQBASELO t0)).toNat) = true →
      Answers (.segmentComplete h r t0 true) s (fun t => segsOf t h r = xs ∧ dseq t h r = x.stop.toNat) ∧
      (x.retried = false → Answers (.segmentComplete h r t0 false) s (fun t =>
        segsOf t h r = { x with retried := true } :: xs ∧ t.csr = s.csr ∧ t.mem = s.mem)) ∧
      (x.retried = true → Answers (.segmentComplete h r t0 false) s (fun t => rdF t h (R.TGT t0) 24 23 = 2)))

/-- R303 to R308: power failure or P0's order starts the final stroke on every hub in service, and DRY_OK rises when
all is dry. R311, R312: the mirror link takes frames in order, and a surviving hub adopts its peer's ink. It rests
also on the model's choices in assumptions 35 (adoption in one step) and 40 (steps 1 to 4 of the stroke in one). -/
def Obligations.StrokeAndMirror : Prop :=
  ∀ (s g : State) (m : Master) (h : Hub) (v : W32) (hdr : BitVec 256) (payload : Bytes),
    let ready : Prop := s.pwr.power = .on ∧ s.pwr.porn = true ∧ s.pwr.warmn = true ∧
      ∀ j, hubInService s j = true → strokeOf s j = .none
    let struck (t : State) (cause : Nat) : Prop := t.pwr.power = .stroke ∧ t.pwr.dryOk = false ∧ t.evi.cause = cause ∧
      (hubInService s h = true → strokeOf t h = .running ∧ (ancStateOf t h = 1 ∨ ancStateOf t h = 2))
    let b := natLe 32 hdr.toNat
    let good : Prop := leAt b 28 4 = (crc32c (b.take 28)).toNat
    let num : W32 := BitVec.ofNat 32 (leAt b 4 4)
    let ack : W32 := BitVec.ofNat 32 (leAt b 16 4)
    let z := leAt b 1 1 % 4
    let off := leAt b 8 8
    let a := mirBase s h + mirOffset (peerRingSize s h) z +
      (if peerRingSize s h z = 0 then 0 else off % peerRingSize s h z)
    let exp := mirRxOf s h
    (ready → Answers .pfailN s (fun t => struck t 1 ∧ t.pwr.pfail = true)) ∧
    (ready → live s h = true → asP0 s m = true → v.getLsbD 31 = true → Answers (.ectlStroke m h v) s (fun t =>
      struck t 3 ∧ rdB t h R.ECTL 30 = v.getLsbD 30)) ∧
    (live s h = true → strokeOf s h = .running → bootOf s h ≠ .waitDry → allDry s h = true →
      (∀ j, j ≠ h.val → hubInService s j = true → strokeOf s j = .finished) → s.evi.cause ≠ 2 → s.pwr.warmDue = false →
      Answers (.strokeFlushComplete h) s (fun t => strokeOf t h = .finished ∧ t.pwr.dryOk = true ∧ t.cpu = s.cpu ∧
        t.mem = s.mem ∧ (anyRingFailed s h = false → ancStateOf s h ≠ 3 → ancStateOf t h = 0) ∧
        (anyRingFailed s h = true → ancStateOf t h = 1))) ∧
    (live s h = true → mirrorUp s h = true → rdB s h R.MIRCTL 29 = true →
      (¬ good → Answers (.mirrorFrame h hdr payload) s (fun t =>
        rdF t h R.MIRCRC 31 0 = oneMore s h R.MIRCRC ∧ mirRxOf t h = exp ∧ CoresKept s t)) ∧
      (good → leAt b 0 1 = 2 → num = exp → Answers (.mirrorFrame h hdr payload) s (fun t => mirRxOf t h = exp + 1 ∧
        tget (fun _ => 0) t.evi.mir.peerDseq (ringKey h z) = BitVec.ofNat 64 off ∧ t.cpu = s.cpu ∧ t.mem = s.mem ∧
        t.csr = s.csr)) ∧
      (good → leAt b 0 1 = 0 → num = exp → mwr (setMirFail s h 0) h none a payload = (g, .ok) →
        Answers (.mirrorFrame h hdr payload) s (fun t => mirRxOf t h = exp + 1 ∧ t.mem = g.mem ∧
          tget (fun _ => 0) t.evi.mir.peerEnd (ringKey h z) = BitVec.ofNat 64 (off + payload.length))) ∧
      (good → leAt b 0 1 = 3 → Answers (.mirrorFrame h hdr payload) s (fun t => t.cpu = s.cpu ∧ t.mem = s.mem ∧
        mirOutOf t h = (mirOutOf s h).filter (fun f => decide (0x80000000 ≤ (ack - f.num).toNat)))) ∧
      (good → leAt b 0 1 < 3 → num ≠ exp → Answers (.mirrorFrame h hdr payload) s (fun t =>
        mirRxOf t h = exp ∧ t.cpu = s.cpu ∧ t.mem = s.mem ∧ t.csr = s.csr))) ∧
    (serving s h = true → asP0 s m = true → v.getLsbD 30 = true → v.getLsbD 29 = true →
      (∀ t < 8, rdB s h (R.TGT t) 31 = false) →
      Answers (.adopt m h v) s (fun t => adoptedInk t h = adoptedInk s h + peerWet s h ∧ CoresKept s t))

/-! ## Memories and the journal -/

/-- R265, R266, R274, R276, R366, R367, R369: a channel's training and initialisation, clearing, the scrubbers, the
background tester, and the journal's ring. It rests also on the model's choices in assumptions 70 and 71 (the tester
by steps, the L2 scrubber). -/
def Obligations.MemoryUpkeep : Prop :=
  ∀ (s : State) (m : Master) (h : Hub) (k : Fin 4) (u : Fin 9) (v : W32) (next : BitVec 48) (who : BitVec 8) (r : TRegion)
    (b : Bytes),
    let zeroed (t : State) (lo n : Nat) : Prop := ∀ a, lo ≤ a → a < lo + n → rb t a = 0
    let kept (t : State) (lo n : Nat) : Prop := ∀ a, ¬ (lo ≤ a ∧ a < lo + n) → rb t a = rb s a
    let at0 := csr s h R.BTPOSLO
    live s h = true →
    (chanOk s h k = true → chanState s h k = 1 → bootOf s h ≠ .waitTrain → s.svc.svcs = [] →
      Answers (.channelTrained h k true) s (fun t => OnlyRegs s t h [R.MCCFG k] ∧ chanState t h k = 2) ∧
      Answers (.channelTrained h k false) s (fun t => OnlyRegs s t h [R.MCCFG k] ∧ chanState t h k = 5)) ∧
    (asP0 s m = true → chanOk s h k = true → v.getLsbD 31 = true → chanState s h k = 2 →
      Answers (.mcinitStart m h k v) s (fun t => OnlyRegs s t h [R.MCINIT k] ∧ rdB t h (R.MCINIT k) 30 = true)) ∧
    (rdB s h (R.MCINIT k) 30 = true → chanBytes s h k ≤ 0x800000000 → Answers (.mcinitDone h k) s (fun t =>
      rdB t h (R.MCINIT k) 30 = false ∧ zeroed t (chanBase h k) (chanBytes s h k) ∧
      kept t (chanBase h k) (chanBytes s h k) ∧ CoresKept s t ∧ RegsKept s t h [R.MCINIT k])) ∧
    (dbgFull s m = true ∨ m = .bootRom h → rdB s h R.MEMCLR 31 = false → fld v 6 0 ≠ 0 →
      Answers (.memclr m h v) s (fun t => OnlyRegs s t h [R.MEMCLR] ∧
        csr t h R.MEMCLR = BitVec.ofNat 32 (2 ^ 31 + fld v 6 0))) ∧
    (rdB s h R.MEMCLR 31 = true → rdF s h R.MEMCLR 6 0 = 1 → Answers (.memclrDone h) s (fun t =>
      csr t h R.MEMCLR = 0 ∧ zeroed t (commonBase h) 0x1000000 ∧ kept t (commonBase h) 0x1000000 ∧ t.cpu = s.cpu ∧
      t.arr = s.arr)) ∧
    (s.mem.bad = [] → s.arr.bad = [] →
      (∀ k : Fin 4, u.val = k.val → rdF s h (R.MCSCRCTL k) 31 30 ≠ 0 → chanServes s h k = true →
        let pos := rdF s h (R.MCSCRPOS k) 28 0
        let lines := chanBytes s h k / 64
        0 < lines → lines ≤ 2 ^ 29 → Answers (.scrubStep h u) s (fun t =>
          OnlyRegs s t h [R.MCSCRPOS k, R.MCSCRPASS k] ∧
          rdF t h (R.MCSCRPOS k) 28 0 = (if pos + 1 < lines then pos + 1 else 0) ∧
          csr t h (R.MCSCRPASS k) = csr s h (R.MCSCRPASS k) + (if pos + 1 < lines then 0 else 1))) ∧
      (4 ≤ u.val → u.val < 8 → rdF s h (R.UMSCRCTL (u.val - 4)) 31 30 ≠ 0 →
        let pos := rdF s h (R.UMSCRPOS (u.val - 4)) 23 0
        Answers (.scrubStep h u) s (fun t => OnlyRegs s t h [R.UMSCRPOS (u.val - 4)] ∧
          rdF t h (R.UMSCRPOS (u.val - 4)) 23 0 = (if pos + 1 < (if u.val < 6 then 2 ^ 18 else 2 ^ 19) then pos + 1 else 0))) ∧
      (u = 8 → rdF s h (R.UMSCRCTL 4) 31 30 ≠ 0 → homed s h ≠ [] →
        let pos := rdF s h (R.UMSCRPOS 4) 23 0
        Answers (.scrubStep h u) s (fun t => OnlyRegs s t h [R.UMSCRPOS 4] ∧
          rdF t h (R.UMSCRPOS 4) 23 0 = (if pos + 1 < (homed s h).length * 2 ^ 19 then pos + 1 else 0)))) ∧
    (testerOn s h = true →
      (testerRegion s h = none → Answers (.testerStep h next false) s (fun t =>
        OnlyRegs s t h [R.BTPOSLO, R.BTPOSHI] ∧ csr t h R.BTPOSLO = next.setWidth 32 ∧
        csr t h R.BTPOSHI = (next >>> 32).setWidth 32)) ∧
      (testerRegion s h = some r → s.mem.bad = [] → s.arr.bad = [] → Answers (.testerStep h next false) s (fun t =>
        csr t h R.BTPOSLO = next.setWidth 32 ∧ rdF t h R.BTSTEPS 31 0 = oneMore s h R.BTSTEPS ∧ t.cpu = s.cpu ∧
        (∀ a, rb t a = rb s a) ∧ PlanesKept s t (fun _ _ => False))) ∧
      (testerRegion s h = some r → s.mem.bad = [] → s.arr.bad = [] → 1 ≤ who.toNat → who.toNat ≤ 6 →
        Answers (.borrowRestore h who) s (fun t => rdF t h R.BTABAND 31 0 = oneMore s h R.BTABAND ∧
          csr t h R.BTPOSLO = at0 ∧ CoresKept s t ∧ PlanesKept s t (fun _ _ => False)))) ∧
    (asP0 s m = true → rdB s h R.JCTL 31 = false → v.getLsbD 31 = true → fld v 19 0 ≠ 0 →
      Answers (.journalEnable m h v) s (fun t => csr t h R.JCTL = v &&& 0x800FFFFF ∧
        tget (fun _ => []) t.svc.jbuf h = [] ∧ CoresKept s t ∧
        (tget (fun _ => []) s.svc.jbuf h = [b] →
          rangeServes s h ((csr s h R.JBASEHI).toNat * 2 ^ 32 + (csr s h R.JBASELO).toNat +
            32 * ((csr s h R.JWR).toNat % (128 * fld v 19 0))) 32 = true →
          csr t h R.JWR = csr s h R.JWR + 1)))

/-! ## Lanes, the PCIe ports and register accesses -/

/-- R314, R315, R325, R326: a lane trains, is up, loses its link; a PCIe port reports its rate and width; one request
at a time goes out of a root port and ends in its status. R326: a downstream device reads and writes the main memory
of its port's owner; every other request, and a host access that is no aligned 4 or 8 bytes or names the debug block,
completes with Unsupported Request. It rests also on the model's choices in assumption 52 (a root port without link).
-/
def Obligations.LanesPortsAndOutsideAccesses : Prop :=
  (∀ (s : State) (m : Master) (h : Hub) (lane : Fin 16) (p : Fin 2) (ok : Bool) (rate width stat : BitVec 4) (v d : W32),
    let lc := R.LCTL lane
    let mode := fld v 27 24
    let st (t : State) (o : Nat) : Nat := rdF t h o 3 0
    let fails (t : State) (p : Nat) : Prop := ∀ k < 8, rdB s h (R.TGT k) 31 = true → rdF s h (R.TGT k) 26 26 = p →
      rdF t h (R.TGT k) 24 23 = 2
    live s h = true →
    (asP0 s m = true → laneOk s h lane = true → leadOf s h lane = none → 1 ≤ mode → mode ≤ 4 →
      (rdB s h lc 31 = false → v.getLsbD 31 = true → Answers (.laneEnable m h lane v) s (fun t =>
        csr t h lc = (v &&& 0xFF700000) ||| 1)) ∧
      (rdB s h lc 31 = true → v.getLsbD 31 = false → rdF s h lc 27 24 = mode → Answers (.laneEnable m h lane v) s (fun t =>
        csr t h lc = v &&& 0xFF700000)) ∧
      (rdB s h lc 31 = true → rdF s h lc 27 24 ≠ mode → exec (.laneEnable m h lane v) s = .next s)) ∧
    (laneOk s h lane = true → rdB s h lc 31 = true → st s lc = 1 →
      (1 ≤ rdF s h lc 27 24 → rdF s h lc 27 24 ≤ 6 → Answers (.laneTrainingDone h lane ok rate width) s (fun t =>
        OnlyRegs s t h [lc] ∧ st t lc = if ok then 2 else 3)) ∧
      (rdF s h lc 27 24 = 7 → portOf s h lane = some p.val →
        rate.toNat ≤ rdF s h R.PCICFG 1 0 → width ∈ [1, 2, 4, (8 : BitVec 4)] → width.toNat ≤ laneWidth s h 7 →
        Answers (.laneTrainingDone h lane true rate width) s (fun t => OnlyRegs s t h [lc, R.PCISTAT] ∧ st t lc = 2 ∧
          portRate t h p = rate.toNat ∧ portWid t h p = width.toNat))) ∧
    (isMac s h lane = true → st s lc = 2 → Answers (.laneLinkDown h lane) s (fun t =>
      st t lc = 3 ∧ t.lan = s.lan ∧ CoresKept s t)) ∧
    (portUp s h p = true → Answers (.pcieLinkDown h p) s (fun t =>
      portRate t h p = 15 ∧ portWid t h p = 0 ∧ st t (R.LCTL ((rdF s h R.PCICFG 27 24 + 4 * p.val) % 16)) = 3 ∧
      (rdB s h R.RPCMD 30 = true → rdF s h R.RPCMD 24 24 = p → rdB t h R.RPCMD 30 = false ∧ st t R.RPCMD = 4) ∧
      (rdB s h R.PCICFG 30 = true → fails t p))) ∧
    (rdB s h R.RPCMD 30 = false → fld v 24 24 = p.val → v.getLsbD 31 = true →
      asP0 s m = true ∨ masterPart s m = portPart s h p → Answers (.rpcmdIssue m h v) s (fun t =>
        OnlyRegs s t h [R.RPCMD] ∧ rdF t h R.RPCMD 24 24 = p.val ∧ rdF t h R.RPCMD 29 28 = fld v 29 28 ∧
        (rdB s h R.PCICFG 30 = true → portUp s h p = true → rdB t h R.RPCMD 30 = true) ∧
        (rdB s h R.PCICFG 30 = false ∨ portUp s h p = false → rdB t h R.RPCMD 30 = false ∧ st t R.RPCMD = 4))) ∧
    (rdB s h R.RPCMD 30 = true →
      (stat.toNat ≤ 2 → Answers (.rpcmdComplete h stat d) s (fun t => OnlyRegs s t h [R.RPCMD, R.RPDATA] ∧
        rdB t h R.RPCMD 30 = false ∧ st t R.RPCMD = stat.toNat ∧
        csr t h R.RPDATA = if rdF s h R.RPCMD 29 28 % 2 = 0 ∧ stat = 0 then d else csr s h R.RPDATA)) ∧
      Answers (.rpcmdTimeout h) s (fun t => rdB t h R.RPCMD 30 = false ∧ st t R.RPCMD = 3 ∧
        (rdB s h R.PCICFG 30 = true → fails t (rdF s h R.RPCMD 24 24))))) ∧
  (∀ (s : State) (h : Hub) (p : Fin 2) (a : BitVec 48) (len : BitVec 8) (b : Bytes) (write : Bool) (size : BitVec 4)
    (off : BitVec 26) (d : W64),
    let owned : Prop := ownsAddr s (portPart s h p) a.toNat = true ∧
      ownsAddr s (portPart s h p) (a.toNat + len.toNat - 1) = true
    live s h = true →
    (rdB s h R.PCICFG 30 = true → portUp s h p = true → len ≠ 0 →
      (owned → s.mem.bad = [] → a.toNat + len.toNat ≤ mainTop → rangeServes s h a.toNat len.toNat = true →
        exec (.inboundRequest h p false a len b) s =
          .next { s with resp := ⟨0, BitVec.ofNat 2048 (littleEndian s a.toNat len.toNat)⟩ } ∧
        (b.length = len.toNat → Answers (.inboundRequest h p true a len b) s (fun t => t.resp = ⟨0, 0⟩ ∧
          (∀ x, rb t x = if a.toNat ≤ x ∧ x < a.toNat + len.toNat then b.getD (x - a.toNat) 0 else rb s x) ∧
          t.csr = s.csr ∧ CoresKept s t))) ∧
      (¬ owned → Answers (.inboundRequest h p write a len b) s (fun t => t.resp = ⟨1, 0⟩ ∧
        OnlyRegs { s with resp := t.resp } t h [R.RPUR] ∧ rdF t h R.RPUR 31 0 = oneMore s h R.RPUR))) ∧
    (rdB s h R.PCICFG 30 = false → portUp s h 0 = true →
      (size ≠ 4 ∧ size ≠ 8 ∨ off.toNat % size.toNat ≠ 0 ∨ 0xD00000 ≤ off.toNat ∧ off.toNat < 0xE00000 →
        exec (.hostAccess h write size off d) s = .next { s with resp := ⟨1, 0⟩ }) ∧
      (off = BitVec.ofNat 26 R.PWRCTL → tileIso s h tSYS = false →
        exec (.hostAccess h false 4 off d) s =
          .next { s with resp := ⟨0, ((csr s h R.PWRCTL) &&& 0x03300FFF).setWidth 2048⟩ })))

/-- R316, R317, R318: a damaged frame is counted, a good one takes the descriptor at the head of its ring, a PFC frame
stops and restarts the priorities that are honoured, and XOFF is sent again while it stands. R319, R320: an entry that
passes the checks is loaded, with STATUS 0; a wrong CHK gives 1, an invalid field 2, and neither installs anything; a
remove unloads its entry. It rests also on the model's choices in assumptions 45 (frames come without FCS) and 48 (one
table for each half). -/
def Obligations.FramesAndStreamTable : Prop :=
  (∀ (s : State) (h : Hub) (n : Fin 16) (prio : Fin 8) (fcs : Bool) (f : Bytes) (k : Fin 8),
    let ok : Prop := fcs = true ∧ 60 ≤ f.length ∧ f.length ≤ 9212 ∧ badIp f = false
    let bit (b : Byte) : Bool := b.getLsbD k
    let mask := if rdB s h (R.PFC n) 31 then rdF s h (R.PFC n) 23 16 else 0
    let cev := beNat (sub f 16 2) % 256
    let taken (g : RingRegs) : Prop := s.mem.bad = [] ∧ descAddr s h g + 32 ≤ mainTop ∧
      rangeServes s h (descAddr s h g) 32 = true ∧ rb s (descAddr s h g + 31) = crc8 (rbs s (descAddr s h g) 31).reverse ∧
      (rb s (descAddr s h g + 10)).getLsbD 0 = true ∧ ringLen (rdF s h g.ctl 12 0) = true
    let moved (t : State) (g : RingRegs) : Prop := RegsKept s t h [g.head] ∧ CoresKept s t ∧
      rdF t h g.head 11 0 = (rdF s h g.head 11 0 + 1) % rdF s h g.ctl 12 0
    let rx := rxRegs n
    let tx := txRegs n
    let D := descAddr s h rx
    let B := littleEndian s D 6
    let n1 := Nat.min f.length (littleEndian s (D + 8) 2)
    let E := descAddr s h tx
    let C := littleEndian s E 6
    let n2 := littleEndian s (E + 8) 2
    live s h = true →
    (serving s h = true → macOf s h n = n → isMac s h n = true → rdF s h (R.LCTL n) 3 0 = 2 →
      (¬ ok → Answers (.frameReceive h n fcs f) s (fun t => OnlyRegs s t h [R.RXERR n] ∧
        rdF t h (R.RXERR n) 31 0 = oneMore s h (R.RXERR n))) ∧
      (ok → beNat (sub f 12 2) = 0x8808 → beNat (sub f 14 2) = 0x0101 → Answers (.frameReceive h n fcs f) s (fun t =>
        { t with lan := s.lan, csr := s.csr } = s ∧ RegsKept s t h [R.RXPAUSE n] ∧
        bit (pausedOf t h n) = if cev.testBit k ∧ mask.testBit k then decide (beNat (sub f (18 + 2 * k.val) 2) ≠ 0)
          else bit (pausedOf s h n))) ∧
      (ok → beNat (sub f 12 2) ≠ 0x8808 → (∀ p, parse f = some p → matchStream s h n p = none) →
        (rdB s h rx.ctl 31 = false → Answers (.frameReceive h n fcs f) s (fun t => OnlyRegs s t h [R.RXDROP n] ∧
          rdF t h (R.RXDROP n) 31 0 = oneMore s h (R.RXDROP n))) ∧
        (rdB s h rx.ctl 31 = true → taken rx → 0 < n1 → B + n1 ≤ mainTop → rangeServes s h B n1 = true →
          B + n1 ≤ D ∨ D + 32 ≤ B → Answers (.frameReceive h n fcs f) s (fun t => moved t rx ∧
            (∀ j < n1, rb t (B + j) = f.getD j 0) ∧ littleEndian t D 6 = B ∧ littleEndian t (D + 8) 2 = f.length ∧
            (rb t (D + 10)).getLsbD 0 = false ∧ ((rb t (D + 10)).getLsbD 3 = true ↔ n1 < f.length) ∧
            littleEndian t (D + 16) 8 = (stamp s h n false).1.toNat ∧
            (∀ a, ¬ (B ≤ a ∧ a < B + n1) → ¬ (D ≤ a ∧ a < D + 32) → rb t a = rb s a))))) ∧
    (isMac s h n = true → rdF s h (R.LCTL n) 3 0 = 2 → rdB s h tx.ctl 31 = true → taken tx → rangeServes s h C n2 = true →
      C + n2 ≤ mainTop →
      let q := (rb s (E + 11)).toNat % 8
      ((pausedOf s h n).getLsbD q = true → exec (.frameTransmit h n) s = .next s) ∧
      ((pausedOf s h n).getLsbD q = false → Answers (.frameTransmit h n) s (fun t => moved t tx ∧
        t.lan.sent = (16 * h.val + n.val, rbs s C n2) :: s.lan.sent ∧ (rb t (E + 10)).getLsbD 0 = false ∧
        (∀ a, ¬ (E ≤ a ∧ a < E + 32) → rb t a = rb s a)))) ∧
    (xoffNow s h = true → pacesE s h n = true → Answers (.pfcXoffRepeat h n) s (fun t =>
      t.lan.pfcOut = (16 * h.val + n.val, 0xFFFF) :: s.lan.pfcOut ∧ { t with lan := s.lan } = s)) ∧
    Answers (.pfcPauseExpiry h n prio) s (fun t => { t with lan := s.lan } = s ∧
      bit (pausedOf t h n) = (bit (pausedOf s h n) && decide (k ≠ prio)))) ∧
  (∀ (s : State) (m : Master) (h : Hub) (half : Fin 2) (v : W32),
    let ix := fld v 25 16
    let a := rdF s h (R.STBASEHI half) 15 0 * 2 ^ 32 + (csr s h (R.STBASELO half)).toNat / 64 * 64 + 64 * ix
    let e := rbs s a 64
    let good : Prop := byteAt e 63 = crc8 (e.take 63).reverse
    let at' (t : State) (key : Nat) : Option Bytes := tget (fun _ => none) t.lan.streams key
    let status (t : State) : Nat := rdF t h (R.STCTL half) 3 0
    live s h = true → asP0 s m = true → v.getLsbD 31 = true →
    (fld v 29 28 = 1 → s.mem.bad = [] → a + 64 ≤ mainTop → rangeServes s h a 64 = true →
      (good → entryOk s half e = true → (∀ o ∈ streamsOf s h, o.1 ≠ streamKey h half ix → sameKey o.2 e = false) →
        entryRefs s h half e = true → Answers (.streamLoad m h half v) s (fun t => status t = 0 ∧
          OnlyRegs { s with lan := t.lan, evi := t.evi } t h [R.STCTL half] ∧
          ∀ key, at' t key = if key = streamKey h half ix then some e else at' s key)) ∧
      (¬ good → Answers (.streamLoad m h half v) s (fun t => status t = 1 ∧ t.lan = s.lan ∧ CoresKept s t)) ∧
      (good → entryOk s half e = false → Answers (.streamLoad m h half v) s (fun t => status t = 2 ∧
        OnlyRegs s t h [R.STCTL half]))) ∧
    (fld v 29 28 = 2 → Answers (.streamRemove m h half v) s (fun t => status t = 0 ∧
      OnlyRegs { s with lan := t.lan } t h [R.STCTL half] ∧
      ∀ key, at' t key = if key = streamKey h half ix then none else at' s key)))

/-- R15, R16, R249: a register that answers and that its writer may write changes by the access codes of its fields; an
offset that names none takes nothing; a write whose target does not answer is counted by the absorber that it meets. -/
def Obligations.RegisterWrites : Prop :=
  ∀ (s : State) (m : Master) (h : Hub) (off : BitVec 26) (v : W32) (d : RegDesc) (i j k : Nat),
    let eh := (masterHub m).getD h.val
    let o := off.toNat
    let old := csr s h o
    (∀ c, (getCore s c).stepReq = false) → (∀ c, bootOf s c ≠ .waitKeep) → live s eh = true → hostBarred m o = false →
    mayPost s m = true → o % 4 = 0 →
    (csrOk s m eh h o = false → Answers (.registerWrite m h off v) s (fun t =>
      let at' := if reach s eh h then h.val else eh
      OnlyRegs s t at' [R.NISODISC] ∧ rdF t at' R.NISODISC 31 0 = oneMore s at' R.NISODISC)) ∧
    (csrOk s m eh h o = true → o ≠ R.BOOTCTL →
      (findReg o = none → exec (.registerWrite m h off v) s = .next s) ∧
      (findReg o = some (d, i, j, k) → csrHook s m h d i j k v = none →
        (mayWrite s m h d i = false → exec (.registerWrite m h off v) s = .next s) ∧
        (mayWrite s m h d i = true → csrLegal s h d i j old v = false → d.base ≠ R.MBDB → d.base ≠ R.PATCHRAM 0 →
          exec (.registerWrite m h off v) s = .next s) ∧
        (mayWrite s m h d i = true → csrLegal s h d i j old v = true →
          (d.base = R.TVECLO 0 ∨ d.base = R.WINCTL 0 0 ∨ d.base = R.EDGECFG 0 ∨ d.base = R.LTS 0 →
            Answers (.registerWrite m h off v) s (fun t => OnlyRegs s t h [o] ∧
              ∀ f ∈ d.flds, f.acc = .rw → fld (csr t h o) f.hi f.lo = fld v f.hi f.lo)))))

/-! ## The mailbox -/

/-- R327 to R331, R369: the checks of a command in their order, IDENT, register accesses, JOURNAL, SEALST and TOKEN.
It rests also on the model's choices in assumption 130 (which register access answers). -/
def Obligations.MailboxCommands : Prop :=
  ∀ (s : State) (h : Hub) (slot : Fin 8) (x : Bell) (b : Bytes),
    let op := (byteAt b 0).toNat
    let off := leAt b 8 4
    let j := leAt b 12 1
    let gives (i : Instr) (st : Nat) (res : Bytes) : Prop := Answers i s (fun t => MbAnswer t h slot b st res)
    let plain (i : Instr) (st : Nat) (res : Bytes) : Prop :=
      Answers i s (fun t => MbAnswer t h slot b st res ∧ OnlyMailbox s t h slot)
    let reg (k o : Nat) : Bytes := natLe 4 (if hubOk s k then (csr s k o).toNat else 0)
    (live s h = true → frontBell s h slot = some x → cmdBytes s h slot = b → byteAt b 63 ≠ crc8 (b.take 63).reverse →
      (op = 0x01 → gives (.ident h slot) 1 []) ∧ (op = 0x12 → gives (.journal h slot) 1 []) ∧
      (op = 0x32 → gives (.stroke h slot) 1 [] ∧ Answers (.stroke h slot) s (fun t => t.evi.stroke = s.evi.stroke))) ∧
    (MbFront s h slot x b →
      (strokeOf s h ≠ .none → (op = 0x12 → gives (.journal h slot) 2 (natLe 8 1)) ∧
        (op = 0x01 → argsClean b [] = true → gives (.ident h slot) 2 (natLe 8 1))) ∧
      (strokeOf s h = .none →
        (bootOf s h ≠ .done → op = 0x12 → gives (.journal h slot) 2 (natLe 8 2)) ∧
        (op = 0x01 → argsClean b [] = true → plain (.ident h slot) 0
          (reg 0 R.IDENT ++ reg 0 R.CONFIG ++ reg 1 R.IDENT ++ reg 1 R.CONFIG ++ natLe 8 s.boot.serial.toNat)) ∧
        (op = 0x02 → off = R.PWRCTL → j < 2 → leAt b 13 1 = 4 → reach s h j = true → tileIso s j tSYS = false →
          plain (.csrrd h slot) 0 (natLe 4 ((csr s j R.PWRCTL) &&& 0x03300FFF).toNat)) ∧
        (op = 0x02 → off % 4 ≠ 0 → plain (.csrrd h slot) 1 [])) ∧
      (op = 0x01 → argsClean b [] = false → plain (.ident h slot) 1 []) ∧
      (mbAssigned op = false → plain (.mailboxUnassignedOpcode h slot) 6 []) ∧
      (op = 0x10 → x.part ≠ 0 → leAt b 9 1 = 1 → plain (.partCreate h slot) 4 []) ∧
      (MbServed s h →
        (op = 0x03 → off = R.TVECLO 0 → j < 2 → leAt b 13 1 = 4 → x.part = 0 → reach s h j = true →
          csrAnswers s (.mailbox 0) j off = true → Answers (.csrwr h slot) s (fun t => MbAnswer t h slot b 0 [] ∧
            rdF t j off 31 2 = leAt b 16 4 / 4)) ∧
        (op = 0x12 → plain (.journal h slot) 0 (natLe 8 ((csr s h R.JBASELO).toNat + rdF s h R.JBASEHI 15 0 * 2 ^ 32) ++
          natLe 4 (rdF s h R.JCTL 19 0) ++ natLe 4 (csr s h R.JWR).toNat)) ∧
        (op = 0x31 → argsClean b [(8, 2), (10, 1)] = true → hubArg s (leAt b 10 1) = true → leAt b 8 2 < 1024 →
          plain (.sealst h slot) 0 (natLe 8 (sealqValue s (leAt b 10 1) x.part (leAt b 8 2)).toNat)) ∧
        (op = 0x40 → argsClean b [(8, 8), (16, 8), (24, 1)] = true → hubArg s (leAt b 24 1) = true →
          reach s h (leAt b 24 1) = true → pathAccepts s (leAt b 24 1) (mbTok b x.part) = true →
          Answers (.token h slot) s (fun t => MbAnswer t h slot b 0 [0] ∧ ∃ k, t.tok.transit = s.tok.transit ++ [k] ∧
            k.tag = BitVec.ofNat 64 (leAt b 8 8) ∧ k.value = BitVec.ofNat 64 (leAt b 16 8) ∧ k.chk = tagCheck k.tag ∧
            k.dst.val = leAt b 24 1 ∧ k.src = .mailbox))))

/-- R353 to R361, R363: what PART and SVC do when no check refuses them, and the end of a takeover. It rests also on
the model's choices in assumptions 94 to 97 (when a record is written, changes that wait). -/
def Obligations.PartitionsAndService : Prop :=
  ∀ (s : State) (h : Hub) (slot : Fin 8) (x : Bell) (b : Bytes) (q : Fin 8),
    let op := (byteAt b 0).toNat
    let p := leAt b 8 1
    let jp := leAt b 11 1
    let j := leAt b 9 1
    let i := leAt b 10 1
    let mask : W32 := BitVec.ofNat 32 (leAt b 12 4)
    let chans : W32 := BitVec.ofNat 32 (leAt b 16 1 % 16)
    let does (c : Instr) (P : State → Prop) : Prop := Answers c s (fun t => MbAnswer t h slot b 0 [] ∧ P t)
    let state (t : State) : ShState := (getSheet t i).state
    let part (k : Nat) : Prop := op = 0x10 ∧ leAt b 9 1 = k ∧ p < 8 ∧ leAt b 10 1 < 2
    let svc (k : Nat) : Prop := op = 0x11 ∧ leAt b 8 1 = k ∧ j < 2 ∧ svcPresent s k j i = true ∧
      svcCode s h k j i (leAt b 11 1) ((byteAt b 12).getLsbD 1) = 0
    let peers := ((List.range 6).filter (fun a => dieOk s a && dieHome s a == 1 - h.val)).map (homeLink s (1 - h.val))
    (MbFront s h slot x b → MbServed s h → x.part = 0 →
      (part 1 → rdB s 0 (R.PCFG p) 31 = false → does (.partCreate h slot) (fun t => ∀ k < 2, hubOk s k = true →
        rdB t k (R.PCFG p) 31 = true ∧ rdF t k (R.PCFG p) 30 30 = leAt b 10 1)) ∧
      (part 1 → rdB s 0 (R.PCFG p) 31 = true →
        Answers (.partCreate h slot) s (fun t => MbAnswer t h slot b 2 (natLe 8 2))) ∧
      (part 2 → p ≠ 0 → (∀ k < 2, hubOk s k = true → ownsOn s k p = false) → does (.partDelete h slot) (fun t =>
        ∀ k < 2, hubOk s k = true → rdB t k (R.PCFG p) 31 = false)) ∧
      (part 3 → hubArg s jp = true → rdB s 0 (R.PCFG p) 31 = true →
        (∀ c < 32, mask.getLsbD c = true → (getCore s (32 * jp + c)).rstate = .out) →
        does (.partAssigncores h slot) (fun t => csr t jp (R.PCORES q) =
          (csr s jp (R.PCORES q) &&& ~~~mask) ||| if q.val = p then mask else 0)) ∧
      (part 4 → hubArg s jp = true → (∀ k < 4, chans.getLsbD k = true → windowUsed s jp k false = false) →
        does (.partAssignch h slot) (fun t => ∀ k < 4, rdB t jp (R.PCFG q) k =
          if chans.getLsbD k = true then decide (q.val = p) else rdB s jp (R.PCFG q) k)) ∧
      (svc 1 → leAt b 11 1 = 0xFF → does (.evac h slot) (fun t =>
        ∃ id, tget (fun _ => none) t.arr.changes id = some (.evac i none))) ∧
      (svc 2 → does (.test h slot) (fun t => state t = .test)) ∧
      (svc 3 → does (.returnSheet h slot) (fun t => state t = .clear ∧ (getSheet t i).gid = i)) ∧
      (svc 4 → does (.retire h slot) (fun t => state t = .retired)) ∧
      (svc 5 → does (.drain h slot) (fun t =>
        (((byteAt b 12).getLsbD 1 = true ∨ (getCore s (32 * j + i)).isIdle = true) →
          (getCore t (32 * j + i)).rstate = .out ∧ (getCore t (32 * j + i)).running = none) ∧
        ((byteAt b 12).getLsbD 1 = false → (getCore s (32 * j + i)).isIdle = false →
          (getCore t (32 * j + i)).drain = true))) ∧
      (svc 6 → does (.returnCore h slot) (fun t => (getCore t (32 * j + i)).rstate = .idle)) ∧
      (svc 7 → domOf s (160 + i) = .on → does (.dieoff h slot) (fun t => domOf t (160 + i) = .fencing ∧
        rdB t (dieHome s i) (R.NDIE i) 31 = false ∧ dplState t (dieHome s i) (dieLink (dieHome s i) i) = 0)) ∧
      (svc 8 → does (.dieon h slot) (fun t => domOf t (160 + i) = .waking ∧
        rdB t (dieHome s i) (R.NDIE i) 31 = true ∧ rdB t (dieHome s i) (R.DPLCTL (dieLink (dieHome s i) i)) 31 = true)) ∧
      (svc 9 → does (.chretire h slot) (fun t => chanState t j i = 4 ∧ rdB t j (R.PCFG q) i = false)) ∧
      (svc 10 → does (.chreturn h slot) (fun t => chanState t j i = 1)) ∧
      (svc 11 → hubOk s 1 = true → does (.takeover h slot) (fun t => rdF t j R.TKCTL 27 25 = 1))) ∧
    (live s h = true → hubOk s 1 = true → rdF s h R.TKCTL 27 25 = 1 → s.svc.taken = none →
      ((tget (fun _ => false) s.svc.tkForce h = true ∨ ∀ l ∈ peers, l = 1) → Answers (.takeoverAdopt h) s (fun t =>
        rdF t h R.TKCTL 27 25 = 2 ∧ (t.svc.taken.map Fin.val) = some (1 - h.val) ∧ rdB t h R.ALARMSTAT 2 = true ∧
        ∀ c < 32, (getCore t (32 * (1 - h.val) + c)).rstate = .out)) ∧
      (tget (fun _ => false) s.svc.tkForce h = false → 0 ∈ peers → (∀ l ∈ peers, l = 0) →
        Answers (.takeoverAdopt h) s (fun t => rdF t h R.TKCTL 27 25 = 3 ∧ t.svc.taken = none ∧ t.arr = s.arr ∧
          t.cpu = s.cpu)))

/-- R331, R378, R379, R400: BOOT, the two loads, CHOPREQ, STROKE and the authentication and accesses of DBGAUTH. It
rests also on the model's choices in assumption 72 (how a challenge is drawn). -/
def Obligations.MailboxLoadsAndDebug : Prop :=
  ∀ (s r : State) (h : Hub) (slot : Fin 8) (x : Bell) (b image : Bytes) (w : Nat),
    let op := (byteAt b 0).toNat
    let sub8 := leAt b 8 1
    let a := leAt b 16 8
    let n := leAt b 24 1
    let does (c : Instr) (res : Bytes) (P : State → Prop) : Prop := Answers c s (fun t => MbAnswer t h slot b 0 res ∧ P t)
    let word (t : State) (k : Nat) : W64 := authWord t h .host k
    MbFront s h slot x b → strokeOf s h = .none →
    (op = 0x20 → awaitsHost s = true → Answers (.boot h slot image) s (fun t => ∃ res, MbAnswer t h slot b 0 res ∧
      leAt res 0 1 = rdF t h R.BOOTSTAT 27 24)) ∧
    (bootOf s h = .done →
      (op = 0x21 → x.part = 0 → argsClean b [(8, 8), (16, 1), (20, 4)] = true → imageArg (leAt b 8 8) = true →
        hubArg s (leAt b 16 1) = true → rdB s (leAt b 16 1) R.MCSTART 30 = false →
        (∀ i ∈ mcCores (leAt b 16 1) (BitVec.ofNat 32 (leAt b 20 4)), (getCore s i).rstate = .out) →
        Answers (.mcload h slot) s (fun t => rdB t (leAt b 16 1) R.MCSTART 30 = true ∧ bellsOf t h = bellsOf s h ∧
          mcLoadOf t (leAt b 16 1) = some ⟨BitVec.ofNat 48 (leAt b 8 8), BitVec.ofNat 32 (leAt b 20 4),
            some (loadSlot h slot)⟩)) ∧
      (op = 0x22 → x.part = 0 → argsClean b [(8, 8), (16, 1)] = true → imageArg (leAt b 8 8) = true →
        hubArg s (leAt b 16 1) = true → rdB s (leAt b 16 1) R.FLOAD 30 = false → fabricFenced s (leAt b 16 1) = false →
        fabricOff s (leAt b 16 1) = false → Answers (.fabload h slot) s (fun t =>
          rdB t (leAt b 16 1) R.FLOAD 30 = true ∧ bellsOf t h = bellsOf s h ∧
          loadOf t (leAt b 16 1) = some (BitVec.ofNat 48 (leAt b 8 8), some (loadSlot h slot)))) ∧
      (op = 0x30 → argsClean b [(8, 8), (16, 1)] = true → hubArg s (leAt b 16 1) = true → leAt b 8 8 + 64 ≤ mainTop →
        s.mem.bad = [] → rangeServes s (leAt b 16 1) (leAt b 8 8) 64 = true →
        let q := rbs s (leAt b 8 8) 64
        let ring := chopRing r (leAt b 16 1) q
        (chopStatus s (leAt b 16 1) x.part q = (r, 0, w) → (ringQ r (leAt b 16 1) ring).length < 64 → leAt q 0 1 = 2 →
          does (.chopreq h slot) [0, BitVec.ofNat 8 w] (fun t => ∃ y,
            ringQ t (leAt b 16 1) ring = ringQ r (leAt b 16 1) ring ++ [y] ∧ y.kind = .band ∧ y.chain = leAt q 2 2)) ∧
        (∀ st, st ≠ 0 → chopStatus s (leAt b 16 1) x.part q = (r, st, w) →
          does (.chopreq h slot) [BitVec.ofNat 8 st, BitVec.ofNat 8 w] (fun t => t.evi = r.evi))) ∧
      (op = 0x32 → x.part = 0 → argsClean b [(8, 1)] = true → sub8 = 0x5A → s.pwr.power = .on →
        (∀ k, hubInService s k = true → strokeOf s k = .none) → does (.stroke h slot) [] (fun t =>
          t.pwr.power = .stroke ∧ t.evi.cause = 3 ∧ (hubInService s h = true → strokeOf t h = .running)))) ∧
    (op = 0x50 →
      (sub8 = 1 → does (.dbgauthChallenge h slot) (be256 (Config.random s.fresh)) (fun t =>
        challengeOf t h .host = some (Config.random s.fresh))) ∧
      (sub8 = 2 → leAt b 9 1 < 4 → does (.dbgauthLoad h slot) [] (fun t => ∀ k < 16, word t k =
        if k / 4 = leAt b 9 1 then BitVec.ofNat 64 (leAt b (16 + 8 * (k % 4)) 8) else word s k)) ∧
      (sub8 = 3 → leAt b 9 1 < 3 → locked s h .host = false → authGood s h .host (leAt b 9 1) = true →
        does (.dbgauthGo h slot) [] (fun t => dbgLevel t h .host = leAt b 9 1 ∧ challengeOf t h .host = none)) ∧
      (sub8 = 3 → leAt b 9 1 < 3 → locked s h .host = false → authGood s h .host (leAt b 9 1) = false →
        Answers (.dbgauthGo h slot) s (fun t => MbAnswer t h slot b 4 [] ∧ dbgLevel t h .host = dbgLevel s h .host ∧
          challengeOf t h .host = none)) ∧
      (sub8 = 4 → does (.dbgauthRevoke h slot) [] (fun t => dbgLevel t h .host = 0)) ∧
      (s.mem.bad = [] → a + n ≤ mainTop → n = 4 ∨ n = 8 → a % n = 0 → rangeServes s h a n = true →
        (sub8 = 5 → dbgLevel s h .host ≠ 0 → does (.dbgauthRead h slot) (zeros 24 ++ natLe 8 (littleEndian s a n))
          (fun t => OnlyMailbox s t h slot)) ∧
        (sub8 = 6 → dbgLevel s h .host = 2 → does (.dbgauthWrite h slot) [] (fun t => CoresKept s t ∧
          ∀ k, rb t k = if a ≤ k ∧ k < a + n then byteAt b (32 + (k - a)) else rb s k))) ∧
      (sub8 = 6 → n = 4 ∨ n = 8 → dbgLevel s h .host ≠ 2 → Answers (.dbgauthWrite h slot) s (fun t => MbAnswer t h slot b 4 [] ∧
        OnlyMailbox s t h slot)))

/-! ## The debug access unit -/

/-- R9, R376 to R381: a frame of the probe is answered by its status and data, at the level that its path holds;
DBGACC and the instructions of the TAP. It rests also on the model's choices in assumption 72 (how a challenge is
drawn). -/
def Obligations.ProbeAndTap : Prop :=
  ∀ (s : State) (h : Hub) (f : BitVec 128) (c : BitVec 256),
    let a := frAddr f
    let n := if frOp f % 2 = 1 then 4 else 8
    let resp (t : State) : Option (BitVec 80) := tget (fun _ => none) t.dbg.presp h
    let gives (i : Instr) (st : Nat) (d : W64) (P : State → Prop) : Prop :=
      Answers i s (fun t => resp t = some (respFrame st d) ∧ P t)
    let same (t : State) : Prop := { t with dbg := s.dbg } = s
    let ir (t : State) : Byte := tget (fun _ => 0x01) t.dbg.ir h
    let full : Prop := dbgLevel s h .probe = 2
    let part : W32 := match s.part with | .yq8680 => 0x28680D9D | .yq8640 => 0x28640D9D | .yq8620 => 0x28620D9D
    live s h = true →
    (frGood f = false →
      (frOp f = 1 → gives (.probeRead h f) 1 0 same) ∧ (frOp f = 3 → gives (.probeWrite h f) 1 0 same) ∧
      (frOp f = 8 → gives (.authgo h f) 1 0 same)) ∧
    (frGood f = true → fld f 123 120 = 0 →
      (frOp f = 1 ∨ frOp f = 2 → dbgLevel s h .probe = 0 → gives (.probeRead h f) 2 0 same) ∧
      (frOp f = 3 ∨ frOp f = 4 → ¬ full → gives (.probeWrite h f) 2 0 same) ∧
      (s.mem.bad = [] → a + n ≤ mainTop → a % n = 0 → rangeServes s h a n = true →
        (frOp f = 1 ∨ frOp f = 2 → dbgLevel s h .probe ≠ 0 →
          gives (.probeRead h f) 0 (BitVec.ofNat 64 (littleEndian s a n)) same) ∧
        (frOp f = 3 ∨ frOp f = 4 → full → gives (.probeWrite h f) 0 0 (fun t => CoresKept s t ∧
          ∀ k, rb t k = if a ≤ k ∧ k < a + n then BitVec.ofNat 8 ((frData f).toNat / 256 ^ (k - a)) else rb s k))) ∧
      (frOp f = 5 → gives (.probeStatus h f) 0 ((csr s h R.DBGCTL).setWidth 64) same ∧
        Answers (.dbgacc h f) s (fun t => ir t = 0x20 ∧
          t.resp = ⟨0, BitVec.ofNat 2048 (2 ^ 127 + (respFrame 0 ((csr s h R.DBGCTL).setWidth 64)).toNat)⟩)) ∧
      (frOp f = 6 → a % 4 = 0 → gives (.probeChallenge h f) 0
        (BitVec.ofNat 64 (leAt (be256 (Config.random s.fresh)) 0 8)) (fun t =>
          challengeOf t h .probe = some (Config.random s.fresh))) ∧
      (frOp f = 6 → a % 4 ≠ 0 → challengeOf s h .probe = some c →
        gives (.probeChallenge h f) 0 (BitVec.ofNat 64 (leAt (be256 c) (8 * (a % 4)) 8)) same) ∧
      (frOp f = 7 → gives (.authload h f) 0 0 (fun t => same t ∧ ∀ k < 16, authWord t h .probe k =
        if k = a % 16 then frData f else authWord s h .probe k)) ∧
      (frOp f = 8 → fld (frData f) 1 0 < 3 →
        (locked s h .probe = true → gives (.authgo h f) 6 0 same) ∧
        (locked s h .probe = false → authGood s h .probe (fld (frData f) 1 0) = true → gives (.authgo h f) 0 0 (fun t =>
          dbgLevel t h .probe = fld (frData f) 1 0 ∧ challengeOf t h .probe = none)) ∧
        (locked s h .probe = false → authGood s h .probe (fld (frData f) 1 0) = false → gives (.authgo h f) 6 0 (fun t =>
          dbgLevel t h .probe = dbgLevel s h .probe ∧ challengeOf t h .probe = none ∧
          (locked t h .probe = true ↔ 8 ≤ tget (fun _ => 0) s.dbg.fails (2 * h.val) + 1)))) ∧
      (frOp f = 9 → gives (.probeRevoke h f) 0 0 (fun t => dbgLevel t h .probe = 0)) ∧
      (frOp f = 0 ∨ 10 ≤ frOp f → gives (.probeReservedOp h f) 5 0 same)) ∧
    Answers (.spSelDeassert h) s (fun t => same t ∧ resp t = none) ∧
    (full → Answers (.extest h) s (fun t => same t ∧ ir t = 0x00) ∧ Answers (.clamp h) s (fun t => same t ∧ ir t = 0x03) ∧
      Answers (.highz h) s (fun t => same t ∧ ir t = 0x04)) ∧
    (¬ full → ∀ i ∈ [Instr.extest h, .clamp h, .highz h], Answers i s (fun t => ir t = 0xFF ∧ t.resp = ⟨0, 0⟩)) ∧
    Answers (.idcode h) s (fun t => ir t = 0x01 ∧ t.resp = ⟨0, part.setWidth 2048⟩) ∧
    Answers (.samplePreload h) s (fun t => same t ∧ ir t = 0x02) ∧
    Answers (.bypass h) s (fun t => ir t = 0xFF ∧ t.resp = ⟨0, 0⟩)

/-- R382 to R384: a debugger at FULL halts a core at a boundary, reads and writes its registers while it is halted,
and resumes it or steps it through one instruction (here ADDI G1, G1, 1); without FULL nothing happens. It rests also
on the model's choices in assumption 74 (what DSTAT and a PC write show). -/
def Obligations.CoreHalts : Prop :=
  ∀ (s f : State) (m : Master) (c : CoreId) (v : W32) (hi : Bool),
    let i := coreIx c
    let h := c.hub.val
    let k := getCore s i
    let o := R.DCTL (i % 32)
    let sel := rdF s h (R.DRSEL (i % 32)) 8 0
    let noSteps : Prop := (∀ j, j ≠ i → (getCore s j).stepReq = false) ∧ ∀ j, bootOf s j ≠ .waitKeep
    let s1 := updCore (wrF s h o 28 26 (fld v 28 26)) i (fun x => { x with stepReq := true, halted := false })
    live s c.hub = true →
    (mayDebug s m c.hub = false → exec (.haltRequest m c v) s = .next s ∧ exec (.coreResume m c v) s = .next s ∧
      exec (.coreStep m c v) s = .next s ∧ exec (.drdataWrite m c hi v) s = .next s) ∧
    (mayDebug s m c.hub = true → k.rstate ≠ .out →
      (k.halted = false → fld v 31 29 = 4 → Answers (.haltRequest m c v) s (fun t => OnlyRegs s t h [o] ∧
        rdB t h o 31 = true ∧ rdF t h o 28 26 = fld v 28 26)) ∧
      (k.halted = true →
        (fld v 30 30 = 1 → k.stepReq = false → noSteps → Answers (.coreResume m c v) s (fun t =>
          CoreBecomes { s with csr := t.csr } t i { k with halted := false, haltCause := 0 } ∧
          RegsKept s t h [o, R.WDCNT (i % 32), R.WDCNT 32])) ∧
        (fld v 30 28 = 2 → noSteps → coreLive s1 i = true → k.busy = true → k.sleep = false → k.micro = none →
          fetchAt (boundary s1 i) i k.pc = .ok (f, 0x0C210001) → (getCore f i).fpu = none →
          (getCore f i).rstate = .running → (∀ j, j ≠ i → (getCore f j).stepReq = false) → (∀ j, bootOf f j ≠ .waitKeep) →
          Answers (.coreStep m c v) s (fun t => (getCore t i).gr 1 = (getCore f i).gr 1 + 1 ∧
            (getCore t i).pc = (getCore f i).pc + 4 ∧ (getCore t i).halted = true ∧ (getCore t i).haltCause = 2 ∧
            (getCore t i).stepReq = false ∧ t.mem = f.mem)) ∧
        (0 < sel → sel < 32 → Answers (.drdataWrite m c hi v) s (fun t => OnlyCore s t i ∧ ∀ r < 32,
          (getCore t i).gr r = if r = sel then (if hi then cat64 v (lo32 (k.gr r)) else cat64 (hi32 (k.gr r)) v)
            else k.gr r)))) ∧
    (serving s c.hub = true → haltWanted s i = true → k.fpu = none → k.micro = none →
      (fld k.lladdr 0 0 = 0 → Answers (.coreHalt c) s (fun t => rdB t h o 31 = false ∧
        CoreBecomes { s with csr := t.csr } t i
          { k with halted := true, haltCause := 1, forced := false, stepReq := false })) ∧
      (fld k.lladdr 0 0 = 1 → exec (.coreHalt c) s = .next s ∧ Answers (.haltForce c) s (fun t => rdB t h o 31 = false ∧
        CoreBecomes { s with csr := t.csr } t i
          { k with halted := true, haltCause := 1, forced := true, stepReq := false, lladdr := 0 })))

/-- R386, R388, R391 to R393: a debugger halts, resumes and steps a gang and injects a word into it; DBGCTL; a store
to a margin port leaves a record, and the trace pins carry the two FIFOs by turns. It rests also on the model's
choices in assumptions 75 and 76 (injected words, idle trace packets). -/
def Obligations.GangsMarginAndTrace : Prop :=
  ∀ (s : State) (m : Master) (h : Hub) (g : Sheet) (c : CoreId) (v : W32) (i : BitVec 8) (size64 : Bool) (d : W64),
    let G := getGang s g
    let word : AWord := v.setWidth 96 <<< 64 ||| (csr s h (R.DGINJ g 1)).setWidth 96 <<< 32 |||
      (csr s h (R.DGINJ g 0)).setWidth 96
    let home (t : State) (sh : Nat) (x : ShState) : Prop := (getSheet t sh).state = x
    let cfg := csr s h (R.MPCFG i.toNat)
    let p : BitVec 128 := BitVec.ofNat 128 ((if size64 then d.toNat else (lo32 d).toNat) * 2 ^ 64 +
      fld (refPos s h) 31 0 * 2 ^ 32 + i.toNat * 2 ^ 24 + b2n size64 * 2 ^ 23 +
      b2n (tget (fun _ => false) s.dbg.marginLost h) * 2 ^ 22 + c.hub.val * 2 ^ 21 + corePart s (coreIx c) * 2 ^ 18 +
      c.num.val * 2 ^ 13)
    let out (t : State) (b : BitVec 160) : Prop := t.dbg.pinOut = (h.val, b) :: s.dbg.pinOut
    live s h = true →
    (mayDebug s m h = true → gangHere s h g = true →
      (G.halted = false → G.blots = [] → (getSheet s g).state ≠ .fault → fld v 31 29 = 4 → injecting s g = false →
        (∀ sh ∈ members s g, home s sh .idle ∨ home s sh .run) → Answers (.gangHalt m h g v) s (fun t =>
          (getGang t g).halted = true ∧ (getGang t g).haltReq = false ∧ (∀ sh ∈ members s g, home t sh .halt ∧
            (getSheet t sh).before = (getSheet s sh).state) ∧ PlanesKept s t (fun _ _ => False))) ∧
      (G.halted = false → G.blots ≠ [] → (getSheet s g).state ≠ .fault → fld v 31 29 = 4 → injecting s g = false →
        Answers (.gangHalt m h g v) s (fun t => OnlyArray s t ∧ (getGang t g) = { G with haltReq := true })) ∧
      (G.halted = true → fld v 31 30 = 1 → Answers (.gangResume m h g v) s (fun t => (getGang t g).halted = false ∧
        (∀ sh ∈ members s g, home s sh .halt → home t sh (getSheet s sh).before) ∧ PlanesKept s t (fun _ _ => False))) ∧
      (serving s h = true → G.halted = true → fld v 31 29 = 1 → headWord G = none → Answers (.stepw m h g v) s (fun t =>
        (getGang t g).halted = false ∧ (getGang t g).step = true ∧ OnlyArray s t)) ∧
      (serving s h = true → G.halted = true → G.blots = [] → (∀ sh ∈ members s g, home s sh .halt ∧
        ((getSheet s sh).before = .idle ∨ (getSheet s sh).before = .run)) → fld word 95 80 = 0x4000 → fld word 3 0 = 0 →
        Answers (.dginj m h g v) s (fun t => (getGang t g).halted = true ∧ (∃ k, (getGang t g).btoks = G.btoks ++ [k] ∧
          k.tag = word.setWidth 64 ∧ k.value = BitVec.ofNat 64 (fld word 79 64 * 2 ^ 48 + b2n G.blot * 2 ^ 32 +
            G.finder.toNat)) ∧ (getGang t g).queue = G.queue ∧ PlanesKept s t (fun _ _ => False)))) ∧
    (mayDebug s m h = true → Answers (.dbgctlAttach m h v) s (fun t => rdF t h R.DBGCTL 31 29 = fld v 31 29 ∧
      dbgLevel t h .probe = dbgLevel s h .probe ∧ dbgLevel t h .host = dbgLevel s h .host)) ∧
    (mayDebug s m h = false → exec (.dbgctlAttach m h v) s = .next s ∧ exec (.gangHalt m h g v) s = .next s) ∧
    (serving s c.hub = true → c.hub = h → csrOk s (.core c) h h (0xC08000 + 8 * i.toNat) = true → cfg.getLsbD 31 = true →
      fld cfg 2 0 = corePart s (coreIx c) → rdB s h R.MTCTL 31 = true →
      (rdB s h R.MTCTL 30 = true → (marginQ s h).length < 32 → Answers (.marginPortStore c h i size64 d) s (fun t =>
        OnlyRegs { s with dbg := t.dbg } t h [R.MTWR] ∧ marginQ t h = marginQ s h ++ [p] ∧
        csr t h R.MTWR = csr s h R.MTWR + 1)) ∧
      (rdB s h R.MTCTL 30 = true → cfg.getLsbD 30 = false → 32 ≤ (marginQ s h).length →
        Answers (.marginPortStore c h i size64 d) s (fun t => OnlyRegs { s with dbg := t.dbg } t h [R.MTLOST] ∧
          marginQ t h = marginQ s h ∧ rdF t h R.MTLOST 31 0 = oneMore s h R.MTLOST)) ∧
      (rdB s h R.MTCTL 30 = true → cfg.getLsbD 30 = true → 32 ≤ (marginQ s h).length →
        exec (.marginPortStore c h i size64 d) s = .next s)) ∧
    (rdB s h R.TPCTL 31 = true →
      (marginQ s h = [] → traceQ s h = [] → Answers (.tracePinPacket h) s (fun t => out t (pinPacket 0 false 0))) ∧
      (∀ x xs, marginQ s h = x :: xs → traceQ s h = [] ∨ tget (fun _ => false) s.dbg.lastMargin h = false →
        Answers (.tracePinPacket h) s (fun t => out t (pinPacket 2 (x.getLsbD 22) x) ∧ marginQ t h = xs ∧
          traceQ t h = traceQ s h)) ∧
      (∀ x xs, traceQ s h = x :: xs → marginQ s h = [] ∨ tget (fun _ => false) s.dbg.lastMargin h = true →
        Answers (.tracePinPacket h) s (fun t => out t (pinPacket 1 (x.getLsbD 8) x) ∧ traceQ t h = xs ∧
          marginQ t h = marginQ s h)))

/-! ## The logic fabric -/

/-- R344 to R351, R362: a load is begun, refused or carried out in two passes; a region is fenced, freed and released;
a line's monitor acts on contention; the raw frame write of a debugger; the supplies of the pins. It rests also on the
model's choices in assumptions 54 and 55 (order of the load checks, the write of ISO). -/
def Obligations.FabricConfiguration : Prop :=
  ∀ (s g : State) (m : Master) (h : Hub) (r : Fin 16) (line : Fin 64) (v : W32) (a : BitVec 48) (st fenced : Nat)
    (hd : FHead) (l : List FFrame) (b : Bytes) (bank : Fin 4) (present : Bool),
    let busy (t : State) : Bool := rdB t h R.FLOAD 30
    let status (t : State) : Nat := rdF t h R.FLOAD 3 0
    let frame (t : State) (x : Nat) : Bytes := tget (fun _ => zeros 128) t.fab.frames (2 ^ 32 * h.val + x)
    let off (t : State) (r line : Nat) : Bool := tget (fun _ => false) t.fab.lineOff (lineKey h r line)
    let asked (t : State) : Bool := tget (fun _ => false) t.fab.relReq (16 * h.val + r.val)
    let region (t : State) : Nat := regionState t h r
    let kept : Prop := fld v 26 24 = rdF s h (R.FREG r) 26 24
    live s h = true →
    (asP0 s m = true → v.getLsbD 31 = true →
      (busy s = true → Answers (.fabricLoadStart m h v) s (fun t => OnlyRegs s t h [R.FLOAD] ∧ status t = 1 ∧
        busy t = true)) ∧
      (busy s = false → fabricFenced s h = true ∨ fabricOff s h = true → Answers (.fabricLoadStart m h v) s (fun t =>
        status t = 2 ∧ busy t = false ∧ t.fab = s.fab ∧ CoresKept s t)) ∧
      (busy s = false → fabricFenced s h = false → fabricOff s h = false → Answers (.fabricLoadStart m h v) s (fun t =>
        OnlyRegs { s with fab := t.fab } t h [R.FLOAD] ∧ busy t = true ∧ status t = 0 ∧
        loadOf t h = some (BitVec.ofNat 48 (rdF s h R.FIMGHI 15 0 * 2 ^ 32 + (csr s h R.FIMGLO).toNat), none)))) ∧
    (loadOf s h = some (a, none) → pass2Of s h = none →
      (checkImage s h (imgAddr a) = (g, st, none) → 0 < st → st < 16 → Answers (.fabricFirstPassDone h) s (fun t =>
        status t = st ∧ busy t = false ∧ loadOf t h = none ∧ t.fab.frames = g.fab.frames ∧ CoresKept g t)) ∧
      (checkImage s h (imgAddr a) = (g, st, some (hd, l)) → Answers (.fabricFirstPassDone h) s (fun t =>
        (∀ k ∈ maskRegions hd.mask, regionState t h k = 1) ∧ (hd.kind = 0 → rdF t h R.FCFG 1 0 = 1) ∧
        (pass2Of t h).isSome = true ∧ t.cpu = g.cpu ∧ t.mem = g.mem ∧ t.fab.frames = g.fab.frames))) ∧
    (loadOf s h = some (a, none) → pass2Of s h = some fenced → s.mem.bad = [] → rangeServes s h (imgAddr a) 64 = true →
      imgAddr a + 64 ≤ mainTop → parseHead (rbs s (imgAddr a) 64) = hd → hd.count ≤ maxFrames →
      readFrames s h (imgAddr a + 64) hd.count = (s, some l) → (l.map FFrame.addr).Nodup →
      (∀ f ∈ l, f.addr < 2 ^ 32) →
      Answers (.fabricLoadDone h) s (fun t => status t = 0 ∧ busy t = false ∧ loadOf t h = none ∧
        (∀ k ∈ maskRegions hd.mask, regionState t h k = 2 ∧ ∀ j < 64, off t k j = false) ∧
        (∀ f ∈ l, frame t f.addr = f.data) ∧ (hd.kind = 0 → rdF t h R.FCFG 1 0 = 2))) ∧
    (asP0 s m = true →
      (fld v 30 30 = 1 → region s = 2 ∨ (region s = 3 ∧ kept) → Answers (.fregIso m h r v) s (fun t =>
        region t = 4 ∧ asked t = false ∧ CoresKept s t)) ∧
      (fld v 30 30 = 0 → region s = 4 → kept → Answers (.fregIso m h r v) s (fun t => region t = 2 ∧ CoresKept s t)) ∧
      (fld v 31 30 = 2 → region s = 2 → Answers (.regionRelease m h r v) s (fun t => region t = 2 ∧ asked t = true ∧
        rdF t h (R.FREG r) 26 24 = fld v 26 24 ∧ OnlyRegs { s with fab := t.fab } t h [R.FREG r])) ∧
      (region s = 3 → ¬ kept → exec (.fregIso m h r v) s = .next s) ∧
      (v.getLsbD 31 = true → rdB s h R.FCONT 31 = true → Answers (.fcontClear m h v) s (fun t =>
        rdB t h R.FCONT 31 = false ∧ (∀ k < 16, ∀ j < 64, off t k j = false) ∧
        OnlyRegs { s with fab := t.fab } t h [R.FCONT]))) ∧
    (region s = 2 → asked s = true → fabricOff s h = false → Answers (.releaseEdge h r) s (fun t =>
      region t = 3 ∧ asked t = false ∧ OnlyRegs { s with fab := t.fab } t h [R.FREG r])) ∧
    (region s = 3 → fabricOff s h = false → off s r line = false → Answers (.contention h r line) s (fun t =>
      off t r line = true ∧ rdF t h R.FCCNT 31 0 = oneMore s h R.FCCNT ∧ CoresKept s t ∧
      csr t h R.FCONT = if rdB s h R.FCONT 31 then csr s h R.FCONT else
        BitVec.ofNat 32 (2 ^ 31 + r.val * 2 ^ 24 + line.val * 2 ^ 16))) ∧
    (mayDebug s m h = true → v.getLsbD 31 = true → b.length = 128 →
      (∀ k < 32, csr s h (R.FRAWBUF k) = BitVec.ofNat 32 (leAt b (4 * k) 4)) → Answers (.frawgo m h v) s (fun t =>
        frame t (csr s h R.FRAWADDR).toNat = b ∧ { t with fab := s.fab } = s)) ∧
    (mayDebug s m h = false → exec (.frawgo m h v) s = .next s) ∧
    Answers (.vccioChange h bank present) s (fun t => bankOn t h bank = present ∧ { t with fab := s.fab } = s)

/-- R338, R339, R342, R343: a core reaches user logic through a port and waits for its answer; user logic reads and writes
main memory through its window; the ports of a block memory. -/
def Obligations.FabricPortsAndMemories : Prop :=
  ∀ (s : State) (c : CoreId) (h : Hub) (fp : Fin 8) (size8 write : Bool) (o : BitVec 28) (d : W64) (rd : Reg)
    (x : TAcc) (xs : List TAcc) (a : BitVec 48) (n : BitVec 8) (b : Bytes) (pos : BitVec 16) (len : Fin 73)
    (e : BitVec 72) (win : BmWindow) (k : Fin 36864) (q : PortFin),
    let i := coreIx c
    let ea := portAddr h fp o.toNat
    let sz := if size8 then 8 else 4
    let f := boundary s i
    let here : Prop := canStep s i = true ∧ (getCore s i).fpu = none ∧ ea % sz = 0 ∧ coreCut f i = false ∧
      (targetsOf f h fp).length < 16 ∧ reach f (i / 32) h = true ∧ portOpen f h fp = true
    let j := coreIx x.core
    let y := getCore s j
    let mw (t : State) (err : Bool) (r : Bytes) : Prop := t.fab.mresp = (8 * h.val + fp.val, err, r) :: s.fab.mresp
    let A := a.toNat
    let N := n.toNat
    let mem (t : State) : Bool := (bmGet t h n.toNat).getLsbD k
    (here → winOk f i ea 2 = true → watchHits f i ea sz false true = [] →
      Answers (.fabricTargetAccess c h fp true size8 o d rd) s (fun t =>
        targetsOf t h fp = targetsOf s h fp ++ [⟨coreOf i, true, size8, o, d, none⟩] ∧
        (getCore t i).pc = (getCore s i).pc + 4 ∧ (∀ r, (getCore t i).gr r = (getCore s i).gr r) ∧ t.mem = s.mem)) ∧
    (here → winOk f i ea 1 = true → watchHits f i ea sz true false = [] → (getCore s i).ports = [] →
      Answers (.fabricTargetAccess c h fp false size8 o d rd) s (fun t =>
        (∃ z, targetsOf t h fp = targetsOf s h fp ++ [z] ∧ z.write = false ∧ z.off = o ∧ z.core = coreOf i) ∧
        (getCore t i).portWait = true ∧ (getCore t i).pc = (getCore s i).pc ∧
        (∀ r, (getCore t i).gr r = (getCore s i).gr r) ∧ t.mem = s.mem)) ∧
    (live s h = true → targetsOf s h fp = x :: xs →
      (x.write = true → Answers (.fabricTargetResponse h fp d) s (fun t => targetsOf t h fp = xs ∧
        { t with fab := s.fab } = s)) ∧
      (x.write = false → x.size8 = true → x.fin = some q → q.fdst = false → q.sx = false → q.upd = none →
        y.portWait = true → portOpen s h fp = true → Answers (.fabricTargetResponse h fp d) s (fun t =>
          targetsOf t h fp = xs ∧ GprSet s t j q.rd d ∧ (getCore t j).pc = y.pc + 4 ∧ (getCore t j).portWait = false)) ∧
      (rdF s h (R.FPORT fp) 15 0 ≠ 0 → x.write = false → y.portWait = true → Answers (.fportTimeout h fp) s (fun t =>
        targetsOf t h fp = xs ∧ rdF t h (R.TOCNT fp) 31 0 = oneMore s h (R.TOCNT fp) ∧ getCore t j =
          { y with portWait := false, ports := y.ports ++ [(portAddr h fp x.off.toNat, none)] }))) ∧
    (live s h = true → portOpen s h fp = true →
      (masterMem s h fp A N = true → s.mem.bad = [] → rangeServes s h A N = true →
        Answers (.fabricMasterRequest h fp false a n b) s (fun t => mw t false (rbs s A N) ∧ { t with fab := s.fab } = s) ∧
        (b.length = N → Answers (.fabricMasterRequest h fp true a n b) s (fun t => mw t false [] ∧ t.csr = s.csr ∧
          CoresKept s t ∧ ∀ z, rb t z = if A ≤ z ∧ z < A + N then b.getD (z - A) 0 else rb s z))) ∧
      (masterMem s h fp A N = false → (∀ u w, region h A ≠ .csr u w) →
        Answers (.fabricMasterRequest h fp write a n b) s (fun t => mw t true [] ∧ t.mem = s.mem ∧ t.cpu = s.cpu ∧
          OnlyRegs { s with fab := t.fab } t h [R.MERR fp] ∧ rdF t h (R.MERR fp) 31 0 = oneMore s h (R.MERR fp)))) ∧
    (live s h = true → regionState s h (n.toNat / 16) = 3 → fabricOff s h = false → bmWord pos.toNat len = true →
      len.val ≤ 36 →
      Answers (.blockMemoryAccess h n (.write pos len e) .idle win) s (fun t => { t with fab := s.fab } = s ∧
        mem t = if pos.toNat ≤ k ∧ k < pos.toNat + len.val then e.getLsbD (k - pos.toNat) else mem s) ∧
      Answers (.blockMemoryAccess h n .idle (.read pos len) win) s (fun t => { t with fab := s.fab } = s ∧
        mem t = mem s ∧ ∀ z < 72, (bmOutOf t h n.toNat).2.1.getLsbD z =
          (decide (z < len.val) && (bmGet s h n.toNat).getLsbD (pos.toNat + z))) ∧
      (∀ e' : BitVec 72, (∃ z < len.val, e.getLsbD z ≠ e'.getLsbD z) → win ≠ .apart →
        Answers (.blockMemoryAccess h n (.write pos len e) (.write pos len e') win) s (fun t =>
          OnlyRegs { s with fab := t.fab } t h [R.BMCOLL (n.toNat / 16)] ∧
          rdF t h (R.BMCOLL (n.toNat / 16)) 31 0 = oneMore s h (R.BMCOLL (n.toNat / 16)))))

/-! ## Microcode -/

/-- R225 to R237: a table-range word runs the routine of its decode-table entry (here one microword that writes G[ra]
to rd and ends), a routine that delays an event too long is CTRLCHK, a load of a signed image changes the cores of its
mask only with status 0, and a core takes the mode of its MCCTL. It rests also on the model's choices in assumptions
123 to 125 (a routine in one command, its operands). -/
def Obligations.Microcode : Prop :=
  ∀ (s f g : State) (m : Master) (c : CoreId) (w v : W32) (u : Micro) (l : McLoad) (b : Bytes) (n : Nat),
    let i := coreIx c
    let h := c.hub
    let k := getCore f i
    let e : W64 := tget (fun _ => 0) k.dtab ((fld w 31 26 - 0x38) * 8 + fld w 2 0)
    let o := fld e 11 0
    let s1 := setMcLoad (wrB s h R.MCSTART 30 false) h none
    let busy (t : State) : Bool := rdB t h R.MCSTART 30
    let status (t : State) : Nat := rdF t h R.MCSTART 3 0
    (0x38 ≤ fld w 31 26 → Begins s f c [] [] false → k.fpu = none → k.mode = true → dtabGood e = true →
      fld e 38 38 = 1 → fld w 25 0 &&& fld e 37 12 = 0 → inCustomer k o = true →
      tget (fun _ => (0 : BitVec 136)) k.wcs o = wcsWord (BitVec.ofNat 128 (4 * 2 ^ 110 + 2 * 2 ^ 94 + 2 ^ 84)) →
      Answers (.tableRangeWord c w) s (fun t => GprSet f t i (fld w 25 21) (k.gr (fld w 20 16)) ∧
        (getCore t i).pc = k.pc + 4 ∧ (getCore t i).pstat = k.pstat ∧ (getCore t i).micro = none ∧ t.mem = f.mem ∧
        t.csr = f.csr)) ∧
    ((getCore s i).micro = some u → coreLive s i = true → eventDue (getCore s i) = true →
      0x4000 ≤ microAddr (getCore s i) u.upc → TrapReady s i → Answers (.deferralLimit c) s (fun t =>
        TrapEntered s t i (getCore s i).pc 0x07
          (BitVec.ofNat 64 (0xB * 2 ^ 60 + microAddr (getCore s i) u.upc % 2 ^ 48)) false)) ∧
    (live s h = true →
      (asP0 s m = true → v.getLsbD 31 = true →
        (busy s = false → Answers (.microcodeLoadStart m h v) s (fun t => busy t = true ∧ mcLoadOf t h =
          some ⟨BitVec.ofNat 48 (rdF s h R.IMGHI 15 0 * 2 ^ 32 + (csr s h R.IMGLO).toNat), csr s h R.MCCORES, none⟩)) ∧
        (busy s = true → Answers (.microcodeLoadStart m h v) s (fun t => OnlyRegs s t h [R.MCSTART] ∧ busy t = true ∧
          status t = 1))) ∧
      (mcLoadOf s h = some l → l.slot = none → mcRead s1 h l.image.toNat = (g, some b) →
        (mcStatus g h l.cores b = 0 → keySlot g (sub b 64 64) = some n → Answers (.microcodeLoadDone h) s (fun t =>
          busy t = false ∧ status t = 0 ∧ mcLoadOf t h = none ∧ ∀ j < 32, getCore t (32 * h.val + j) =
            if l.cores.getLsbD j then mcApply (getCore g (32 * h.val + j)) b n (j == 0 && booting g h)
            else getCore g (32 * h.val + j))) ∧
        (mcStatus g h l.cores b ≠ 0 → Answers (.microcodeLoadDone h) s (fun t => busy t = false ∧
          status t = mcStatus g h l.cores b ∧ mcLoadOf t h = none ∧ CoresKept g t))) ∧
      (c.num.val = 0 → booting s h = true → exec (.decodeModeSet c) s = .next s) ∧
      (c.num.val ≠ 0 ∨ booting s h = false → Answers (.decodeModeSet c) s (fun t =>
        CoreBecomes s t i { getCore s i with mode := rdB s h (R.MCCTL c.num) 0 })))

/-! ## The form of memory -/

/-- R12: reset memory is in its canonical form: addresses strictly rising, no entry that reads as an unlisted address
does. It rests also on the model's choices in assumption 5 (memory as a list of bytes). -/
def Obligations.MemoryFormAtReset : Prop := State.reset.memWf

/-- R12: every step keeps memory in its canonical form, whatever state it starts from. It rests also on the model's
choices in assumption 5 (memory as a list of bytes). -/
def Obligations.MemoryFormKept : Prop := ∀ s t : State, s.memWf → step s = .next t → t.memWf
end

