-- ==== Sys2Proof/Laws/Table.lean ====
section
/-! SUPPORT. Laws of the sparse tables: what a table reads as after a write, and that every operation keeps the
canonical form. -/
namespace Sys2Proof.Machine

@[simp] theorem tget_nil {α : Type} (d : Nat → α) (k : Nat) : tget d [] k = d k := rfl

theorem tget_terase {α : Type} (d : Nat → α) (m : Tab α) (k j : Nat) :
    tget d (terase m k) j = if j = k then d k else tget d m j := by
  induction m with
  | nil => by_cases h : j = k <;> simp [terase, h]
  | cons e m ih =>
    obtain ⟨i, v⟩ := e
    by_cases hk : i = k
    · subst hk
      simp only [terase, if_true, ih, tget]
      by_cases h : j = i
      · simp [h]
      · simp [h, Ne.symm h]
    · simp only [terase, hk, if_false, tget, ih]
      by_cases h : i = j
      · subst h; simp [hk]
      · simp [h]

theorem terase_ne {α : Type} (m : Tab α) (k : Nat) : ∀ e ∈ terase m k, e.1 ≠ k := by
  induction m with
  | nil => simp [terase]
  | cons e m ih =>
    obtain ⟨i, v⟩ := e
    by_cases hk : i = k
    · simpa [terase, hk] using ih
    · intro e he
      simp only [terase, hk, if_false, List.mem_cons] at he
      rcases he with rfl | he
      · exact hk
      · exact ih e he

theorem tget_tinsert {α : Type} (d : Nat → α) (m : Tab α) (k j : Nat) (v : α) (h : ∀ e ∈ m, e.1 ≠ k) :
    tget d (tinsert m k v) j = if j = k then v else tget d m j := by
  induction m with
  | nil =>
    by_cases e : j = k
    · simp [tinsert, tget, e]
    · simp [tinsert, tget, e, Ne.symm e]
  | cons e m ih =>
    obtain ⟨i, w⟩ := e
    have hi : i ≠ k := h (i, w) (by simp)
    have hm : ∀ e ∈ m, e.1 ≠ k := fun e he => h e (by simp [he])
    by_cases hk : k < i
    · simp only [tinsert, hk, if_true, tget]
      by_cases e : j = k
      · simp [e]
      · simp [e, Ne.symm e]
    · simp only [tinsert, hk, if_false, tget, ih hm]
      by_cases e : i = j
      · subst e; simp [hi]
      · simp [e]

/-- A table reads back what was stored, and nothing else has changed. -/
theorem tget_tset {α : Type} [DecidableEq α] (d : Nat → α) (m : Tab α) (k j : Nat) (v : α) :
    tget d (tset d m k v) j = if j = k then v else tget d m j := by
  unfold tset
  split
  · next h => rw [tget_terase, h]
  · rw [tget_tinsert _ _ _ _ _ (terase_ne m k), tget_terase]
    by_cases e : j = k <;> simp [e]

@[simp] theorem tget_tset_self {α : Type} [DecidableEq α] (d : Nat → α) (m : Tab α) (k : Nat) (v : α) :
    tget d (tset d m k v) k = v := by simp [tget_tset]

theorem tget_tset_ne {α : Type} [DecidableEq α] (d : Nat → α) (m : Tab α) (k j : Nat) (v : α) (h : j ≠ k) :
    tget d (tset d m k v) j = tget d m j := by simp [tget_tset, h]

/-! ## The canonical form -/

theorem tsorted_mono {α : Type} (m : Tab α) (a b : Nat) (h : a ≤ b) (hm : tsorted b m = true) : tsorted a m = true := by
  cases m with
  | nil => rfl
  | cons e m =>
    obtain ⟨i, v⟩ := e
    simp only [tsorted, Bool.and_eq_true, decide_eq_true_eq] at hm ⊢
    exact ⟨Nat.le_trans h hm.1, hm.2⟩

theorem tsorted_filter {α : Type} (q : Nat × α → Bool) (m : Tab α) (lo : Nat) (hm : tsorted lo m = true) :
    tsorted lo (m.filter q) = true := by
  induction m generalizing lo with
  | nil => rfl
  | cons e m ih =>
    obtain ⟨i, v⟩ := e
    simp only [tsorted, Bool.and_eq_true, decide_eq_true_eq] at hm
    by_cases hq : q (i, v) = true
    · simp only [List.filter, hq, tsorted, Bool.and_eq_true, decide_eq_true_eq]
      exact ⟨hm.1, ih _ hm.2⟩
    · simp only [List.filter, hq]
      exact tsorted_mono _ _ _ (Nat.le_succ_of_le hm.1) (ih _ hm.2)

theorem terase_eq_filter {α : Type} (m : Tab α) (k : Nat) : terase m k = m.filter (fun e => decide (e.1 ≠ k)) := by
  induction m with
  | nil => rfl
  | cons e m ih =>
    obtain ⟨i, v⟩ := e
    by_cases h : i = k <;> simp [terase, List.filter, h, ih]

theorem tsorted_tinsert {α : Type} (m : Tab α) (k lo : Nat) (v : α) (hl : lo ≤ k) (h : ∀ e ∈ m, e.1 ≠ k)
    (hm : tsorted lo m = true) : tsorted lo (tinsert m k v) = true := by
  induction m generalizing lo with
  | nil => simp [tinsert, tsorted, hl]
  | cons e m ih =>
    obtain ⟨i, w⟩ := e
    have hi : i ≠ k := h (i, w) (by simp)
    have hr : ∀ e ∈ m, e.1 ≠ k := fun e he => h e (by simp [he])
    simp only [tsorted, Bool.and_eq_true, decide_eq_true_eq] at hm
    by_cases hk : k < i
    · simp only [tinsert, hk, if_true, tsorted, Bool.and_eq_true, decide_eq_true_eq]
      exact ⟨hl, hk, hm.2⟩
    · simp only [tinsert, hk, if_false, tsorted, Bool.and_eq_true, decide_eq_true_eq]
      exact ⟨hm.1, ih (i + 1) (by omega) hr hm.2⟩

theorem mem_tinsert {α : Type} (m : Tab α) (k : Nat) (v : α) (e : Nat × α) (h : e ∈ tinsert m k v) :
    e = (k, v) ∨ e ∈ m := by
  induction m with
  | nil => simpa [tinsert] using h
  | cons x m ih =>
    obtain ⟨i, w⟩ := x
    by_cases hk : k < i
    · simp only [tinsert, hk, if_true, List.mem_cons] at h ⊢
      rcases h with h | h | h
      · exact Or.inl h
      · exact Or.inr (Or.inl h)
      · exact Or.inr (Or.inr h)
    · simp only [tinsert, hk, if_false, List.mem_cons] at h ⊢
      rcases h with h | h
      · exact Or.inr (Or.inl h)
      · rcases ih h with h | h
        · exact Or.inl h
        · exact Or.inr (Or.inr h)

theorem twf_iff {α : Type} [DecidableEq α] (d : Nat → α) (m : Tab α) :
    twf d m = true ↔ tsorted 0 m = true ∧ ∀ e ∈ m, e.2 ≠ d e.1 := by
  simp [twf, List.all_eq_true]

theorem twf_filter {α : Type} [DecidableEq α] (d : Nat → α) (q : Nat × α → Bool) (m : Tab α) (h : twf d m = true) :
    twf d (m.filter q) = true := by
  rw [twf_iff] at h ⊢
  exact ⟨tsorted_filter q m 0 h.1, fun e he => h.2 e (List.mem_filter.mp he).1⟩

/-- Erasing entries keeps the canonical form. -/
theorem twf_terase {α : Type} [DecidableEq α] (d : Nat → α) (m : Tab α) (k : Nat) (h : twf d m = true) :
    twf d (terase m k) = true := by
  rw [terase_eq_filter]; exact twf_filter d _ m h

/-- Keeping some entries keeps the canonical form. -/
theorem twf_tkeep {α : Type} [DecidableEq α] (d : Nat → α) (p : Nat → Bool) (m : Tab α) (h : twf d m = true) :
    twf d (tkeep p m) = true := twf_filter d _ m h

/-- A write keeps the canonical form. -/
theorem twf_tset {α : Type} [DecidableEq α] (d : Nat → α) (m : Tab α) (k : Nat) (v : α) (h : twf d m = true) :
    twf d (tset d m k v) = true := by
  unfold tset
  split
  · exact twf_terase d m k h
  · next hv =>
    have he := twf_terase d m k h
    rw [twf_iff] at he ⊢
    refine ⟨tsorted_tinsert _ _ _ _ (Nat.zero_le k) (terase_ne m k) he.1, fun e hm => ?_⟩
    rcases mem_tinsert _ _ _ _ hm with rfl | hm
    · exact hv
    · exact he.2 e hm

theorem twf_nil {α : Type} [DecidableEq α] (d : Nat → α) : twf d ([] : Tab α) = true := rfl

end Sys2Proof.Machine
end

