-- ==== Sys2Proof/Laws/State.lean ====
section
/-! SUPPORT. What each named update of the state changes: the value read back, and every other field kept. -/
namespace Sys2Proof.Machine

/-! ## Registers -/

theorem csr_setCsr (s : State) (h off h' off' : Nat) (v : W32) :
    csr (setCsr s h off v) h' off' = if csrKey h' off' = csrKey h off then v else csr s h' off' := by
  simp [csr, setCsr, tget_tset]

@[simp] theorem csr_setCsr_self (s : State) (h off : Nat) (v : W32) : csr (setCsr s h off v) h off = v := by
  simp [csr_setCsr]

/-! ## Cores -/

theorem getCore_setCore (s : State) (i j : Nat) (c : Core) :
    getCore (setCore s i c) j = if j = i then c else getCore s j := by
  simp [getCore, setCore, tget_tset]

@[simp] theorem getCore_setCore_self (s : State) (i : Nat) (c : Core) : getCore (setCore s i c) i = c := by
  simp [getCore_setCore]

@[simp] theorem getCore_updCore_self (s : State) (i : Nat) (f : Core → Core) :
    getCore (updCore s i f) i = f (getCore s i) := by simp [updCore]

theorem getCore_updCore_ne (s : State) (i j : Nat) (f : Core → Core) (h : j ≠ i) :
    getCore (updCore s i f) j = getCore s j := by simp [updCore, getCore_setCore, h]

@[simp] theorem getCore_setCsr (s : State) (h off i : Nat) (v : W32) : getCore (setCsr s h off v) i = getCore s i := (rfl)
@[simp] theorem getCore_drawn (s : State) (i : Nat) : getCore (drawn s) i = getCore s i := (rfl)
@[simp] theorem getCore_wbs (s : State) (k : Nat) (bs : Bytes) (i : Nat) : getCore (wbs s k bs) i = getCore s i := (rfl)

/-- G0 reads 0 in every core (R166). -/
@[simp] theorem Core.gr_zero (c : Core) : c.gr 0 = 0 := (rfl)

theorem Core.gr_setG (c : Core) (r j : Nat) (v : W64) :
    (c.setG r v).gr j = if j = r ∧ j ≠ 0 then v else c.gr j := by
  unfold Core.setG Core.gr
  by_cases hr : r = 0
  · subst hr; simp
  · by_cases hj : j = 0
    · simp [hj]
    · simp only [hr, if_false, hj, tget_tset]
      by_cases e : j = r <;> simp [e, hr]

theorem Core.fr_setFr (c : Core) (r j : Nat) (v : W64) :
    (c.setFr r v).fr j = if j = r then v else c.fr j := by simp [Core.setFr, Core.fr, tget_tset]

/-- Writing a general register changes the table of general registers alone. -/
theorem Core.setG_rest (c : Core) (r : Nat) (v : W64) : { c.setG r v with g := c.g } = c := by
  unfold Core.setG; split <;> rfl

@[simp] theorem Core.setG_f (c : Core) (r : Nat) (v : W64) : (c.setG r v).f = c.f := by
  unfold Core.setG; split <;> rfl
@[simp] theorem Core.setG_pc (c : Core) (r : Nat) (v : W64) : (c.setG r v).pc = c.pc := by
  unfold Core.setG; split <;> rfl
@[simp] theorem Core.setG_pstat (c : Core) (r : Nat) (v : W64) : (c.setG r v).pstat = c.pstat := by
  unfold Core.setG; split <;> rfl
@[simp] theorem Core.setG_cnt (c : Core) (r : Nat) (v : W64) : (c.setG r v).cnt = c.cnt := by
  unfold Core.setG; split <;> rfl
@[simp] theorem Core.setG_fpcr (c : Core) (r : Nat) (v : W64) : (c.setG r v).fpcr = c.fpcr := by
  unfold Core.setG; split <;> rfl
@[simp] theorem Core.setG_fpsr (c : Core) (r : Nat) (v : W64) : (c.setG r v).fpsr = c.fpsr := by
  unfold Core.setG; split <;> rfl
@[simp] theorem Core.setG_ctx (c : Core) (r : Nat) (v : W64) : (c.setG r v).ctx = c.ctx := by
  unfold Core.setG; split <;> rfl
@[simp] theorem Core.setG_tag (c : Core) (r : Nat) (v : W64) : (c.setG r v).tag = c.tag := by
  unfold Core.setG; split <;> rfl
@[simp] theorem Core.setG_epc (c : Core) (r : Nat) (v : W64) : (c.setG r v).epc = c.epc := by
  unfold Core.setG; split <;> rfl
@[simp] theorem Core.setG_trapc (c : Core) (r : Nat) (v : W64) : (c.setG r v).trapc = c.trapc := by
  unfold Core.setG; split <;> rfl
@[simp] theorem Core.setG_trapv (c : Core) (r : Nat) (v : W64) : (c.setG r v).trapv = c.trapv := by
  unfold Core.setG; split <;> rfl
@[simp] theorem Core.setG_lladdr (c : Core) (r : Nat) (v : W64) : (c.setG r v).lladdr = c.lladdr := by
  unfold Core.setG; split <;> rfl
@[simp] theorem Core.setG_shadow (c : Core) (r : Nat) (v : W64) : (c.setG r v).shadow = c.shadow := by
  unfold Core.setG; split <;> rfl
@[simp] theorem Core.setG_fpu (c : Core) (r : Nat) (v : W64) : (c.setG r v).fpu = c.fpu := by
  unfold Core.setG; split <;> rfl
@[simp] theorem Core.setG_fpePc (c : Core) (r : Nat) (v : W64) : (c.setG r v).fpePc = c.fpePc := by
  unfold Core.setG; split <;> rfl
@[simp] theorem Core.setG_watch (c : Core) (r : Nat) (v : W64) : (c.setG r v).watch = c.watch := by
  unfold Core.setG; split <;> rfl
@[simp] theorem Core.setG_array (c : Core) (r : Nat) (v : W64) : (c.setG r v).array = c.array := by
  unfold Core.setG; split <;> rfl
@[simp] theorem Core.setG_memerr (c : Core) (r : Nat) (v : W64) : (c.setG r v).memerr = c.memerr := by
  unfold Core.setG; split <;> rfl
@[simp] theorem Core.setG_preempt (c : Core) (r : Nat) (v : W64) : (c.setG r v).preempt = c.preempt := by
  unfold Core.setG; split <;> rfl
@[simp] theorem Core.setG_sleep (c : Core) (r : Nat) (v : W64) : (c.setG r v).sleep = c.sleep := by
  unfold Core.setG; split <;> rfl
@[simp] theorem Core.setG_rstate (c : Core) (r : Nat) (v : W64) : (c.setG r v).rstate = c.rstate := by
  unfold Core.setG; split <;> rfl
@[simp] theorem Core.setG_running (c : Core) (r : Nat) (v : W64) : (c.setG r v).running = c.running := by
  unfold Core.setG; split <;> rfl
@[simp] theorem Core.setG_sent (c : Core) (r : Nat) (v : W64) : (c.setG r v).sent = c.sent := by
  unfold Core.setG; split <;> rfl
@[simp] theorem Core.setG_bare (c : Core) (r : Nat) (v : W64) : (c.setG r v).bare = c.bare := by
  unfold Core.setG; split <;> rfl
@[simp] theorem Core.setG_halted (c : Core) (r : Nat) (v : W64) : (c.setG r v).halted = c.halted := by
  unfold Core.setG; split <;> rfl
@[simp] theorem Core.setG_haltCause (c : Core) (r : Nat) (v : W64) : (c.setG r v).haltCause = c.haltCause := by
  unfold Core.setG; split <;> rfl
@[simp] theorem Core.setG_forced (c : Core) (r : Nat) (v : W64) : (c.setG r v).forced = c.forced := by
  unfold Core.setG; split <;> rfl
@[simp] theorem Core.setG_stepReq (c : Core) (r : Nat) (v : W64) : (c.setG r v).stepReq = c.stepReq := by
  unfold Core.setG; split <;> rfl
@[simp] theorem Core.setG_drain (c : Core) (r : Nat) (v : W64) : (c.setG r v).drain = c.drain := by
  unfold Core.setG; split <;> rfl
@[simp] theorem Core.setG_portWait (c : Core) (r : Nat) (v : W64) : (c.setG r v).portWait = c.portWait := by
  unfold Core.setG; split <;> rfl
@[simp] theorem Core.setG_ports (c : Core) (r : Nat) (v : W64) : (c.setG r v).ports = c.ports := by
  unfold Core.setG; split <;> rfl
@[simp] theorem Core.setG_micro (c : Core) (r : Nat) (v : W64) : (c.setG r v).micro = c.micro := by
  unfold Core.setG; split <;> rfl
@[simp] theorem Core.setG_mode (c : Core) (r : Nat) (v : W64) : (c.setG r v).mode = c.mode := by
  unfold Core.setG; split <;> rfl
@[simp] theorem Core.setG_held (c : Core) (r : Nat) (v : W64) : (c.setG r v).held = c.held := by
  unfold Core.setG; split <;> rfl
@[simp] theorem Core.setG_wcs (c : Core) (r : Nat) (v : W64) : (c.setG r v).wcs = c.wcs := by
  unfold Core.setG; split <;> rfl
@[simp] theorem Core.setG_dtab (c : Core) (r : Nat) (v : W64) : (c.setG r v).dtab = c.dtab := by
  unfold Core.setG; split <;> rfl
@[simp] theorem Core.setG_pmatch (c : Core) (r : Nat) (v : W64) : (c.setG r v).pmatch = c.pmatch := by
  unfold Core.setG; split <;> rfl
@[simp] theorem Core.setG_plen (c : Core) (r : Nat) (v : W64) : (c.setG r v).plen = c.plen := by
  unfold Core.setG; split <;> rfl
@[simp] theorem Core.setG_clen (c : Core) (r : Nat) (v : W64) : (c.setG r v).clen = c.clen := by
  unfold Core.setG; split <;> rfl
@[simp] theorem Core.setG_corg (c : Core) (r : Nat) (v : W64) : (c.setG r v).corg = c.corg := by
  unfold Core.setG; split <;> rfl
@[simp] theorem Core.setG_patchVer (c : Core) (r : Nat) (v : W64) : (c.setG r v).patchVer = c.patchVer := by
  unfold Core.setG; split <;> rfl
@[simp] theorem Core.setG_tabVer (c : Core) (r : Nat) (v : W64) : (c.setG r v).tabVer = c.tabVer := by
  unfold Core.setG; split <;> rfl
@[simp] theorem Core.setG_pkey (c : Core) (r : Nat) (v : W64) : (c.setG r v).pkey = c.pkey := by
  unfold Core.setG; split <;> rfl
@[simp] theorem Core.setG_tkey (c : Core) (r : Nat) (v : W64) : (c.setG r v).tkey = c.tkey := by
  unfold Core.setG; split <;> rfl
@[simp] theorem Core.setFr_g (c : Core) (r : Nat) (v : W64) : (c.setFr r v).g = c.g := (rfl)
@[simp] theorem Core.setFr_pc (c : Core) (r : Nat) (v : W64) : (c.setFr r v).pc = c.pc := (rfl)
@[simp] theorem Core.setFr_pstat (c : Core) (r : Nat) (v : W64) : (c.setFr r v).pstat = c.pstat := (rfl)
@[simp] theorem Core.setFr_cnt (c : Core) (r : Nat) (v : W64) : (c.setFr r v).cnt = c.cnt := (rfl)
@[simp] theorem Core.setFr_fpcr (c : Core) (r : Nat) (v : W64) : (c.setFr r v).fpcr = c.fpcr := (rfl)
@[simp] theorem Core.setFr_fpsr (c : Core) (r : Nat) (v : W64) : (c.setFr r v).fpsr = c.fpsr := (rfl)
@[simp] theorem Core.setFr_ctx (c : Core) (r : Nat) (v : W64) : (c.setFr r v).ctx = c.ctx := (rfl)
@[simp] theorem Core.setFr_tag (c : Core) (r : Nat) (v : W64) : (c.setFr r v).tag = c.tag := (rfl)
@[simp] theorem Core.setFr_epc (c : Core) (r : Nat) (v : W64) : (c.setFr r v).epc = c.epc := (rfl)
@[simp] theorem Core.setFr_trapc (c : Core) (r : Nat) (v : W64) : (c.setFr r v).trapc = c.trapc := (rfl)
@[simp] theorem Core.setFr_trapv (c : Core) (r : Nat) (v : W64) : (c.setFr r v).trapv = c.trapv := (rfl)
@[simp] theorem Core.setFr_lladdr (c : Core) (r : Nat) (v : W64) : (c.setFr r v).lladdr = c.lladdr := (rfl)
@[simp] theorem Core.setFr_shadow (c : Core) (r : Nat) (v : W64) : (c.setFr r v).shadow = c.shadow := (rfl)
@[simp] theorem Core.setFr_fpu (c : Core) (r : Nat) (v : W64) : (c.setFr r v).fpu = c.fpu := (rfl)
@[simp] theorem Core.setFr_fpePc (c : Core) (r : Nat) (v : W64) : (c.setFr r v).fpePc = c.fpePc := (rfl)
@[simp] theorem Core.setFr_watch (c : Core) (r : Nat) (v : W64) : (c.setFr r v).watch = c.watch := (rfl)
@[simp] theorem Core.setFr_array (c : Core) (r : Nat) (v : W64) : (c.setFr r v).array = c.array := (rfl)
@[simp] theorem Core.setFr_memerr (c : Core) (r : Nat) (v : W64) : (c.setFr r v).memerr = c.memerr := (rfl)
@[simp] theorem Core.setFr_preempt (c : Core) (r : Nat) (v : W64) : (c.setFr r v).preempt = c.preempt := (rfl)
@[simp] theorem Core.setFr_sleep (c : Core) (r : Nat) (v : W64) : (c.setFr r v).sleep = c.sleep := (rfl)
@[simp] theorem Core.setFr_rstate (c : Core) (r : Nat) (v : W64) : (c.setFr r v).rstate = c.rstate := (rfl)
@[simp] theorem Core.setFr_running (c : Core) (r : Nat) (v : W64) : (c.setFr r v).running = c.running := (rfl)
@[simp] theorem Core.setFr_sent (c : Core) (r : Nat) (v : W64) : (c.setFr r v).sent = c.sent := (rfl)
@[simp] theorem Core.setFr_bare (c : Core) (r : Nat) (v : W64) : (c.setFr r v).bare = c.bare := (rfl)
@[simp] theorem Core.setFr_halted (c : Core) (r : Nat) (v : W64) : (c.setFr r v).halted = c.halted := (rfl)
@[simp] theorem Core.setFr_haltCause (c : Core) (r : Nat) (v : W64) : (c.setFr r v).haltCause = c.haltCause := (rfl)
@[simp] theorem Core.setFr_forced (c : Core) (r : Nat) (v : W64) : (c.setFr r v).forced = c.forced := (rfl)
@[simp] theorem Core.setFr_stepReq (c : Core) (r : Nat) (v : W64) : (c.setFr r v).stepReq = c.stepReq := (rfl)
@[simp] theorem Core.setFr_drain (c : Core) (r : Nat) (v : W64) : (c.setFr r v).drain = c.drain := (rfl)
@[simp] theorem Core.setFr_portWait (c : Core) (r : Nat) (v : W64) : (c.setFr r v).portWait = c.portWait := (rfl)
@[simp] theorem Core.setFr_ports (c : Core) (r : Nat) (v : W64) : (c.setFr r v).ports = c.ports := (rfl)
@[simp] theorem Core.setFr_micro (c : Core) (r : Nat) (v : W64) : (c.setFr r v).micro = c.micro := (rfl)
@[simp] theorem Core.setFr_mode (c : Core) (r : Nat) (v : W64) : (c.setFr r v).mode = c.mode := (rfl)
@[simp] theorem Core.setFr_held (c : Core) (r : Nat) (v : W64) : (c.setFr r v).held = c.held := (rfl)
@[simp] theorem Core.setFr_wcs (c : Core) (r : Nat) (v : W64) : (c.setFr r v).wcs = c.wcs := (rfl)
@[simp] theorem Core.setFr_dtab (c : Core) (r : Nat) (v : W64) : (c.setFr r v).dtab = c.dtab := (rfl)
@[simp] theorem Core.setFr_pmatch (c : Core) (r : Nat) (v : W64) : (c.setFr r v).pmatch = c.pmatch := (rfl)
@[simp] theorem Core.setFr_plen (c : Core) (r : Nat) (v : W64) : (c.setFr r v).plen = c.plen := (rfl)
@[simp] theorem Core.setFr_clen (c : Core) (r : Nat) (v : W64) : (c.setFr r v).clen = c.clen := (rfl)
@[simp] theorem Core.setFr_corg (c : Core) (r : Nat) (v : W64) : (c.setFr r v).corg = c.corg := (rfl)
@[simp] theorem Core.setFr_patchVer (c : Core) (r : Nat) (v : W64) : (c.setFr r v).patchVer = c.patchVer := (rfl)
@[simp] theorem Core.setFr_tabVer (c : Core) (r : Nat) (v : W64) : (c.setFr r v).tabVer = c.tabVer := (rfl)
@[simp] theorem Core.setFr_pkey (c : Core) (r : Nat) (v : W64) : (c.setFr r v).pkey = c.pkey := (rfl)
@[simp] theorem Core.setFr_tkey (c : Core) (r : Nat) (v : W64) : (c.setFr r v).tkey = c.tkey := (rfl)

/-! ## Fields that an update leaves alone -/

@[simp] theorem setCsr_part (s : State) (h off : Nat) (v : W32) : (setCsr s h off v).part = s.part := (rfl)
@[simp] theorem setCsr_cpu (s : State) (h off : Nat) (v : W32) : (setCsr s h off v).cpu = s.cpu := (rfl)
@[simp] theorem setCsr_rul (s : State) (h off : Nat) (v : W32) : (setCsr s h off v).rul = s.rul := (rfl)
@[simp] theorem setCsr_arr (s : State) (h off : Nat) (v : W32) : (setCsr s h off v).arr = s.arr := (rfl)
@[simp] theorem setCsr_tok (s : State) (h off : Nat) (v : W32) : (setCsr s h off v).tok = s.tok := (rfl)
@[simp] theorem setCsr_dsp (s : State) (h off : Nat) (v : W32) : (setCsr s h off v).dsp = s.dsp := (rfl)
@[simp] theorem setCsr_net (s : State) (h off : Nat) (v : W32) : (setCsr s h off v).net = s.net := (rfl)
@[simp] theorem setCsr_mem (s : State) (h off : Nat) (v : W32) : (setCsr s h off v).mem = s.mem := (rfl)
@[simp] theorem setCsr_evi (s : State) (h off : Nat) (v : W32) : (setCsr s h off v).evi = s.evi := (rfl)
@[simp] theorem setCsr_lan (s : State) (h off : Nat) (v : W32) : (setCsr s h off v).lan = s.lan := (rfl)
@[simp] theorem setCsr_fab (s : State) (h off : Nat) (v : W32) : (setCsr s h off v).fab = s.fab := (rfl)
@[simp] theorem setCsr_svc (s : State) (h off : Nat) (v : W32) : (setCsr s h off v).svc = s.svc := (rfl)
@[simp] theorem setCsr_dbg (s : State) (h off : Nat) (v : W32) : (setCsr s h off v).dbg = s.dbg := (rfl)
@[simp] theorem setCsr_boot (s : State) (h off : Nat) (v : W32) : (setCsr s h off v).boot = s.boot := (rfl)
@[simp] theorem setCsr_pwr (s : State) (h off : Nat) (v : W32) : (setCsr s h off v).pwr = s.pwr := (rfl)
@[simp] theorem setCsr_resp (s : State) (h off : Nat) (v : W32) : (setCsr s h off v).resp = s.resp := (rfl)
@[simp] theorem setCsr_fresh (s : State) (h off : Nat) (v : W32) : (setCsr s h off v).fresh = s.fresh := (rfl)
@[simp] theorem setCsr_pending (s : State) (h off : Nat) (v : W32) : (setCsr s h off v).pending = s.pending := (rfl)
@[simp] theorem setCore_part (s : State) (i : Nat) (c : Core) : (setCore s i c).part = s.part := (rfl)
@[simp] theorem setCore_csr (s : State) (i : Nat) (c : Core) : (setCore s i c).csr = s.csr := (rfl)
@[simp] theorem setCore_rul (s : State) (i : Nat) (c : Core) : (setCore s i c).rul = s.rul := (rfl)
@[simp] theorem setCore_arr (s : State) (i : Nat) (c : Core) : (setCore s i c).arr = s.arr := (rfl)
@[simp] theorem setCore_tok (s : State) (i : Nat) (c : Core) : (setCore s i c).tok = s.tok := (rfl)
@[simp] theorem setCore_dsp (s : State) (i : Nat) (c : Core) : (setCore s i c).dsp = s.dsp := (rfl)
@[simp] theorem setCore_net (s : State) (i : Nat) (c : Core) : (setCore s i c).net = s.net := (rfl)
@[simp] theorem setCore_mem (s : State) (i : Nat) (c : Core) : (setCore s i c).mem = s.mem := (rfl)
@[simp] theorem setCore_evi (s : State) (i : Nat) (c : Core) : (setCore s i c).evi = s.evi := (rfl)
@[simp] theorem setCore_lan (s : State) (i : Nat) (c : Core) : (setCore s i c).lan = s.lan := (rfl)
@[simp] theorem setCore_fab (s : State) (i : Nat) (c : Core) : (setCore s i c).fab = s.fab := (rfl)
@[simp] theorem setCore_svc (s : State) (i : Nat) (c : Core) : (setCore s i c).svc = s.svc := (rfl)
@[simp] theorem setCore_dbg (s : State) (i : Nat) (c : Core) : (setCore s i c).dbg = s.dbg := (rfl)
@[simp] theorem setCore_boot (s : State) (i : Nat) (c : Core) : (setCore s i c).boot = s.boot := (rfl)
@[simp] theorem setCore_pwr (s : State) (i : Nat) (c : Core) : (setCore s i c).pwr = s.pwr := (rfl)
@[simp] theorem setCore_resp (s : State) (i : Nat) (c : Core) : (setCore s i c).resp = s.resp := (rfl)
@[simp] theorem setCore_fresh (s : State) (i : Nat) (c : Core) : (setCore s i c).fresh = s.fresh := (rfl)
@[simp] theorem setCore_pending (s : State) (i : Nat) (c : Core) : (setCore s i c).pending = s.pending := (rfl)
@[simp] theorem updCore_part (s : State) (i : Nat) (f : Core → Core) : (updCore s i f).part = s.part := (rfl)
@[simp] theorem updCore_csr (s : State) (i : Nat) (f : Core → Core) : (updCore s i f).csr = s.csr := (rfl)
@[simp] theorem updCore_rul (s : State) (i : Nat) (f : Core → Core) : (updCore s i f).rul = s.rul := (rfl)
@[simp] theorem updCore_arr (s : State) (i : Nat) (f : Core → Core) : (updCore s i f).arr = s.arr := (rfl)
@[simp] theorem updCore_tok (s : State) (i : Nat) (f : Core → Core) : (updCore s i f).tok = s.tok := (rfl)
@[simp] theorem updCore_dsp (s : State) (i : Nat) (f : Core → Core) : (updCore s i f).dsp = s.dsp := (rfl)
@[simp] theorem updCore_net (s : State) (i : Nat) (f : Core → Core) : (updCore s i f).net = s.net := (rfl)
@[simp] theorem updCore_mem (s : State) (i : Nat) (f : Core → Core) : (updCore s i f).mem = s.mem := (rfl)
@[simp] theorem updCore_evi (s : State) (i : Nat) (f : Core → Core) : (updCore s i f).evi = s.evi := (rfl)
@[simp] theorem updCore_lan (s : State) (i : Nat) (f : Core → Core) : (updCore s i f).lan = s.lan := (rfl)
@[simp] theorem updCore_fab (s : State) (i : Nat) (f : Core → Core) : (updCore s i f).fab = s.fab := (rfl)
@[simp] theorem updCore_svc (s : State) (i : Nat) (f : Core → Core) : (updCore s i f).svc = s.svc := (rfl)
@[simp] theorem updCore_dbg (s : State) (i : Nat) (f : Core → Core) : (updCore s i f).dbg = s.dbg := (rfl)
@[simp] theorem updCore_boot (s : State) (i : Nat) (f : Core → Core) : (updCore s i f).boot = s.boot := (rfl)
@[simp] theorem updCore_pwr (s : State) (i : Nat) (f : Core → Core) : (updCore s i f).pwr = s.pwr := (rfl)
@[simp] theorem updCore_resp (s : State) (i : Nat) (f : Core → Core) : (updCore s i f).resp = s.resp := (rfl)
@[simp] theorem updCore_fresh (s : State) (i : Nat) (f : Core → Core) : (updCore s i f).fresh = s.fresh := (rfl)
@[simp] theorem updCore_pending (s : State) (i : Nat) (f : Core → Core) : (updCore s i f).pending = s.pending := (rfl)
@[simp] theorem wbs_part (s : State) (k : Nat) (bs : Bytes) : (wbs s k bs).part = s.part := (rfl)
@[simp] theorem wbs_csr (s : State) (k : Nat) (bs : Bytes) : (wbs s k bs).csr = s.csr := (rfl)
@[simp] theorem wbs_cpu (s : State) (k : Nat) (bs : Bytes) : (wbs s k bs).cpu = s.cpu := (rfl)
@[simp] theorem wbs_rul (s : State) (k : Nat) (bs : Bytes) : (wbs s k bs).rul = s.rul := (rfl)
@[simp] theorem wbs_arr (s : State) (k : Nat) (bs : Bytes) : (wbs s k bs).arr = s.arr := (rfl)
@[simp] theorem wbs_tok (s : State) (k : Nat) (bs : Bytes) : (wbs s k bs).tok = s.tok := (rfl)
@[simp] theorem wbs_dsp (s : State) (k : Nat) (bs : Bytes) : (wbs s k bs).dsp = s.dsp := (rfl)
@[simp] theorem wbs_net (s : State) (k : Nat) (bs : Bytes) : (wbs s k bs).net = s.net := (rfl)
@[simp] theorem wbs_evi (s : State) (k : Nat) (bs : Bytes) : (wbs s k bs).evi = s.evi := (rfl)
@[simp] theorem wbs_lan (s : State) (k : Nat) (bs : Bytes) : (wbs s k bs).lan = s.lan := (rfl)
@[simp] theorem wbs_fab (s : State) (k : Nat) (bs : Bytes) : (wbs s k bs).fab = s.fab := (rfl)
@[simp] theorem wbs_svc (s : State) (k : Nat) (bs : Bytes) : (wbs s k bs).svc = s.svc := (rfl)
@[simp] theorem wbs_dbg (s : State) (k : Nat) (bs : Bytes) : (wbs s k bs).dbg = s.dbg := (rfl)
@[simp] theorem wbs_boot (s : State) (k : Nat) (bs : Bytes) : (wbs s k bs).boot = s.boot := (rfl)
@[simp] theorem wbs_pwr (s : State) (k : Nat) (bs : Bytes) : (wbs s k bs).pwr = s.pwr := (rfl)
@[simp] theorem wbs_resp (s : State) (k : Nat) (bs : Bytes) : (wbs s k bs).resp = s.resp := (rfl)
@[simp] theorem wbs_fresh (s : State) (k : Nat) (bs : Bytes) : (wbs s k bs).fresh = s.fresh := (rfl)
@[simp] theorem wbs_pending (s : State) (k : Nat) (bs : Bytes) : (wbs s k bs).pending = s.pending := (rfl)
@[simp] theorem drawn_part (s : State) : (drawn s).part = s.part := (rfl)
@[simp] theorem drawn_csr (s : State) : (drawn s).csr = s.csr := (rfl)
@[simp] theorem drawn_cpu (s : State) : (drawn s).cpu = s.cpu := (rfl)
@[simp] theorem drawn_rul (s : State) : (drawn s).rul = s.rul := (rfl)
@[simp] theorem drawn_arr (s : State) : (drawn s).arr = s.arr := (rfl)
@[simp] theorem drawn_tok (s : State) : (drawn s).tok = s.tok := (rfl)
@[simp] theorem drawn_dsp (s : State) : (drawn s).dsp = s.dsp := (rfl)
@[simp] theorem drawn_net (s : State) : (drawn s).net = s.net := (rfl)
@[simp] theorem drawn_mem (s : State) : (drawn s).mem = s.mem := (rfl)
@[simp] theorem drawn_evi (s : State) : (drawn s).evi = s.evi := (rfl)
@[simp] theorem drawn_lan (s : State) : (drawn s).lan = s.lan := (rfl)
@[simp] theorem drawn_fab (s : State) : (drawn s).fab = s.fab := (rfl)
@[simp] theorem drawn_svc (s : State) : (drawn s).svc = s.svc := (rfl)
@[simp] theorem drawn_dbg (s : State) : (drawn s).dbg = s.dbg := (rfl)
@[simp] theorem drawn_boot (s : State) : (drawn s).boot = s.boot := (rfl)
@[simp] theorem drawn_pwr (s : State) : (drawn s).pwr = s.pwr := (rfl)
@[simp] theorem drawn_resp (s : State) : (drawn s).resp = s.resp := (rfl)
@[simp] theorem drawn_pending (s : State) : (drawn s).pending = s.pending := (rfl)
@[simp] theorem setDom_part (s : State) (ix : Nat) (d : DomState) : (setDom s ix d).part = s.part := (rfl)
@[simp] theorem setDom_csr (s : State) (ix : Nat) (d : DomState) : (setDom s ix d).csr = s.csr := (rfl)
@[simp] theorem setDom_cpu (s : State) (ix : Nat) (d : DomState) : (setDom s ix d).cpu = s.cpu := (rfl)
@[simp] theorem setDom_rul (s : State) (ix : Nat) (d : DomState) : (setDom s ix d).rul = s.rul := (rfl)
@[simp] theorem setDom_arr (s : State) (ix : Nat) (d : DomState) : (setDom s ix d).arr = s.arr := (rfl)
@[simp] theorem setDom_tok (s : State) (ix : Nat) (d : DomState) : (setDom s ix d).tok = s.tok := (rfl)
@[simp] theorem setDom_dsp (s : State) (ix : Nat) (d : DomState) : (setDom s ix d).dsp = s.dsp := (rfl)
@[simp] theorem setDom_mem (s : State) (ix : Nat) (d : DomState) : (setDom s ix d).mem = s.mem := (rfl)
@[simp] theorem setDom_evi (s : State) (ix : Nat) (d : DomState) : (setDom s ix d).evi = s.evi := (rfl)
@[simp] theorem setDom_lan (s : State) (ix : Nat) (d : DomState) : (setDom s ix d).lan = s.lan := (rfl)
@[simp] theorem setDom_fab (s : State) (ix : Nat) (d : DomState) : (setDom s ix d).fab = s.fab := (rfl)
@[simp] theorem setDom_svc (s : State) (ix : Nat) (d : DomState) : (setDom s ix d).svc = s.svc := (rfl)
@[simp] theorem setDom_dbg (s : State) (ix : Nat) (d : DomState) : (setDom s ix d).dbg = s.dbg := (rfl)
@[simp] theorem setDom_boot (s : State) (ix : Nat) (d : DomState) : (setDom s ix d).boot = s.boot := (rfl)
@[simp] theorem setDom_pwr (s : State) (ix : Nat) (d : DomState) : (setDom s ix d).pwr = s.pwr := (rfl)
@[simp] theorem setDom_resp (s : State) (ix : Nat) (d : DomState) : (setDom s ix d).resp = s.resp := (rfl)
@[simp] theorem setDom_fresh (s : State) (ix : Nat) (d : DomState) : (setDom s ix d).fresh = s.fresh := (rfl)
@[simp] theorem setDom_pending (s : State) (ix : Nat) (d : DomState) : (setDom s ix d).pending = s.pending := (rfl)
@[simp] theorem setBad_part (s : State) (cw : Nat) (m : BitVec 20) : (setBad s cw m).part = s.part := (rfl)
@[simp] theorem setBad_csr (s : State) (cw : Nat) (m : BitVec 20) : (setBad s cw m).csr = s.csr := (rfl)
@[simp] theorem setBad_cpu (s : State) (cw : Nat) (m : BitVec 20) : (setBad s cw m).cpu = s.cpu := (rfl)
@[simp] theorem setBad_rul (s : State) (cw : Nat) (m : BitVec 20) : (setBad s cw m).rul = s.rul := (rfl)
@[simp] theorem setBad_arr (s : State) (cw : Nat) (m : BitVec 20) : (setBad s cw m).arr = s.arr := (rfl)
@[simp] theorem setBad_tok (s : State) (cw : Nat) (m : BitVec 20) : (setBad s cw m).tok = s.tok := (rfl)
@[simp] theorem setBad_dsp (s : State) (cw : Nat) (m : BitVec 20) : (setBad s cw m).dsp = s.dsp := (rfl)
@[simp] theorem setBad_net (s : State) (cw : Nat) (m : BitVec 20) : (setBad s cw m).net = s.net := (rfl)
@[simp] theorem setBad_evi (s : State) (cw : Nat) (m : BitVec 20) : (setBad s cw m).evi = s.evi := (rfl)
@[simp] theorem setBad_lan (s : State) (cw : Nat) (m : BitVec 20) : (setBad s cw m).lan = s.lan := (rfl)
@[simp] theorem setBad_fab (s : State) (cw : Nat) (m : BitVec 20) : (setBad s cw m).fab = s.fab := (rfl)
@[simp] theorem setBad_svc (s : State) (cw : Nat) (m : BitVec 20) : (setBad s cw m).svc = s.svc := (rfl)
@[simp] theorem setBad_dbg (s : State) (cw : Nat) (m : BitVec 20) : (setBad s cw m).dbg = s.dbg := (rfl)
@[simp] theorem setBad_boot (s : State) (cw : Nat) (m : BitVec 20) : (setBad s cw m).boot = s.boot := (rfl)
@[simp] theorem setBad_pwr (s : State) (cw : Nat) (m : BitVec 20) : (setBad s cw m).pwr = s.pwr := (rfl)
@[simp] theorem setBad_resp (s : State) (cw : Nat) (m : BitVec 20) : (setBad s cw m).resp = s.resp := (rfl)
@[simp] theorem setBad_fresh (s : State) (cw : Nat) (m : BitVec 20) : (setBad s cw m).fresh = s.fresh := (rfl)
@[simp] theorem setBad_pending (s : State) (cw : Nat) (m : BitVec 20) : (setBad s cw m).pending = s.pending := (rfl)

end Sys2Proof.Machine
end

