-- ==== Sys2Proof/Laws/Memory.lean ====
section
/-! SUPPORT. Every memory operation keeps the canonical form of memory; what a byte reads as after a write. -/
namespace Sys2Proof.Machine

/-- A fold whose every step keeps a property keeps it. -/
theorem foldl_keeps {α β : Type} (P : β → Prop) (f : β → α → β) (l : List α) (b : β) (hb : P b)
    (hf : ∀ b a, P b → P (f b a)) : P (l.foldl f b) := by
  induction l generalizing b with
  | nil => exact hb
  | cons a l ih => exact ih (f b a) (hf b a hb)

theorem wcells_wf (m : List Host.Cell) (k : Nat) (bs : Bytes) (h : Memory.wf m = true) :
    Memory.wf (wcells m k bs) = true := by
  induction bs generalizing m k with
  | nil => exact h
  | cons b bs ih => exact ih _ _ (twf_tset _ _ _ _ h)

/-- The byte at `a` after bytes have been written from `k` up. -/
theorem tget_wcells (m : List Host.Cell) (k : Nat) (bs : Bytes) (a : Nat) :
    tget memDflt (wcells m k bs) a = if k ≤ a ∧ a < k + bs.length then bs.getD (a - k) 0 else tget memDflt m a := by
  induction bs generalizing m k with
  | nil =>
    have h : ¬ (k ≤ a ∧ a < k + ([] : Bytes).length) := by simp only [List.length_nil]; omega
    rw [if_neg h]; rfl
  | cons b bs ih =>
    simp only [wcells, ih, tget_tset, List.length_cons]
    by_cases e : a = k
    · subst e
      have h : ¬ (a + 1 ≤ a ∧ a < a + 1 + bs.length) := by omega
      have h2 : a ≤ a ∧ a < a + (bs.length + 1) := by omega
      rw [if_neg h, if_pos rfl, if_pos h2, Nat.sub_self, List.getD_cons_zero]
    · by_cases h : k + 1 ≤ a ∧ a < k + 1 + bs.length
      · have h2 : k ≤ a ∧ a < k + (bs.length + 1) := by omega
        have h3 : a - k = (a - (k + 1)) + 1 := by omega
        rw [if_pos h, if_pos h2, h3, List.getD_cons_succ]
      · have h2 : ¬ (k ≤ a ∧ a < k + (bs.length + 1)) := by omega
        rw [if_neg h, if_neg h2, if_neg e]

/-- A byte of a memory other than the boot ROM reads back as written; every other byte reads as before. -/
theorem rb_wbs (s : State) (k : Nat) (bs : Bytes) (a : Nat) (ha : ¬ (romBase ≤ a ∧ a < romBase + 0x40000)) :
    rb (wbs s k bs) a = if k ≤ a ∧ a < k + bs.length then bs.getD (a - k) 0 else rb s a := by
  unfold rb
  have : (decide (romBase ≤ a) && decide (a < romBase + 0x40000)) = false := by simpa using ha
  simp [this, wbs, tget_wcells]

/-- The boot ROM never changes. -/
theorem rb_rom (s : State) (a : Nat) (ha : romBase ≤ a ∧ a < romBase + 0x40000) :
    rb s a = Config.bootRomByte (a - romBase) := by simp [rb, ha]

theorem memWf_of_cells {s t : State} (h : t.mem.cells = s.mem.cells) (w : s.memWf) : t.memWf := by
  simpa [State.memWf, h] using w

theorem memWf_of_mem {s t : State} (h : t.mem = s.mem) (w : s.memWf) : t.memWf :=
  memWf_of_cells (by rw [h]) w

theorem memWf_wbs (s : State) (k : Nat) (bs : Bytes) (h : s.memWf) : (wbs s k bs).memWf := wcells_wf _ _ _ h

theorem mem_dropRes (s : State) (who : Option Nat) (k n : Nat) : (dropRes s who k n).mem = s.mem :=
  foldl_keeps (fun t : State => t.mem = s.mem) _ _ _ rfl (fun _ _ h => h)

theorem cells_dropDirty (s : State) (k n : Nat) : (dropDirty s k n).mem.cells = s.mem.cells := by
  unfold dropDirty; split <;> rfl

@[simp] theorem mem_wrF (s : State) (h off hi lo n : Nat) : (wrF s h off hi lo n).mem = s.mem := by simp [wrF]
@[simp] theorem mem_wrB (s : State) (h off b : Nat) (v : Bool) : (wrB s h off b v).mem = s.mem := by simp [wrB]
@[simp] theorem mem_bump (s : State) (h off hi lo n : Nat) : (bump s h off hi lo n).mem = s.mem := by
  simp [bump]
@[simp] theorem mem_alarm (s : State) (h b : Nat) : (alarm s h b).mem = s.mem := by simp [alarm]

@[simp] theorem setJlost_mem (s : State) (h : Nat) (b : Bool) : (setJlost s h b).mem = s.mem := (rfl)
@[simp] theorem setJbuf_mem (s : State) (h : Nat) (q : List Bytes) : (setJbuf s h q).mem = s.mem := (rfl)
theorem cells_goodCws (s : State) (k : Nat) : (goodCws s k).mem.cells = s.mem.cells := (rfl)

theorem mem_eloc (s : State) (u : EccUnit) (a sym src : Nat) (unc : Bool) : (eloc s u a sym src unc).mem = s.mem := by
  unfold eloc; split <;> simp

theorem memWf_jput (s : State) (k : Nat) (r : Bytes) (w : s.memWf) : (jput s k r).memWf := by
  refine memWf_of_cells (s := wbs s k r) ?_ (memWf_wbs s k r w)
  rw [jput, cells_goodCws, mem_dropRes, cells_dropDirty]

/-- A journal record keeps the form of memory. -/
theorem memWf_jwrite (s : State) (h : Nat) (body : Bytes) (w : s.memWf) : (jwrite s h body).memWf := by
  unfold jwrite
  dsimp only
  split
  · exact memWf_of_mem (setCsr_mem _ _ _ _) (memWf_of_mem (setJlost_mem _ _ _) (memWf_jput _ _ _ w))
  · exact memWf_of_mem (by rw [mem_bump, setJlost_mem]) w

theorem memWf_journal (s : State) (h code : Nat) (a : Bool) (p : Nat) (d : Bytes) (w : s.memWf) :
    (journal s h code a p d).memWf := by
  unfold journal
  dsimp only
  split
  · exact memWf_jwrite _ _ _ w
  · split
    · exact memWf_of_mem (setJbuf_mem _ _ _) w
    · exact memWf_of_mem (by rw [mem_bump, setJlost_mem]) w

theorem memWf_jflush (s : State) (h : Nat) (w : s.memWf) : (jflush s h).memWf :=
  foldl_keeps State.memWf _ _ _ (memWf_of_mem (setJbuf_mem _ _ _) w) (fun t b ht => memWf_jwrite t h b ht)

theorem memWf_scramble (s : State) (cw : Nat) (w : s.memWf) : (scramble s cw).memWf := memWf_wbs s _ _ w

/-- A decoder's verdict keeps the form of memory. -/
theorem memWf_checkCw (s : State) (cw src : Nat) (w : s.memWf) : (checkCw s cw src).1.memWf := by
  have corr : ∀ (t : State) (sym : Nat), t.memWf →
      (setBad (eloc (if !(elocHolds t (eccUnit cw) (eccAddr cw)) then
        journal (bump t (eccUnit cw).h (eccUnit cw).ecc 31 16 1) (eccUnit cw).h evMemCorr false noPart
          (memDetail (eccUnit cw).code sym src 0 (eccAddr cw))
        else bump t (eccUnit cw).h (eccUnit cw).ecc 31 16 1) (eccUnit cw) (eccAddr cw) sym src false) cw 0).memWf := by
    intro t sym ht
    refine memWf_of_cells (s := if !(elocHolds t (eccUnit cw) (eccAddr cw)) then
        journal (bump t (eccUnit cw).h (eccUnit cw).ecc 31 16 1) (eccUnit cw).h evMemCorr false noPart
          (memDetail (eccUnit cw).code sym src 0 (eccAddr cw))
        else bump t (eccUnit cw).h (eccUnit cw).ecc 31 16 1) ?_ ?_
    · simp only [setBad, mem_eloc]
    · split
      · exact memWf_journal _ _ _ _ _ _ (memWf_of_mem (mem_bump t _ _ _ _ _) ht)
      · exact memWf_of_mem (mem_bump t _ _ _ _ _) ht
  have unc : ∀ t : State, t.memWf →
      (eloc (journal (bump t (eccUnit cw).h (eccUnit cw).ecc 15 0 1) (eccUnit cw).h evMemUncorr false noPart
        (memDetail (eccUnit cw).code 0x1F src 0 (eccAddr cw))) (eccUnit cw) (eccAddr cw) 0x1F src true).memWf := by
    intro t ht
    exact memWf_of_mem (mem_eloc _ _ _ _ _ _) (memWf_journal _ _ _ _ _ _ (memWf_of_mem (mem_bump t _ _ _ _ _) ht))
  unfold checkCw
  dsimp only
  split
  · exact w
  · split
    · exact corr s _ w
    · split
      · exact unc s w
      · split
        · exact memWf_scramble _ _ w
        · split
          · exact corr _ _ (memWf_scramble _ _ w)
          · exact unc _ w

theorem memWf_checkRange (s : State) (k n src : Nat) (w : s.memWf) : (checkRange s k n src).1.memWf := by
  unfold checkRange
  split
  · exact w
  · exact foldl_keeps (fun r : State × MStat => r.1.memWf) _ _ _ w (fun r cw hr => memWf_checkCw _ _ _ hr)

/-- A checked read keeps the form of memory. -/
theorem memWf_mrd (s : State) (eh a n : Nat) (w : s.memWf) : (mrd s eh a n).1.memWf := by
  have h := memWf_checkRange s (absKey eh a) n 0 w
  unfold mrd
  split
  · exact w
  · dsimp only
    split
    · split
      · next e => rw [e] at h; exact h
      · next e => rw [e] at h; exact h
    · exact w

theorem memWf_rmwCheck (s : State) (k n : Nat) (w : s.memWf) : (rmwCheck s k n).1.memWf := by
  unfold rmwCheck
  split
  · exact w
  · refine foldl_keeps (fun r : State × List Nat => r.1.memWf) _ _ _ w (fun r cw hr => ?_)
    have h := memWf_checkCw r.1 cw 1 hr
    split
    · split
      · next e => rw [e] at h; exact h
      · next e => rw [e] at h; exact memWf_of_mem (by simp) h
    · exact hr

/-- A checked write keeps the form of memory. -/
theorem memWf_mwr (s : State) (eh : Nat) (who : Option Nat) (a : Nat) (bs : Bytes) (w : s.memWf) :
    (mwr s eh who a bs).1.memWf := by
  unfold mwr
  dsimp only
  split
  · exact w
  · split
    · exact w
    · split
      · exact w
      · have h : (if coded (absKey eh a) = true then rmwCheck s (absKey eh a) bs.length else (s, [])).1.memWf := by
          split
          · exact memWf_rmwCheck _ _ _ w
          · exact w
        generalize (if coded (absKey eh a) = true then rmwCheck s (absKey eh a) bs.length else (s, [])) = q at h
        obtain ⟨t, st⟩ := q
        dsimp only at h ⊢
        have put (b : Bytes) : (dropRes (dropDirty (wbs t (absKey eh a) b) (absKey eh a) bs.length) who (absKey eh a)
            bs.length).memWf :=
          memWf_of_cells (s := wbs t _ _) (by rw [mem_dropRes, cells_dropDirty]) (memWf_wbs _ _ _ h)
        split
        · exact put _
        · split
          · exact h
          · exact put _

end Sys2Proof.Machine
end

