-- ==== Sys2Proof/Laws/Core.lean ====
section
/-! SUPPORT. How a core's row comes down to the instruction's own operation, what ends an instruction, and memory under
the operations that clear ranges. -/
namespace Sys2Proof.Machine

/-! ## A row of a core -/

/-- A row whose core cannot step leaves the state. -/
theorem runRow_off {s : State} {c : CoreId} {o : Op} (h : canStep s (coreIx c) = false) : runRow c o s = s := by
  simp [runRow, h]

theorem boundary_pc (s : State) (i : Nat) : (getCore (boundary s i) i).pc = (getCore s i).pc := by
  unfold boundary setMode
  split <;> simp

/-- A row that begins runs its operation on the state after the fetch. -/
theorem runRow_begins {s f : State} {c : CoreId} {o : Op} (hfp : o.fp = false) (hill : o.ill = false)
    (h : Begins s f c o.foot.reads o.foot.writes o.foot.flags) :
    runRow c o s = finish (boundary s (coreIx c)) (coreIx c) (o.run (coreIx c) f) := by
  obtain ⟨h1, h2, w, h3⟩ := h
  have h2' : hazard (getCore f (coreIx c)) o.foot = false := h2
  simp only [runRow, h1, if_true, stepOp, beforeFetch, hfp, Bool.false_and, boundary_pc, h3, opRes, hill, h2']
  rfl

/-! ## The end of an instruction -/

@[simp] theorem finish_next (s0 s : State) (i : Nat) :
    finish s0 i (.next s) = updCore s i (fun c => { c with pc := c.pc + 4, ports := [], micro := none }) := rfl
@[simp] theorem finish_jump (s0 s : State) (i : Nat) (pc : BitVec 48) :
    finish s0 i (.jump s pc) = updCore s i (fun c => { c with pc := pc, ports := [], micro := none }) := rfl
@[simp] theorem finish_done (s0 s : State) (i : Nat) : finish s0 i (.done s) = s := rfl
@[simp] theorem finish_wait (s0 s : State) (i : Nat) : finish s0 i (.wait s) = s := rfl

/-- A trap waits for the unit, and is entered once it is idle (R200). -/
theorem finish_trap {s0 : State} (s : State) (i : Nat) (cause : Nat) (v : W64) (h : (getCore s0 i).fpu = none) :
    finish s0 i (.trap s cause v) = takeTrap s i (getCore s i).pc (getCore s i).pc cause v false := by
  simp [finish, h]

/-- With no FPE pending a trap is entered as it stands. -/
theorem takeTrap_plain {s : State} {i : Nat} (at_ epc : BitVec 48) (cause : Nat) (v : W64) (async : Bool)
    (h : (getCore s i).fpePend = false) : takeTrap s i at_ epc cause v async = enterTrap s i epc cause v async := by
  simp [takeTrap, h]

/-! ## Ranges of memory -/

theorem memWf_zeroRange (s : State) (lo n : Nat) (w : s.memWf) : (zeroRange s lo n).memWf :=
  (twf_tkeep memDflt (fun k => decide (k < lo) || decide (lo + n ≤ k)) s.mem.cells w : _ = true)

theorem memWf_dropL1 (s : State) (i : Nat) (w : s.memWf) : (dropL1 s i).memWf := by
  have key : ∀ (l : Tab (Option (Nat × Byte))) (s : State), s.memWf →
      (l.foldl (fun s e => match e.2 with | some (_, b) => wbs s e.1 [b] | none => s) s).memWf := by
    intro l
    induction l with
    | nil => exact fun _ h => h
    | cons e l ih =>
      intro s h
      rw [List.foldl_cons]
      apply ih
      split
      · exact memWf_wbs _ _ _ h
      · exact h
  exact memWf_of_cells (s := _) rfl (key _ s w)

end Sys2Proof.Machine
end

