-- ==== Sys2Proof/WellFormed.lean ====
section
/-! DEFINITION. Commands whose operands agree with each other. The types of the operands bound every number; what is
left are lengths, alignments and majors. -/
namespace Sys2Proof

/-- Major opcode of an instruction word (R170). -/
def majorOf (w : W32) : Nat := w.toNat / 2 ^ 26

/-- The operands fit each other: data of a written request have its length; register offsets are multiples of 4
(R183); an image word lies in the majors its row names (R221). -/
def wellFormed : Instr → Bool
  | .registerWrite _ _ off _ => off.toNat % 4 == 0
  | .inboundRequest _ _ write _ len data => !write || data.length == len.toNat
  | .fabricMasterRequest _ _ write _ len data => !write || data.length == len.toNat
  | .tableRangeWord _ w => decide (0x38 ≤ majorOf w)
  | .emulatedWord _ w => majorOf w == 0x07 || (decide (0x1A ≤ majorOf w) && decide (majorOf w ≤ 0x37))
  | .illegalWord _ w => majorOf w != 0x07 && decide (majorOf w ≤ 0x19)
  | _ => true

end Sys2Proof
end

