-- ==== Sys2Proof/Tests/Slice0.lean ====
section
/-! SUPPORT. Tests: for every obligation with hypotheses a state that meets them, commands that the well-formedness check
refuses, and a few results of single commands worked by hand, from the spec's examples or from published check values. -/
set_option maxRecDepth 100000
set_option Elab.async false
namespace Sys2Proof.Tests
open Sys2Proof.Machine

/-! ## States for the witnesses -/

def c0 : CoreId := ⟨0, 0⟩
/-- Core 0 at an instruction in hub 0's common memory. -/
def k0 : Core := { Core.reset with rstate := .running, bare := true, pc := 0x010000001000 }
/-- Both hubs handed off, core 0 running with one window over all of memory and the registers. -/
def base : State :=
  { State.reset with
    pwr := { State.reset.pwr with porn := true }
    boot := { State.reset.boot with st := [(0, .done), (1, .done)] }
    cpu := { cores := [(0, k0)], mcLoad := [] }
    csr := [(R.WINBASELO 0 0, 0), (R.WINLIMLO 0 0, 0xFFFFF000), (R.WINHI 0 0, 0xFFFF0000), (R.WINCTL 0 0, 15)] }
def onCore (k : Core) : State := { base with cpu := { base.cpu with cores := [(0, k)] } }
/-- Core 0 with general registers l. -/
def withG (l : List (Nat × W64)) : State := onCore { k0 with g := l }
/-- Sixteen bytes of hub 0's common memory. -/
def withMem (s : State) : State :=
  let cells := (List.range 16).map (fun j => (commonBase 0 + 0x2000 + j, BitVec.ofNat 8 (0x81 + 17 * j)))
  { s with mem := { s.mem with cells := cells } }
/-- More registers, set one after the other. -/
def withCsr (s : State) (l : List (Nat × W32)) : State :=
  { s with csr := l.foldl (fun t e => tinsert (terase t e.1) e.1 e.2) s.csr }
def withPs (s : State) (p : W32) : State := updCore s 0 (fun k => { k with pstat := p })

/-- Two pointers into the filled bytes and a value. -/
def sMem : State := withMem (withG [(1, 0x010000002000), (2, 0x010000002008), (3, 7)])
/-- The same with the reservation of the line held. -/
def sHeld : State := updCore sMem 0 (fun k => { k with lladdr := 0x010000002001 })
def sBlock : State := updCore sMem 0 (fun k => { k with cnt := 1 })
/-- REP whose word, at the next address, is ADD G1, G1, G2 with S = sf. -/
def sPrefix (sf : Nat) (x cnt : W64) : State :=
  let w := 0x02 * 2 ^ 26 + 2 ^ 21 + 2 ^ 16 + 2 * 2 ^ 11 + sf * 2 ^ 10
  let s := onCore { k0 with g := [(1, 5), (2, x)], cnt := cnt }
  let cells := (List.range 4).map (fun j => (commonBase 0 + 0x1004 + j, BitVec.ofNat 8 (w / 256 ^ j)))
  { s with mem := { s.mem with cells := cells.filter (fun e => e.2 ≠ 0) } }

/-- Special registers all different, interrupts accepted. -/
def kSpr : Core :=
  { k0 with g := [(1, 0x0123456789ABCDE4)], f := [(1, 0x4000000000000000), (2, 0xFFFFFFFF3F800000), (3, 5)],
            pstat := 0x1015, cnt := 3, fpcr := 1, fpsr := 0x20, ctx := 9, tag := 0x55, epc := 0x100, trapc := 0x22,
            trapv := 0x33, lladdr := 0x41 }
def sSpr : State := onCore kSpr
/-- In a trap handler of level 0, and of level 1. -/
def sHandler : State := onCore { kSpr with pstat := 0x2000, trapc := 0x151500000000, epc := 0x010000004000 }
def sNested : State :=
  onCore { kSpr with pstat := 0x2000, trapc := 0x200015000000020C, epc := 0x010000004000, shadow := some (7, 8, 9) }
def sEvents (w : Bool) (a m : Option W64) (p : W32) : State :=
  onCore { k0 with watch := w, array := a, memerr := m, pstat := p }
def sUnit (o : FpOp) (fpcr : W32) : State := onCore { kSpr with fpu := some o, fpcr := fpcr }

/-! ### Tokens -/

/-- A codelet descriptor of partition 0 with its check byte. -/
def descBytes (entry arity : Nat) : Bytes :=
  let b := natLe 8 (entry + arity * 2 ^ 48 + 2 ^ 54) ++ zeros 7
  b ++ [crc8 b.reverse]
/-- Bytes laid out from an address, those that read as unlisted left out. -/
def cellsAt (a : Nat) (b : Bytes) : List Host.Cell :=
  ((List.range b.length).map (fun j => (a + j, byteAt b j))).filter (fun e => e.2 ≠ 0)
def liveCtx : Ctx := { state := .live, part := 0, late := 0, freed := 0 }
/-- Context 5 of hub 0 is LIVE for partition 0; codelet 0 takes two ports and codelet 1 one; partition 0 owns bank 0
and a blotter, and core 0. -/
def sTok : State :=
  let s := withCsr base [(R.CLTBASELO, 0x8000), (R.CLTBASEHI, 0x0100), (R.CLTSIZE, 2), (R.MBPART0, 0xFFFFFFF0),
    (R.BLTBASELO 0, 0x100000), (R.BLTBASEHI 0, 0x0100), (R.BLTCTL 0, 0x80000010), (R.CTXQ 0, 0x00100000),
    (R.PCORES 0, 0xFFFFFFFF), (R.FRCOUNT 0, 2), (R.FRBASE 0, 0x10000)]
  let cells := cellsAt (commonBase 0 + 0x8000) (descBytes 0x010000003000 2 ++ descBytes 0x010000003100 1)
  { s with mem := { s.mem with cells := cells }, tok := { s.tok with ctxs := [(5, liveCtx)] } }
/-- Tags of context 5: codelet n, key byte y, a port and a class. -/
def wTag (n y port cls : Nat) : W64 :=
  BitVec.ofNat 64 (5 * 2 ^ 52 + n * 2 ^ 32 + y * 2 ^ 8 + port * 2 ^ 6 + cls * 2 ^ 4)
def sTokG (l : List (Nat × W64)) : State := updCore sTok 0 (fun k => { k with g := l })
/-- A waiting entry of context 5. -/
def entryOf (n y : Nat) (p : Place) (vals : List (Option W64)) : Entry :=
  let k := tagKey (wTag n y 0 0)
  { hub := 0, bank := 13, set := keySet k, key := k, arity := 2, vals := vals, cls := 1, part := 0, place := p,
    chk := tagCheck (keyTag k 0) }
def withTok (s : State) (f : TokenSys → TokenSys) : State := { s with tok := f s.tok }
def withDsp (s : State) (f : DispatchSys → DispatchSys) : State := { s with dsp := f s.dsp }
def theCancel (key : Option (BitVec 56)) : Cancel := { dst := 0, src := 0, ctx := 5, key := key, purge := false }
def ligOf (fill : Option (Option Tok)) (on : Bool) : Lig :=
  { hub := 0, flow := 3, seq := 0, owner := 5, part := 0, fill := fill, onchip := on }
/-- Flow 3 is enabled for partition 0 with one pending entry. -/
def sFlow (fill : Option (Option Tok)) (on : Bool) : State :=
  withDsp (withCsr (sTokG [(1, 3), (2, 0x77), (3, wTag 0 0 0 0)]) [(R.FLOW 3, 0x80000000), (R.LIGQ 0, 16)])
    (fun d => { d with flows := [(3, ⟨1, 0⟩)], ligs := [ligOf fill on] })
def wTok (n y port : Nat) (v : W64) : Tok := mkTok (wTag n y port 0) v 0 .mailbox 0
def transitOf (k : Tok) : State := withTok sTok (fun t => { t with transit := [k] })
/-- A token at the head of bank 13 beside the entries l. -/
def sLook (k : Tok) (l : List Entry) : State := withTok sTok (fun t => { t with aq := [(13, [k])], entries := l })
/-- An entry of the set of key byte 0, outside the store, of another key. -/
def foreign : Entry := { entryOf 0 1 .reserve [some 1, none, none, none] with set := keySet (tagKey (wTag 0 0 0 0)) }
def wInst (cls : Nat) (frame : Option Nat) : Inst :=
  { hub := 0, key := tagKey (wTag 0 0 0 0), cls := cls, arity := 2, vals := [11, 12], entry := 0x010000003000, part := 0,
    noaff := false, nopre := false, frame := frame, bank := 13 }
def withReady (s : State) (r : Ready) : State := withDsp s (fun d => { d with ready := [(0, r)] })
def withCore (s : State) (f : Core → Core) : State := updCore s 0 f
/-- Core 0 idle with one entry in its ready list. -/
def sIdle : State := withReady (withCore sTok (fun k => { k with rstate := .idle, bare := false })) ⟨[wInst 1 none], [], [], [], []⟩
/-- Core 0 runs an entry of class 1; a fresh one of class 3 is ready when `more`. -/
def sRuns (more : Bool) (frame : Option Nat) : State :=
  withReady (withCore sTok (fun k => { k with bare := false, running := some (wInst 1 frame) }))
    ⟨if more then [wInst 3 none] else [], [], [], [], []⟩
/-- Partition 0 is quiet with one waiting entry; `m` is its drain marker. -/
def sQuiet (m : Option Bool) : State :=
  withTok (withCore (withCsr sTok [(R.SDCTL 0, 0xA0000010), (R.SNAPHI 0, 0x0100), (R.SNAPLO 0, 0x200000)])
    (fun k => { k with rstate := .idle, bare := false }))
    (fun t => { t with entries := [entryOf 0 0 .way [some 1, none, none, none]], marker := [(0, m)].filter (fun e => e.2 ≠ none) })

/-! ### Rulings -/

def withRul (s : State) (f : RulingSys → RulingSys) : State := { s with rul := f s.rul }
/-- Ruling 7 of hub 0 enabled for partition 0, FRAMELINES 1080, with the source given; at frame 3, line 20. -/
def sRuling (src : Nat) (a : List Advance) (stamp : Option W32) : State :=
  withRul (withCsr sTok [(R.RCFG 7, BitVec.ofNat 32 (2 ^ 31 + src * 2 ^ 28 + 1 * 2 ^ 14 + 1080)), (R.MARKQ 0, 100),
      (R.RFMT 7, 3003)])
    (fun r => { r with pos := [(7, streamPos 3 20)], rtp := [(7, stamp)].filter (fun e => e.2 ≠ none),
                       advq := [(0, a)].filter (fun e => e.2 ≠ []) })
def wMark (rid : Nat) (p : W64) (mate : Option Nat) : Mark :=
  { rid := rid, pos := p, tag := wTag 0 0 0 0, part := 0, mate := mate, primary := true }
def withMarks (s : State) (l : Tab (Option Mark)) : State := withRul s (fun r => { r with marks := l })
/-- PULSE[2] enabled with a debounce of d and an edge selection; its level low. -/
def sPin (e d : Nat) (deb : Option Nat) : State :=
  withRul (withCsr base [(R.RCFGX 10, 0x80000000), (R.EDGECFG 3, BitVec.ofNat 32 (2 ^ 31 + e * 2 ^ 28 + d))])
    (fun r => { r with deb := [(3, deb)].filter (fun e => e.2 ≠ none) })
def sPtp (hold : Nat) : State :=
  withRul (withCsr base [(R.RCFGX 0, 0x80000000), (R.PTPCFG, 0x80000000)])
    (fun r => { r with pos := [(0x400, 999999999)], hold := [(0, hold)].filter (fun e => e.2 ≠ 0) })

/-! ### The array -/

/-- A plane that repeats a pattern of 13 bits. -/
def pat (k : Nat) : Plane := BitVec.ofNat 16384 (2 ^ 16384 / 8191 * k)
def wSheet (gx : Nat) (st : ShState) : SheetSt :=
  { sheetDflt 0 with state := st, before := .idle, gw := 2, gh := 1, gx := gx, x := pat 0x155, y := pat 0x0F3,
                     c := pat (0x333 + gx), m := pat (0x1C7 + gx), t := pat 0x0E5, stack := [pat 0x0AA] }
def withArr (s : State) (f : ArraySys → ArraySys) : State := { s with arr := f s.arr }
/-- Sheets 0 and 1 form gang 0, which runs; planes 0 to 11 of both hold patterns. -/
def sGangOf (st : ShState) (G : GangSt) : State :=
  withArr sTok (fun a => { a with
    sheets := [(0, wSheet 0 st), (1, wSheet 1 st)], gangs := [(0, G)],
    planes := (List.range 12).map (fun j => (j, pat (0x2D3 * j + 5))) ++
      (List.range 12).map (fun j => (4096 + j, pat (0x1B7 * j + 9))) })
def wq (w : AWord) : QWord := { w := w, core := 0, part := 0 }
/-- The gang with word w at the head of its queue. -/
def sWord (w : AWord) : State := sGangOf .run { gangDflt with queue := [.word (wq w)] }
/-- A FIELD word (R90). -/
def fieldW (op a b d n : Nat) (sgn : Bool) (mm : Nat) (blot : Bool) (nsel : Nat) (edge : Bool) : AWord :=
  BitVec.ofNat 96 (2 * 2 ^ 92 + a * 2 ^ 80 + b * 2 ^ 68 + d * 2 ^ 56 + (n - 1) * 2 ^ 50 + op * 2 ^ 44 + b2n sgn * 2 ^ 43 +
    mm * 2 ^ 41 + b2n blot * 2 ^ 40 + nsel * 2 ^ 38 + b2n edge * 2 ^ 37)
/-- A BIT word (R56): the B source in bits 37-36, C in 33-32, A in 39-38, its neighbour in 35-34. -/
def bitW (a b d tt1 tt2 asel bsel nsel csel wen mm : Nat) (blot edge : Bool) : AWord :=
  BitVec.ofNat 96 (1 * 2 ^ 92 + a * 2 ^ 80 + b * 2 ^ 68 + d * 2 ^ 56 + tt1 * 2 ^ 48 + tt2 * 2 ^ 40 + asel * 2 ^ 38 +
    bsel * 2 ^ 36 + nsel * 2 ^ 34 + csel * 2 ^ 32 + wen * 2 ^ 28 + mm * 2 ^ 26 + b2n blot * 2 ^ 25 + b2n edge * 2 ^ 24)
/-- A MASK word (R101). -/
def maskW (op a : Nat) (inv : Bool) : AWord :=
  BitVec.ofNat 96 (6 * 2 ^ 92 + op * 2 ^ 88 + a * 2 ^ 76 + b2n inv * 2 ^ 75)
/-- A SYNC word (R103): its operation and the fields above bit 48; and a word that carries a tag. -/
def syncW (op hi : Nat) : AWord := BitVec.ofNat 96 (5 * 2 ^ 92 + op * 2 ^ 88 + hi * 2 ^ 56)
def tagW (cls op hi : Nat) (tag : W64) : AWord := BitVec.ofNat 96 (cls * 2 ^ 92 + op * 2 ^ 88 + hi * 2 ^ 64 + tag.toNat)
def lineW (op row base w len chan : Nat) : AWord :=
  BitVec.ofNat 96 (3 * 2 ^ 92 + op * 2 ^ 88 + row * 2 ^ 81 + base * 2 ^ 69 + (w - 1) * 2 ^ 64 + (len - 1) * 2 ^ 57 + chan * 2 ^ 46)
def withDom (s : State) (ix : Nat) (d : DomState) : State := { s with net := { s.net with dom := tset domDflt s.net.dom ix d } }
/-- Hub 0's reservoir holds slot 0 of channel c, an IN or OUT channel of two slots. -/
def sLine (c : Nat) (out : Bool) (wr rd : W32) (x : SheetSt → SheetSt) : State :=
  withCsr (withArr (sGangOf .run gangDflt) (fun a => { a with sheets := [(0, x (wSheet 0 .run)), (1, wSheet 1 .run)] }))
    [(R.LCH c, BitVec.ofNat 32 (2 ^ 31 + b2n out * 2 ^ 30 + 2 ^ 29)), (R.LCHNSLOT c, 2), (R.LCHWR c, wr), (R.LCHRD c, rd)]
def withNet (s : State) (f : NetSys → NetSys) : State := { s with net := f s.net }
/-- Header failures of mesh 2 in direction 2 at tile 7. -/
def sFails (n : Nat) : State := withNet base (fun x => { x with fails := [(failKey 0 7 2 2, n)] })
/-- Tile 7 isolated; its eastward link on mesh 2 FAILED, with no other route toward tile 8. -/
def sIsoTile : State := withCsr base [(R.NTILE 7, 0x80000000), (R.NLSTAT 7, 0x200), (R.NRTAB 7 0 2, 0x3A)]
/-- A route switch under way. -/
def sOldTable : State := withCsr base [(R.NEPOCH, 0x40000005)]
/-- Link k of hub 0 in state st, enabled, AUTOREP as said. -/
def sLink (k st : Nat) (autorep : Bool) (d : Depol) : State :=
  withNet (withCsr base [(R.DPLCTL k, BitVec.ofNat 32 (2 ^ 31 + b2n autorep * 2 ^ 26 + st * 2 ^ 23))])
    (fun x => { x with depol := [(k, d)] })
/-- Region ix in state d, registers l. -/
def sRegion (ix : Nat) (d : DomState) (l : List (Nat × W32)) : State := withDom (withCsr base l) ix d
/-- Before POR_N is released: supplies on, main memory and flash hold a byte each. -/
def sCells (s : State) : State := { s with mem := { s.mem with cells := [(0x1000, 7), (flashBase + 5, 9)] } }
/-- During WARM_N: channels 0 and 1 of hub 0 in self-refresh, others not populated. -/
def sWarm : State :=
  let s := withCsr base ((List.range 4).map (fun k => (R.MCCFG k, if k < 2 then 0xB0000000 else 0)))
  { s with pwr := { s.pwr with warmn := false } }
/-- Waiting for an image from the debugger. -/
def sWait (st : BootSt) (l : List (Nat × W32)) : State :=
  let s := withCsr base l
  { s with boot := { s.boot with st := [(0, st), (1, .failed)] } }
def withBytes (s : State) (a : Nat) (b : Bytes) : State :=
  { s with mem := { s.mem with cells := ((b.zipIdx).map (fun e => (a + e.2, e.1))).filter (fun e => e.2 ≠ 0) } }
def theKey : SealKey := { keyid := 3, d := 1, x := BitVec.ofNat 256 p256G.1, y := BitVec.ofNat 256 p256G.2 }
def theChain (p : Nat) : Chain := { chainDflt with state := .opened, ring := 0, part := p, rate := 5, cnt := 3, next := 4 }
/-- Ring 0 of 1 MiB enabled for partition 0, a key, chain 5 in state x, and the request l at G1. -/
def sChop (x : Chain) (l : Bytes) : State :=
  let s := withCsr (withBytes (withG [(1, 0x010000002000)]) (commonBase 0 + 0x2000) l)
    [(R.ERCTL 0, 0x80000100), (R.DRYRATE, 1000), (R.WETLIM, 0x40)]
  { s with evi := { s.evi with key := some theKey, chains := [(5, x)] } }
def theReq (k : ReqKind) (c len : Nat) : Req :=
  { kind := k, chain := c, body := [], pos := 7, aux := 0, foreign := false, adv := none, srcAddr := 0x010000002000,
    len := len, tok := none, n := 3, seq := 0, badsrc := false }
/-- Ring 0 of 1 MiB and the chain-state area enabled in common memory, chain 5 open, target 0 its target. -/
def sRing (f : EvidSys → EvidSys) : State :=
  let s := withCsr base [(R.ERCTL 0, 0x80010001), (R.ERBASELO 0, 0x100000), (R.ERBASEHI 0, 0x0100), (R.CSABASELO, 0x10000), (R.CSABASEHI, 0x0100), (R.WETLIM, 0x40),
    (R.DRYRATE, 1000), (R.SEGMAX 0, 64), (R.ERDRY 0, 0), (R.TGT 0, 0x80000010), (R.LBACNT 0, 0x10000),
    (R.SQBASELO 0, 0x3000), (R.SQBASEHI 0, 0x0100), (R.CQBASELO 0, 0x4000), (R.CQBASEHI 0, 0x0100)]
  { s with evi := f { s.evi with key := some theKey, chains := [(5, theChain 0)] } }
/-- A descriptor that the engine owns, for `len` bytes at `a` (R317). -/
def ringDesc (a len prio : Nat) : Bytes :=
  let b := natLe 6 a ++ zeros 2 ++ natLe 2 len ++ [1] ++ natLe 1 prio ++ zeros 19
  b ++ [crc8 b.reverse]
/-- Lane 3 of hub 0 up as a MAC, receive and transmit rings of 16 at 0x1000 and 0x1800 in main memory. -/
def sMac (len prio : Nat) (l : List (Nat × W32)) : State :=
  let s := withCsr base ([(R.MCCFG 0, 0xA0200000), (R.LCTL 3, 0x81000002), (R.RXBASELO 3, 0x1000), (R.RXSIZE 3, 0x80000010),
    (R.TXBASELO 3, 0x1800), (R.TXSIZE 3, 0x80000010)] ++ l)
  let cells := ((ringDesc 0x2000 len prio).zipIdx.map (fun e => (0x1000 + e.2, e.1))) ++
    ((ringDesc 0x2000 len prio).zipIdx.map (fun e => (0x1800 + e.2, e.1))) ++ [(0x2001, 7)]
  { s with mem := { s.mem with cells := cells.filter (fun e => e.2 ≠ 0) } }
/-- A frame of n bytes of EtherType ty and the words that follow it. -/
def frameOf (ty n : Nat) (w : List Nat) : Bytes :=
  let b := zeros 12 ++ natBe 2 ty ++ w.flatMap (natBe 2)
  b ++ zeros (n - b.length)
/-- Slot 2 of hub 0 rung by partition p with these 64 bytes. -/
def ringSlot (s : State) (p : Nat) (b : Bytes) : State :=
  let s := withCsr s ((List.range 16).map (fun k => (R.MBCMD 2 k, BitVec.ofNat 32 (leAt b (4 * k) 4))) ++ [(R.MBDB, 4)])
  { s with lan := { s.lan with bells := [(0, [⟨2, p, true⟩])] } }
/-- The most negative number, minus one, and a zero. -/
def sNum : State := withG [(1, 0x8000000000000000), (2, BitVec.allOnes 64), (3, 5)]

/-- Two decimal operands and CNT at 16. -/
def sDec : State := onCore { k0 with g := [(1, 0x9999999999999999), (2, 0x0000000000000001)], cnt := 16 }

/-- The state after core 0 stores eight bytes v at a. -/
def stored (s : State) (a v : W64) : State := match coreStoreV s 0 a 8 v with | .ok (g, _) => g | _ => s

def oldWord : W64 := BitVec.ofNat 64 (littleEndian sMem (commonBase 0 + 0x2000) 8)
def afterLock (s : State) (v : W64) : State := match lockStore s 0 0x010000002000 v with | .ok (g, _) => g | _ => s

def withZ (s : State) : State := updCore s 0 (fun d => { d with pstat := d.pstat ||| 2 })

/-- An addition of the largest number to itself; and others of the unit's operations. -/
def unitOp (major func : Nat) : FpOp :=
  { major := major, func := BitVec.ofNat 11 func, rd := 1, ra := 2, a := 0x7FEFFFFFFFFFFFFF, b := 0x7FEFFFFFFFFFFFFF, c := 0,
    pc := 0x010000000FFC }

def desc0 : Desc := (readDesc sTok 0 0).2.getD ⟨0, 0, 0, false, false, false⟩
def desc1 : Desc := (readDesc sTok 0 1).2.getD ⟨0, 0, 0, false, false, false⟩

def sCtx (v : W64) : State := sTokG [(1, v), (2, wTag 0 0 0 0)]
/-- The same with a cancel under way and a sweep, and entries and tokens of the context. -/
def sCancel (k : Option (BitVec 56)) : State :=
  withTok (sCtx 5) (fun t => { t with
    cancels := [theCancel k], sweeps := [(0, 5, false)],
    entries := [entryOf 0 0 .way [some 1, none, none, none], entryOf 0 1 .reserve [some 1, none, none, none]],
    aq := [(13, [mkTok (wTag 0 0 0 0) 1 0 (.core c0) 0])] })

def theTok : Tok := mkTok (wTag 0 0 0 0) 0x77 0 (.core c0) 0

def secondTok : Tok := wTok 0 0 1 9
def halfEntry (p : Place) : Entry := entryOf 0 0 p [some 1, none, none, none]

def rulTok : Tok := mkTok (wTag 0 0 0 0) 5 0 .ruling 0
/-- Marks on ruling 7, reached and not, one of a pair with ruling 8. -/
def someMarks : Tab (Option Mark) :=
  [(0, some (wMark 7 (streamPos 3 21) none)), (1, some (wMark 7 (streamPos 3 25) none)),
   (2, some (wMark 7 (streamPos 3 21) (some 3))), (3, some (wMark 8 (streamPos 3 21) (some 2))),
   (4, some (wMark 8 (streamPos 0 0) none))]

/-- Ruling 7 is core-advanced and core 0 holds l. -/
def withG7 (l : List (Nat × W64)) : State := updCore (sRuling 5 [] none) 0 (fun k => { k with g := l })

/-- Loss monitor 4 with its limits and three advances counted; watchdog 0 and the device watchdog running. -/
def sLoss (mn mx : W32) (once : Bool) (wd : Option Nat) : State :=
  withRul (withCsr sTok [(R.LMMIN 4, mn), (R.LMMAX 4, mx), (R.LMON 4, 0xC0000000), (R.WDLOAD 0, 77)]) (fun r => { r with
    lmDue := [(4, [3, 4])], wdOnce := if once then [(0, true)] else [], wdDue := [(0, wd), (32, some 5)].filter (fun e => e.2 ≠ none) })

/-- Gang 0 in state G; line channels 2 and 3 are enabled, IN and OUT. -/
def sStream (G : GangSt) : State := withCsr (sGangOf .run G) [(R.LCH 2, 0x80000000), (R.LCH 3, 0xC0000000)]
/-- The gang in a LOOP over the words `body`, three passes left. -/
def sLoop (body : List AWord) (lpos : Nat) (blot : Bool) : State :=
  sGangOf .run { gangDflt with queue := [.word (wq 0)], body := body.map wq, lpos := lpos, loops := [⟨0, body.length, 3⟩], blot := blot }

def gregs (l : List (Nat × W64)) (s : State) : State := updCore s 0 (fun k => { k with g := l })
/-- AGANG's operands: a shape and the list of sheets. -/
def sForm (gw gh : Nat) (l : List Nat) : State :=
  let s := gregs [(2, BitVec.ofNat 64 (gw + 32 * gh)), (3, 0x010000004000)] (sGangOf .run gangDflt)
  { s with mem := { s.mem with cells := cellsAt (commonBase 0 + 0x4000) (l.map (BitVec.ofNat 8)) } }

/-- Sheet 0 alone, in state st; and a change at the head of the queues of gangs 0 and 1. -/
def sOne (st : ShState) (G : GangSt) : State :=
  withArr sTok (fun a => { a with
    sheets := [(0, { wSheet 0 st with gw := 1, inQ := [], outQ := [] })], gangs := if G = gangDflt then [] else [(0, G)],
    planes := (List.range 5).map (fun j => (j, pat (j + 3))) ++ (List.range 5).map (fun j => (4096 + j, pat (j + 3))) })
def sChange (st : ShState) (c : GChange) : State :=
  withArr (sGangOf st { gangDflt with queue := [.change 7, .word (wq 0)] }) (fun a => { a with
    changes := [(7, some c)], nextChange := 8, gangs := a.gangs ++ [(1, { gangDflt with queue := [.change 7] })] })

def theBlot : BlotSt := { val := true, finder := 0x80000001, core := 0, toks := [wTok 0 0 0 5] }
def theRun : Run := ⟨5, 3, 4, 16, 3, 0⟩
/-- A run from line channel 3 whose slot holds bytes. -/
def sInRun : State :=
  let s := sLine 3 false 5 4 (fun x => { x with inQ := [theRun] })
  { s with mem := { s.mem with cells := (List.range 8).map (fun j => (rsvBase 0 + j, BitVec.ofNat 8 (j * 37 + 5))) } }

def depolOf (failed : List Nat) (errs : Tab W64) (fails : Nat) : Depol :=
  { dplDflt with failed := failed, errs := errs, fails := fails, lastSeq := 5 }

/-- The registers of s set one after the other, in the order of the table. -/
def inOrder (s : State) : State := { s with csr := s.csr.foldl (fun t e => tset (csrDflt s.part) t e.1 e.2) [] }

/-- A boot image of one block, signed with the key 1 and the nonce 1, as a number (byte 0 lowest). -/
def imageBits : Nat := 0xa80276cc3a2aa603111de69dea57a597cfc979997ce4b0a5a160e4decd6484e796c298d84539a1f4a033eb2d817d0377f240a463e5e6bcf847422ce1f2d1176b04030201f551bf376840b6cbce5e316b5733ce2b169e0f7c4aebe78e9b7f1afee242e34f96c298d84539a1f4a033eb2d817d0377f240a463e5e6bcf847422ce1f2d1176b0000000000000000000000000000000000000000000000000000000000000000000000000000000000000000000000000000000000000000000000044e465731
def keyHash : BitVec 256 := 0xd875db7def232236aec738c6b0bb3e80142f5d0fd8f4df24fed6eef5cbb50d9f
/-- The boot ROM of hub 0 waits for the debugger, which has placed b. -/
def sImage (b : Bytes) : State :=
  let s := sWait .waitImage [(R.BOOTSTAT, 0x50200000), (R.DBGCTL, 0x8), (R.TNEST 5, 0x80000000)]
  let cells := cellsAt (commonBase 0) b
  { s with mem := { s.mem with cells := cells }, boot := { s.boot with fuse := [(2, some keyHash)] } }

def powered (p : Power) : State :=
  { base with pwr := { base.pwr with power := p }, evi := { base.evi with ancState := [(0, 2)], ancW := [(0, 5)] } }

def theSeg (retried : Bool) : Segment := { ring := 0, target := 0, start := 0, stop := 4096, retried := retried, done := false }
def sSegs (l : List Segment) (recs : List RingRec) : State := sRing (fun e => { e with segs := [(0, l)], recs := [(0, recs)] })
/-- A seal key file where SKADDR points. -/
def sBlob (b : Bytes) : State :=
  withBytes (withCsr base [(R.SKADDRLO, 0x2000), (R.SKADDRHI, 0x0100)]) (commonBase 0 + 0x2000) b

def frameHead (b : Bytes) : BitVec 256 := BitVec.ofNat 256 (leNat (b.take 32))
/-- Mirroring is up and expects frame 5. -/
def sMirror : State :=
  withCsr (sRing (fun e => { e with mir := { e.mir with
    mirSeq := [(0, 5)], mirOut := [(0, [⟨7, [1, 2], 0, 5⟩, ⟨3, [1], 0, 0⟩, ⟨9, [], 1, 3⟩])] } }))
    [(R.MIRCTL, 0xA4000000), (R.MIRBASELO, 0x80000), (R.MIRBASEHI, 0x0100)]

/-- A byte in channels 0 and 1 and the gang of two sheets, with the registers l. -/
def sUpkeep (l : List (Nat × W32)) : State :=
  let s := withCsr (withMem (sGangOf .run gangDflt)) l
  { s with mem := { s.mem with cells := [(5, 1), (0x800000005, 7)] ++ s.mem.cells } }
def sJournal : State :=
  let s := sUpkeep [(R.JBASEHI, 0x0100), (R.JBASELO, 0x8000), (R.JCTL, 1)]
  { s with svc := { s.svc with jbuf := [(0, [natLe 32 0x1234])] } }

/-- Both ports are up; partition 2 owns channel 0's first half. -/
def sHost (l : List (Nat × W32)) : State :=
  let s := withCsr base ([(R.PCICFG, 0xE5101202), (R.PCISTAT, 0x2424), (R.MCCFG 0, 0xA0200000), (R.PCFG 1, 0xF), (R.PCFG 2, 0xE)] ++ l)
  { s with mem := { s.mem with cells := [(0x1003, 5), (0x1005, 6), (0x1020, 6)] } }

/-- A stream entry with its check byte: header fields at 40 on, frame and port masks, the ring and the ruling. -/
def entryBytes (b : Bytes) : Bytes :=
  b ++ [crc8 b.reverse]
def streamBody : Bytes := zeros 41 ++ [0, 4, 0] ++ natLe 2 0x7FF ++ natLe 2 0xFFFF ++ [0, 0] ++ natLe 2 0x8 ++ natLe 2 128 ++ zeros 9
def streamEntry : Bytes := entryBytes streamBody
def badEntry : Bytes := entryBytes (streamBody.set 40 9)
/-- Entry 5 of the first half in memory. -/
def sStreamTable (e : Bytes) : State :=
  let s := withCsr base [(R.MCCFG 0, 0xA0200000), (R.STBASELO 0, 0x1000), (R.STCTL 0, 3)]
  { s with mem := { s.mem with cells := cellsAt (0x1000 + 64 * 5) e } }

/-- Partition 0 owns no core, partition 3 exists. -/
def sUnowned : State := withCsr base [(R.PCORES 0, 0), (R.PCFG 0, 0x8000000F), (R.PCFG 3, 0x80000000)]
def coresOut (l : List Nat) (s : State) : State := l.foldl (fun s i => setCore s i { getCore s i with rstate := .out }) s
/-- The gang of two sheets with sheet 1 alone in state st. -/
def sSheet1 (st : ShState) : State := withArr (sGangOf .run gangDflt) (fun a => { a with sheets := [(1, wSheet 1 st)] })
/-- Hub 0 of a YQ8680 takes over; hub 1's links hold v. -/
def sTakeover (v : W32) : State :=
  let s := withCsr base ([(R.TKCTL, 0x02000000)] ++ (List.range 7).map (fun k => (0x4000000 + R.DPLCTL k, v)))
  { s with part := .yq8680 }

/-- Channel 0 serves, with a byte or two of memory written and chain 5 open. -/
def sLoadable (l : List (Nat × W32)) : State := withCsr (sChop (theChain 0) (natLe 64 0x0)) ([(R.MCCFG 0, 0xA0200000)] ++ l)
/-- Key, r and s as 128 bytes: signatures of the challenge 0x1234, this IDENT, the path and level 1. -/
def authHost : Nat := 0x8a013fa6c85578847c301ddd54e60fb5e9bc4beaf720698088df917e1246ce7a8a013fa6c85578847c301ddd54e60fb5e9bc4beaf720698088df917e1246ce7a80afa279d6bd03745869c30b0ed511763a223a39af5cd630bdf8fe815ed1bdf026a098616f14ca9df407a020ef017ccd4e5c7dcc3304d4fec53e4a105365622b
def authProbe : Nat := 0x1a8ff2706d4fa15cef61084676de624d2e9db29b413d8ba26661b6501562517f1a8ff2706d4fa15cef61084676de624d2e9db29b413d8ba26661b6501562517ff4d6e5f21de5616cdd7f085be4aea572679d75d0b0654f0da78bcf804fa8373842b4464445ac96f048644d42e2653d7f3387fc8263b49c74a637f4627b5f4c13
/-- The authentication buffer of path p signed for level 1, with the hash of its key fused. -/
def signedFor (s : State) (p : DbgPath) : State :=
  let b := natLe 128 (match p with | .host => authHost | .probe => authProbe)
  let buf := (List.range 16).map (fun k => (16 * pathIx 0 p + k, BitVec.ofNat 64 (leAt b (8 * k) 8)))
  { s with dbg := { s.dbg with chal := [(pathIx 0 p, some 0x1234)], buf := buf },
           boot := { s.boot with fuse := [(4, some (match p with | .host => 0xb19c2ab7428d013cc7b88898c4497d643b684f478489c43ad82bb7dba0e09b6b | .probe => 0x969ca00979b755c580ee7933b6d66d176a8d60c960f5fe07c20982cb38edf765))] } }

/-- A probe command with its check byte. -/
def probeFrame (op a d : Nat) : BitVec 128 :=
  let t := op * 2 ^ 116 + a * 2 ^ 64 + d
  BitVec.ofNat 128 (t * 256 + (crc8 (natBe 15 t)).toNat)
def sProbe (l : List (Nat × W32)) : State :=
  withCsr (withBytes (withG []) 0x2000 [1, 0, 3, 4, 5, 6, 7, 8, 9]) ([(R.MCCFG 0, 0xA0200000)] ++ l)

/-- Full debug access; core 0 as k makes it. -/
def sDebug (l : List (Nat × W32)) (k : Core → Core) : State :=
  updCore (withCsr (withG [(1, 5), (7, 0x1122334455667788)]) ([(R.DBGCTL, 8)] ++ l)) 0 k
/-- The state in which a stepped core 0 has fetched. -/
def stepFetch (s : State) (v : W32) : State :=
  let s1 := updCore (wrF s 0 (R.DCTL 0) 28 26 (fld v 28 26)) 0 (fun x => { x with stepReq := true, halted := false })
  match fetchAt (boundary s1 0) 0 (getCore s 0).pc with | .ok (f, _) => f | .error _ => s

def sGangDebug (st : ShState) (G : GangSt) : State :=
  withCsr (sGangOf st G) [(R.DBGCTL, 8), (R.DGINJ 0 0, 0xABC0), (R.DGINJ 0 1, 0x1234)]
/-- Margin port 3 and the trace port: the margin queue full or not, the port stalls, the pins on. -/
def sMargin (full stall pin : Bool) : State :=
  let s := withCsr base [(R.MPCFG 3, BitVec.ofNat 32 (2 ^ 31 + b2n stall * 2 ^ 30)),
    (R.MTCTL, BitVec.ofNat 32 (2 ^ 31 + b2n pin * 2 ^ 30)), (R.TPCTL, 0x80000000)]
  let q := if full then (List.range 33).map (BitVec.ofNat 128) else [BitVec.ofNat 128 (2 ^ 22 + 5)]
  { s with dbg := { s.dbg with marginQ := [(0, q)], lastMargin := [(0, stall)],
                               traceQ := [(0, if full then [] else [BitVec.ofNat 128 0x1F5, 7])] } }

def sFab (l : List (Nat × W32)) (f : FabricSys → FabricSys) : State :=
  let s := withCsr base ([(R.MCCFG 0, 0xA0200000), (R.NREG 4, 0x20000000), (R.FIMGLO, 0x4000)] ++ l)
  { s with fab := f s.fab }
/-- A load of the image at 0x4000 is under way. -/
def loadingFab (x : FabricSys) : FabricSys :=
  { x with loadImg := [(0, some (0x4000, none))], lineOff := [(64 * 3 + 5, true), (5, true)] }
def fabHeader (kind mask count : Nat) : Bytes :=
  natLe 4 0x4E464731 ++ natLe 1 kind ++ [0] ++ natLe 2 mask ++ natLe 4 count ++ zeros 52
def fabFrame (addr x : Nat) : Bytes :=
  let b := natLe 4 addr ++ (List.range 128).map (fun j => BitVec.ofNat 8 (j * x))
  b ++ natLe 4 (crc32c b).toNat

/-- Fabric port 1 open for partition 0, its master window over the first bytes of main memory. -/
def sPort (f : FabricSys → FabricSys) : State :=
  let s := withCsr (withBytes (withG [(1, 7), (2, 9)]) 0x2000 [1, 0, 3, 4, 5, 6, 7, 8, 9])
    [(R.MCCFG 0, 0xA0200000), (R.NREG 4, 0x20000000), (R.FPORT 1, 0x83000010), (R.FREG 3, 3), (R.MWLIMLO 1, 0xF000)]
  { s with fab := f s.fab }

/-- A microword that moves operand A to the destination and ends; a table entry names it. -/
def sMicro : State :=
  updCore (withG [(1, 7), (2, 9), (3, 0x55)]) 0 (fun k => { k with
    mode := true, dtab := [(11, dtabEntry (2 ^ 38 + 5))], wcs := [(5, wcsWord (BitVec.ofNat 128 (4 * 2 ^ 110 + 2 * 2 ^ 94 + 2 ^ 84)))],
    corg := 4, clen := 2 })
def tableWord : W32 := BitVec.ofNat 32 (0x39 * 2 ^ 26 + 4 * 2 ^ 21 + 3 * 2 ^ 16 + 3)
def theMicro : Micro := ⟨tableWord, 0x4005, [], false, false, false, false, [], none⟩
/-- A microcode image of type 1 with two words and an entry, signed with the secret key 1 and the nonce 1. -/
def theMcImage : Bytes := natLe 228 0xb2d42ec6b2a7801015c2fd7f0b8e670e40e7301885cb31c54012354d2305206f96c298d84539a1f4a033eb2d817d0377f240a463e5e6bcf847422ce1f2d1176b800040030000000000000000000000000123456700000000000000000000000000000000f551bf376840b6cbce5e316b5733ce2b169e0f7c4aebe78e9b7f1afee242e34f96c298d84539a1f4a033eb2d817d0377f240a463e5e6bcf847422ce1f2d1176b0000000000000000000000000000000000000000000000000000000000000000000000000000000000000000000000000001000000020000000700014e4d4331
/-- A load of image b for the cores of the mask is under way; key slot n holds its key. -/
def sMcLoad (slot : Nat) (mask : W32) (b : Bytes) : State :=
  let s := withCsr (withBytes base 0x4000 b) [(R.MCCFG 0, 0xA0200000), (R.MCSTART, 0x40000000)]
  let s := coresOut [1, 2] s
  { s with cpu := { s.cpu with mcLoad := [(0, some ⟨0x4000, mask, none⟩)] },
           boot := { s.boot with fuse := [(slot, some keyHash)] } }/-! ## Premises over every index, from finite checks -/

theorem begins_of {s f : State} {c : CoreId} {r w : List Nat} {b : Bool}
    (h : canStep s (coreIx c) = true ∧ hazard (getCore f (coreIx c)) ⟨r, w, b⟩ = false ∧
      (match fetchAt (boundary s (coreIx c)) (coreIx c) (getCore s (coreIx c)).pc with
        | .ok (g, _) => decide (g = f)
        | .error _ => false) = true) : Begins s f c r w b := by
  refine ⟨h.1, h.2.1, ?_⟩
  have h3 := h.2.2
  split at h3
  · exact ⟨_, by rw [← of_decide_eq_true h3]; assumption⟩
  · cases h3

theorem tget_forall_ix {α : Type} {P : Nat → α → Prop} {d : Nat → α} {t : Tab α} (ht : ∀ e ∈ t, P e.1 e.2)
    (hd : ∀ k, P k (d k)) : ∀ k, P k (tget d t k) := by
  induction t with
  | nil => exact hd
  | cons e t ih =>
    intro k
    simp only [tget]
    split
    · next h => exact h ▸ ht e (by simp)
    · exact ih (fun x hx => ht x (by simp [hx])) k

theorem tget_forall {α : Type} {P : α → Prop} {d : Nat → α} {t : Tab α} (ht : ∀ e ∈ t, P e.2) (hd : ∀ k, P (d k)) :
    ∀ k, P (tget d t k) := tget_forall_ix (P := fun _ => P) ht hd

theorem no_other_step {s : State} {i : Nat} (h : ∀ e ∈ s.cpu.cores, e.1 ≠ i → e.2.stepReq = false) :
    ∀ j, j ≠ i → (getCore s j).stepReq = false :=
  fun c => tget_forall_ix (P := fun j k => j ≠ i → Core.stepReq k = false) (d := fun _ => Core.reset) (t := s.cpu.cores) h
    (fun _ _ => rfl) c

theorem no_step {s : State} (h : ∀ e ∈ s.cpu.cores, e.2.stepReq = false) : ∀ c, (getCore s c).stepReq = false :=
  fun c => tget_forall (P := fun k : Core => k.stepReq = false) (d := fun _ => Core.reset) (t := s.cpu.cores) h (fun _ => rfl) c

theorem no_keep {s : State} (h : ∀ e ∈ s.boot.st, e.2 ≠ .waitKeep) : ∀ c, bootOf s c ≠ .waitKeep :=
  fun c => tget_forall (P := fun b : BootSt => b ≠ .waitKeep) (d := fun _ => BootSt.off) (t := s.boot.st) h (fun _ => by decide) c

theorem not_running {s : State} (h : ∀ e ∈ s.evi.stroke, e.2 ≠ .running) : ∀ c, strokeOf s c ≠ .running :=
  fun c => tget_forall (P := fun b : Stroke => b ≠ .running) (d := fun _ => Stroke.none) (t := s.evi.stroke) h (fun _ => by decide) c

theorem no_stroke {s : State} (h : ∀ e ∈ s.evi.stroke, e.2 = .none) : ∀ c, strokeOf s c = .none :=
  fun c => tget_forall (P := fun b : Stroke => b = .none) (d := fun _ => Stroke.none) (t := s.evi.stroke) h (fun _ => rfl) c

theorem finished_of {s : State} {h : Hub}
    (hd : ∀ j < 2, j ≠ h.val → hubInService s j = true → strokeOf s j = .finished) :
    ∀ j, j ≠ h.val → hubInService s j = true → strokeOf s j = .finished := by
  intro j hj hs
  refine hd j ?_ hj hs
  have h1 : j < partHubs s.part := by
    simp only [hubInService, hubOk, Bool.and_eq_true, decide_eq_true_eq] at hs
    exact hs.1
  cases hp : s.part <;> simp [hp, partHubs] at h1 <;> omega

theorem no_mate {s : State} {h k : Nat}
    (hd : ∀ e ∈ s.rul.marks, (match e.2 with | some n => decide (n.mate ≠ some k) | none => true) = true) :
    ∀ j n, getMark s h j = some n → n.mate ≠ some k := by
  intro j n hj
  have := tget_forall (P := fun e : Option Mark => (match e with | some n => decide (n.mate ≠ some k) | none => true) = true)
    (d := fun _ => none) hd (fun _ => rfl) (markKey h j)
  simp only [getMark] at hj
  rw [hj] at this
  exact of_decide_eq_true this

theorem ok_of {ε α : Type} [DecidableEq α] {e : Except ε α} {a : α}
    (h : (match e with | .ok b => decide (b = a) | .error _ => false) = true) : e = .ok a := by
  split at h
  · exact congrArg _ (of_decide_eq_true h)
  · cases h

/-- Which context is taken is left open; that one is taken is not. -/
theorem free_of {s : State} {h : Nat}
    (hd : (List.range 4096).filter (fun c => (getCtx s h c).state == .free && (getCtx s h c).freed == 0) ≠ []) :
    freeCtx s h = ((freeCtx s h).1, some ((freeCtx s h).2.getD 0)) := by
  generalize hl : (List.range 4096).filter (fun c => (getCtx s h c).state == .free && (getCtx s h c).freed == 0) = l at hd
  have hp : 0 < l.length := List.length_pos_iff.2 hd
  have e : freeCtx s h = pick s l := by
    unfold freeCtx
    simp only [hl]
    cases l with
    | nil => exact absurd rfl hd
    | cons a l => rfl
  rw [e]
  simp [pick, List.getElem?_eq_getElem (Nat.mod_lt _ hp)]

theorem no_word {P : Nat → Prop} (h : ∀ w < 256, ¬ P w) : ∀ w, ¬ (w < 256 ∧ P w) := fun w hw => h w hw.1 hw.2

theorem no_packet {s : State} {h : Hub} {n : Fin 16} {f : Bytes}
    (hd : (match parse f with | some p => decide (matchStream s h n p = none) | none => true) = true) :
    ∀ p, parse f = some p → matchStream s h n p = none := by
  intro p hp
  rw [hp] at hd
  exact of_decide_eq_true hd

theorem not_csr {h a : Nat} (hd : (match region h a with | .csr _ _ => false | _ => true) = true) :
    ∀ u w, region h a ≠ .csr u w := by
  intro u w e
  rw [e] at hd
  cases hd

theorem slot_bits {b : Bytes} {w l : Nat} {p : Nat → Bool} (h : leNat b < 2 ^ 64 ∧ w * l = 64 ∧ 0 < w ∧
    ∀ n < 64, (leNat b).testBit n = (decide (n / w < l) && p n)) :
    ∀ n < 4096, (leNat b).testBit n = (decide (n / w < l) && p n) := by
  intro n _
  by_cases h64 : n < 64
  · exact h.2.2.2 n h64
  · have h1 : ¬ n / w < l := by
      rw [Nat.div_lt_iff_lt_mul h.2.2.1, Nat.mul_comm, h.2.1]; exact h64
    rw [Nat.testBit_lt_two_pow (Nat.lt_of_lt_of_le h.1 (Nat.pow_le_pow_right (by decide) (by omega)))]
    simp [h1]

/-! ## Witnesses

One theorem for each obligation with hypotheses: for its clauses, states and operands that meet the hypotheses together.
The statements themselves follow the clauses' own binders and definitions. -/

/-- Hypotheses of SumsAndDifferences. -/
theorem test_witness_SumsAndDifferences :
    let s : State := sNum
    let f : State := s
    let c : CoreId := c0
    let sf : Bool := false
    let rd : Reg := 3
    let ra : Reg := 1
    let rb : Reg := 2
    Begins s f c [ra, rb] [rd] sf ∧ Begins s f c [ra, rb] [rd] true ∧ Begins s f c [ra, rb] [] true ∧
      Begins s f c [ra] [rd] false ∧ Begins s f c [ra] [rd] true ∧ Begins s f c [ra] [] true :=
  ⟨begins_of (by decide +kernel), begins_of (by decide +kernel), begins_of (by decide +kernel),
   begins_of (by decide +kernel), begins_of (by decide +kernel), begins_of (by decide +kernel)⟩

/-- Hypotheses of BitwiseAndOrderResults. -/
theorem test_witness_BitwiseAndOrderResults :
    (let s : State := sNum
     let f : State := s
     let c : CoreId := c0
     let sf : Bool := true
     let rd : Reg := 3
     let ra : Reg := 1
     let rb : Reg := 2
     Begins s f c [ra, rb] [rd] sf ∧ Begins s f c [ra] [rd] false) ∧
    (let s : State := sNum
     let f : State := s
     let c : CoreId := c0
     let rd : Reg := 3
     let ra : Reg := 1
     let rb : Reg := 2
     Begins s f c [ra, rb] [rd] false ∧ Begins s f c [ra] [rd] false) :=
  ⟨⟨begins_of (by decide +kernel), begins_of (by decide +kernel)⟩,
   ⟨begins_of (by decide +kernel), begins_of (by decide +kernel)⟩⟩

/-- Hypotheses of ShiftAndBitResults. -/
theorem test_witness_ShiftAndBitResults :
    let s : State := sNum
    let f : State := s
    let c : CoreId := c0
    let rd : Reg := 3
    let ra : Reg := 1
    let rb : Reg := 2
    Begins s f c [ra, rb] [rd] false ∧ Begins s f c [ra] [rd] false :=
  ⟨begins_of (by decide +kernel), begins_of (by decide +kernel)⟩

/-- Hypotheses of ProductsAndQuotients. -/
theorem test_witness_ProductsAndQuotients :
    (let s : State := sNum
     let f : State := s
     let c : CoreId := c0
     let rd : Reg := 3
     let ra : Reg := 1
     let rb : Reg := 2
     let k := getCore f (coreIx c)
     let a := k.gr ra
     let b := k.gr rb
     (a.toInt = -2 ^ 63 ∧ b.toInt = -1) ∧ Begins s f c [ra, rb] [rd] false ∧ Begins s f c [ra, rb] [rd] true) ∧
    (let s : State := sNum
     let f : State := s
     let c : CoreId := c0
     let rd : Reg := 3
     let ra : Reg := 1
     let rb : Reg := 4
     let k := getCore f (coreIx c)
     let b := k.gr rb
     let p := k.pstat
     (b = 0 ∧ p.getLsbD 8 = false) ∧ Begins s f c [ra, rb] [rd] true) ∧
    (let s : State := sNum
     let f : State := s
     let c : CoreId := c0
     let rd : Reg := 3
     let ra : Reg := 1
     let rb : Reg := 1
     let k := getCore f (coreIx c)
     let a := k.gr ra
     let b := k.gr rb
     (b ≠ 0 ∧ ¬ (a.toInt = -2 ^ 63 ∧ b.toInt = -1)) ∧ Begins s f c [ra, rb] [rd] true) :=
  ⟨⟨by decide +kernel, begins_of (by decide +kernel), begins_of (by decide +kernel)⟩,
   ⟨by decide +kernel, begins_of (by decide +kernel)⟩,
   ⟨by decide +kernel, begins_of (by decide +kernel)⟩⟩

/-- Hypotheses of DecimalResults. -/
theorem test_witness_DecimalResults :
    (let s : State := sDec
     let f : State := s
     let c : CoreId := c0
     let rd : Reg := 3
     let ra : Reg := 1
     let rb : Reg := 2
     let k := getCore f (coreIx c)
     let a := k.gr ra
     let b := k.gr rb
     allDigits a ∧ allDigits b ∧ Begins s f c [ra, rb] [rd] true ∧ Begins s f c [ra, rb] [] true ∧
       Begins s f c [ra] [rd] true ∧ Begins s f c [ra, rb] [rd] false) ∧
    (let s : State := sDec
     let f : State := s
     let c : CoreId := c0
     let rd : Reg := 3
     let ra : Reg := 1
     let i := coreIx c
     let k := getCore f i
     let a := k.gr ra
     (eventDue k = false ∧ haltDue f i = false ∧ k.stepReq = false ∧ rd ≠ ra ∧ rd ≠ 0 ∧ ra ≠ 0 ∧ k.gr rd = 0 ∧
       k.cnt = 16) ∧ Begins s f c [rd, ra] [rd, ra] false ∧ allDigits a) :=
  ⟨⟨by unfold allDigits; decide +kernel, by unfold allDigits; decide +kernel, begins_of (by decide +kernel),
    begins_of (by decide +kernel), begins_of (by decide +kernel), begins_of (by decide +kernel)⟩,
   ⟨by decide +kernel, begins_of (by decide +kernel), by unfold allDigits; decide +kernel⟩⟩

/-- Hypotheses of BranchTargets. -/
theorem test_witness_BranchTargets :
    (let s : State := withG [(1, 0x010000002000)]
     let f : State := s
     let c : CoreId := c0
     let rd : Reg := 31
     let ra : Reg := 1
     let cond : BitVec 4 := 0
     let i := coreIx c
     let k := getCore f i
     ((branchConds k.pstat).getD cond.toNat false = false ∧ (k.gr ra).toNat % 4 = 0) ∧ Begins s f c [] [] false ∧
       Begins s f c [] [31] false ∧ Begins s f c [] [] (decide (cond.toNat < 14)) ∧ Begins s f c [ra] [] false ∧
       Begins s f c [ra] [rd] false) ∧
    (let s : State := withG [(1, 0x010000002000)]
     let f : State := s
     let c : CoreId := c0
     let cond : BitVec 4 := 1
     let i := coreIx c
     let k := getCore f i
     (branchConds k.pstat).getD cond.toNat false = true ∧ Begins s f c [] [] (decide (cond.toNat < 14))) :=
  ⟨⟨by decide +kernel, begins_of (by decide +kernel), begins_of (by decide +kernel),
    begins_of (by decide +kernel), begins_of (by decide +kernel), begins_of (by decide +kernel)⟩,
   ⟨by decide +kernel, begins_of (by decide +kernel)⟩⟩

/-- Hypotheses of LoadResults. -/
theorem test_witness_LoadResults :
    (let s : State := sMem
     let f : State := s
     let g : State := s
     let c : CoreId := c0
     let sz : BitVec 2 := 3
     let sx : Bool := false
     let u : Bool := true
     let off : BitVec 12 := 1
     let rd : Reg := 4
     let ra : Reg := 1
     let v : W64 := BitVec.ofNat 64 (littleEndian s (commonBase 0 + 0x2008) 8)
     let i := coreIx c
     let k := getCore f i
     let n := 2 ^ sz.toNat
     let ea := k.gr ra + off.signExtend 64 * BitVec.ofNat 64 n
     (¬ (sx = true ∧ sz = 3) ∧ ¬ (u = true ∧ rd = ra) ∧ sz ≠ 0) ∧ Begins s f c [ra] (if u then [rd.val,
       ra.val] else [rd.val]) false ∧ coreLoadV f i ea n (portFin false sx false rd u ra ea) = .ok (g, v) ∧
       BeginsFp s f c [ra] [] false ∧ coreLoadV f i ea n (portFin false false true rd false ra ea) = .ok (g, v)) ∧
    (let s : State := sMem
     let f : State := s
     let g : State := s
     let c : CoreId := c0
     let sz : BitVec 2 := 3
     let sx : Bool := false
     let rd : Reg := 4
     let ra : Reg := 1
     let rb : Reg := 5
     let v : W64 := BitVec.ofNat 64 (littleEndian s (commonBase 0 + 0x2000) 8)
     let i := coreIx c
     let k := getCore f i
     let n := 2 ^ sz.toNat
     let ex := k.gr ra + k.gr rb * BitVec.ofNat 64 n
     (¬ (sx = true ∧ sz = 3)) ∧ Begins s f c [ra, rb] [rd] false ∧
       coreLoadV f i ex n (portFin false sx false rd false ra ex) = .ok (g, v)) :=
  ⟨⟨by decide +kernel, begins_of (by decide +kernel), ok_of (by decide +kernel),
    ⟨begins_of (by decide +kernel), by decide +kernel⟩, ok_of (by decide +kernel)⟩,
   ⟨by decide +kernel, begins_of (by decide +kernel), ok_of (by decide +kernel)⟩⟩

/-- Hypotheses of StoreResults. -/
theorem test_witness_StoreResults :
    (let s : State := sMem
     let f : State := s
     let g : State := stored s ((getCore s 0).gr 1 + 8) ((getCore s 0).gr 3)
     let c : CoreId := c0
     let sz : BitVec 2 := 3
     let u : Bool := true
     let off : BitVec 12 := 1
     let rd : Reg := 3
     let ra : Reg := 1
     let i := coreIx c
     let k := getCore f i
     let n := 2 ^ sz.toNat
     let ea := k.gr ra + off.signExtend 64 * BitVec.ofNat 64 n
     Begins s f c [rd, ra] (if u then [ra.val] else []) false ∧ coreStoreV f i ea n (k.gr rd) = .ok (g, ())) ∧
    (let s : State := sMem
     let f : State := s
     let g : State := stored s ((getCore s 0).gr 1) ((getCore s 0).gr 3)
     let c : CoreId := c0
     let sz : BitVec 2 := 3
     let rd : Reg := 3
     let ra : Reg := 1
     let rb : Reg := 5
     let i := coreIx c
     let k := getCore f i
     let n := 2 ^ sz.toNat
     let ex := k.gr ra + k.gr rb * BitVec.ofNat 64 n
     Begins s f c [rd, ra, rb] [] false ∧ coreStoreV f i ex n (k.gr rd) = .ok (g, ())) ∧
    (let s : State := sMem
     let f : State := s
     let g : State := stored s ((getCore s 0).gr 1 + 8) ((getCore s 0).fr 3)
     let c : CoreId := c0
     let sz : BitVec 2 := 3
     let off : BitVec 12 := 1
     let rd : Reg := 3
     let ra : Reg := 1
     let i := coreIx c
     let k := getCore f i
     let n := 2 ^ sz.toNat
     let ea := k.gr ra + off.signExtend 64 * BitVec.ofNat 64 n
     sz ≠ 0 ∧ BeginsFp s f c [ra] [] false ∧ coreStoreV f i ea n (k.fr rd) = .ok (g, ())) :=
  ⟨⟨begins_of (by decide +kernel), ok_of (by decide +kernel)⟩,
   ⟨begins_of (by decide +kernel), ok_of (by decide +kernel)⟩,
   ⟨by decide +kernel, ⟨begins_of (by decide +kernel), by decide +kernel⟩, ok_of (by decide +kernel)⟩⟩

/-- Hypotheses of CommonMemoryAccess. -/
theorem test_witness_CommonMemoryAccess :
    let f : State := sMem
    let i : Nat := 0
    let ea : W64 := 0x010000002008
    let n : Nat := 8
    n ∈ [1, 2, 4, 8] ∧ CommonAccess f i ea n 1 ∧ CommonAccess f i ea n 2 :=
  ⟨by decide +kernel,
   ⟨by decide +kernel, by decide +kernel, by decide +kernel, by decide +kernel, ⟨0, by decide +kernel⟩, by decide +kernel, by decide +kernel⟩,
   ⟨by decide +kernel, by decide +kernel, by decide +kernel, by decide +kernel, ⟨0, by decide +kernel⟩, by decide +kernel, by decide +kernel⟩⟩

/-- Hypotheses of MisalignmentAndOperandTraps. -/
theorem test_witness_MisalignmentAndOperandTraps :
    (let i : Nat := 0
     let ea : W64 := 0x010000002007
     let n : Nat := 8
     n ∈ [1, 2, 4, 8] ∧ (ea.toNat % n ≠ 0 ∨ (n < 4 ∧ ∃ h off, region (i / 32) ea.toNat = .csr h off))) ∧
    (let s : State := withPs (withG [(1, 3)]) 0x100
     let f : State := s
     let c : CoreId := c0
     let rd : Reg := 4
     let ra : Reg := 1
     let rb : Reg := 2
     let i := coreIx c
     let k := getCore f i
     ((getCore s i).fpu = none ∧ k.gr rb = 0 ∧ k.pstat.getLsbD 8 = true ∧ (k.gr ra).toNat % 4 ≠ 0) ∧ TrapReady f i ∧
       Begins s f c [ra, rb] [rd] true ∧ Begins s f c [ra] [] false ∧ Begins s f c [ra] [rd] false) :=
  ⟨⟨by decide +kernel, .inl (by decide +kernel)⟩,
   ⟨by decide +kernel, by unfold TrapReady; decide +kernel, begins_of (by decide +kernel),
    begins_of (by decide +kernel), begins_of (by decide +kernel)⟩⟩

/-- Hypotheses of LockedResults. -/
theorem test_witness_LockedResults :
    (let s : State := sMem
     let f : State := s
     let g : State := s
     let u : State := s
     let c : CoreId := c0
     let rd : Reg := 2
     let ra : Reg := 1
     let rb : Reg := 3
     let old : W64 := oldWord
     let w : State := afterLock s (old + 7)
     let i := coreIx c
     let k := getCore f i
     let a := k.gr ra
     let held : Prop := (getCore g i).lladdr.getLsbD 0 = true ∧ (getCore g i).lladdr.toNat / 64 = a.toNat / 64
     (¬ held ∧ old ≠ k.gr rd) ∧ Begins s f c [ra] [rd] false ∧ lockCheck f i a false = .ok (g, ()) ∧
       loadAt g i a.toNat 8 none = .ok (u, old) ∧ Begins s f c [ra, rb] [rd] false ∧ lockCheck f i a true = .ok (g,
       ()) ∧ Begins s f c [rd, ra, rb] [rd] false ∧ lockStore u i a.toNat (old + k.gr rb) = .ok (w, ()) ∧
       Begins s f c [rd, ra, rb] [rd] true) ∧
    (let s : State := sHeld
     let f : State := s
     let g : State := s
     let u : State := s
     let c : CoreId := c0
     let rd : Reg := 2
     let ra : Reg := 1
     let rb : Reg := 3
     let old : W64 := oldWord
     let w : State := afterLock s 7
     let i := coreIx c
     let k := getCore f i
     let a := k.gr ra
     let held : Prop := (getCore g i).lladdr.getLsbD 0 = true ∧ (getCore g i).lladdr.toNat / 64 = a.toNat / 64
     held ∧ Begins s f c [ra, rb] [rd] false ∧ lockCheck f i a false = .ok (g, ()) ∧
       lockStore g i a.toNat (k.gr rb) = .ok (w, ()) ∧ lockCheck f i a true = .ok (g, ()) ∧
       loadAt g i a.toNat 8 none = .ok (u, old) ∧ Begins s f c [rd, ra, rb] [rd] false ∧
       lockStore u i a.toNat (k.gr rb) = .ok (w, ())) ∧
    (let s : State := updCore sMem 0 (fun k => { k with g := [(1, 0x010000002000), (2, oldWord), (3, 7)] })
     let f : State := s
     let g : State := s
     let u : State := s
     let w : State := afterLock s 7
     let c : CoreId := c0
     let rd : Reg := 2
     let ra : Reg := 1
     let rb : Reg := 3
     let old : W64 := oldWord
     let i := coreIx c
     let k := getCore f i
     let a := k.gr ra
     old = k.gr rd ∧ lockCheck f i a true = .ok (g, ()) ∧ loadAt g i a.toNat 8 none = .ok (u, old) ∧ Begins s f c [rd,
       ra, rb] [rd] true ∧ lockStore u i a.toNat (k.gr rb) = .ok (w, ())) :=
  ⟨⟨by decide +kernel, begins_of (by decide +kernel), ok_of (by decide +kernel), ok_of (by decide +kernel),
    begins_of (by decide +kernel), ok_of (by decide +kernel), begins_of (by decide +kernel),
    ok_of (by decide +kernel), begins_of (by decide +kernel)⟩,
   ⟨by decide +kernel, begins_of (by decide +kernel), ok_of (by decide +kernel), ok_of (by decide +kernel),
    ok_of (by decide +kernel), ok_of (by decide +kernel), begins_of (by decide +kernel),
    ok_of (by decide +kernel)⟩,
   ⟨by decide +kernel, ok_of (by decide +kernel), ok_of (by decide +kernel), begins_of (by decide +kernel),
    ok_of (by decide +kernel)⟩⟩

/-- Hypotheses of BlockElementsAndPrefixes. -/
theorem test_witness_BlockElementsAndPrefixes :
    (let s : State := sBlock
     let f : State := s
     let g1 : State := s
     let g2 : State := g1
     let g3 : State := g1
     let c : CoreId := c0
     let sz : BitVec 2 := 3
     let rd : Reg := 1
     let ra : Reg := 2
     let x : W64 := BitVec.ofNat 64 (littleEndian s (commonBase 0 + 0x2008) 8)
     let g : State := stored s ((getCore s 0).gr 1) x
     let i := coreIx c
     let k := getCore f i
     let n := 2 ^ sz.toNat
     (rd ≠ ra ∧ k.cnt = 1 ∧ (getCore g i).ports = [] ∧ (k.gr rd).toNat % n = 0 ∧ (k.gr ra).toNat % n = 0) ∧
       Begins s f c [rd, ra] [rd, ra] false ∧ dataCheck f i (k.gr ra) n 1 2 = .ok (g1, ()) ∧
       dataCheck g1 i (k.gr rd) n 2 3 = .ok (g2, ()) ∧ loadAt g2 i (k.gr ra).toNat n none = .ok (g3, x) ∧
       storeAt g3 i (k.gr rd).toNat n x = .ok (g, ())) ∧
    (let s : State := sBlock
     let f : State := s
     let c : CoreId := c0
     let sz : BitVec 2 := 3
     let rd : Reg := 1
     let ra : Reg := 2
     let g : State := stored s ((getCore s 0).gr 1) ((getCore s 0).gr 2)
     let i := coreIx c
     let k := getCore f i
     let n := 2 ^ sz.toNat
     (rd ≠ ra ∧ k.cnt = 1 ∧ (getCore g i).ports = [] ∧ (k.gr rd).toNat % n = 0) ∧ Begins s f c [rd, ra] [rd] false ∧
       coreStoreV f i (k.gr rd) n (k.gr ra) = .ok (g, ())) ∧
    (let s : State := sBlock
     let f : State := s
     let g1 : State := withZ s
     let g2 : State := g1
     let g3 : State := g1
     let c : CoreId := c0
     let sz : BitVec 2 := 3
     let rd : Reg := 1
     let ra : Reg := 2
     let x : W64 := oldWord
     let g : State := withZ s
     let y : W64 := BitVec.ofNat 64 (littleEndian s (commonBase 0 + 0x2008) 8)
     let i := coreIx c
     let k := getCore f i
     let n := 2 ^ sz.toNat
     let f' := updCore f i (fun d => { d with pstat := d.pstat ||| 2 })
     (rd ≠ ra ∧ k.cnt = 1 ∧ (getCore g i).ports = [] ∧ (k.gr rd).toNat % n = 0 ∧
       f' = updCore f i (fun d => { d with pstat := d.pstat ||| 2 }) ∧ (k.gr ra).toNat % n = 0 ∧ x ≠ y) ∧
       Begins s f c [rd, ra] [rd, ra] true ∧ dataCheck f' i (k.gr rd) n 1 2 = .ok (g1, ()) ∧
       dataCheck g1 i (k.gr ra) n 1 2 = .ok (g2, ()) ∧ loadAt g2 i (k.gr rd).toNat n none = .ok (g3, x) ∧
       loadAt g3 i (k.gr ra).toNat n none = .ok (g, y)) ∧
    (let s : State := updCore sBlock 0 (fun k => { k with g := [(1, 0x010000003000), (2, 0x010000003008)] })
     let f : State := s
     let g1 : State := withZ s
     let g2 : State := g1
     let g3 : State := g1
     let c : CoreId := c0
     let sz : BitVec 2 := 3
     let rd : Reg := 1
     let ra : Reg := 2
     let x : W64 := 0
     let g : State := withZ s
     let y : W64 := 0
     let i := coreIx c
     let k := getCore f i
     let n := 2 ^ sz.toNat
     let f' := updCore f i (fun d => { d with pstat := d.pstat ||| 2 })
     (rd ≠ ra ∧ k.cnt = 1 ∧ (getCore g i).ports = [] ∧ (k.gr rd).toNat % n = 0 ∧
       f' = updCore f i (fun d => { d with pstat := d.pstat ||| 2 }) ∧ (k.gr ra).toNat % n = 0 ∧ x = y) ∧
       Begins s f c [rd, ra] [rd, ra] true ∧ dataCheck f' i (k.gr rd) n 1 2 = .ok (g1, ()) ∧
       dataCheck g1 i (k.gr ra) n 1 2 = .ok (g2, ()) ∧ loadAt g2 i (k.gr rd).toNat n none = .ok (g3, x) ∧
       loadAt g3 i (k.gr ra).toNat n none = .ok (g, y)) ∧
    (let s : State := sPrefix 0 3 0
     let f : State := s
     let c : CoreId := c0
     let rd : Reg := 1
     let rb : Reg := 2
     let w0 : W32 := 0x08211000
     let i := coreIx c
     let k := getCore f i
     (k.fpu = none ∧ rd ≠ 0 ∧ rd ≠ rb ∧ eventDue k = false ∧ haltDue f i = false ∧ k.stepReq = false ∧ k.ports = [] ∧
       k.micro = none ∧ k.cnt = 0) ∧ Begins s f c [] [] false ∧ fetchAt f i (k.pc + 4) = .ok (f, w0)) ∧
    (let s : State := sPrefix 0 3 4
     let f : State := s
     let c : CoreId := c0
     let rd : Reg := 1
     let rb : Reg := 2
     let w0 : W32 := 0x08211000
     let i := coreIx c
     let k := getCore f i
     let sum := k.gr rd + k.gr rb
     (k.fpu = none ∧ rd ≠ 0 ∧ rd ≠ rb ∧ eventDue k = false ∧ haltDue f i = false ∧ k.stepReq = false ∧ k.ports = [] ∧
       k.micro = none ∧ k.cnt ≠ 0 ∧ sum ≠ 0) ∧ Begins s f c [] [] false ∧ fetchAt f i (k.pc + 4) = .ok (f, w0)) ∧
    (let s : State := sPrefix 1 (-5) 4
     let f : State := s
     let c : CoreId := c0
     let rd : Reg := 1
     let rb : Reg := 2
     let w0 : W32 := 0x08211400
     let i := coreIx c
     let k := getCore f i
     let sum := k.gr rd + k.gr rb
     (k.fpu = none ∧ rd ≠ 0 ∧ rd ≠ rb ∧ eventDue k = false ∧ haltDue f i = false ∧ k.stepReq = false ∧ k.ports = [] ∧
       k.micro = none ∧ k.cnt ≠ 0 ∧ sum = 0) ∧ Begins s f c [] [] false ∧ fetchAt f i (k.pc + 4) = .ok (f, w0)) :=
  ⟨⟨by decide +kernel, begins_of (by decide +kernel), ok_of (by decide +kernel), ok_of (by decide +kernel),
    ok_of (by decide +kernel), ok_of (by decide +kernel)⟩,
   ⟨by decide +kernel, begins_of (by decide +kernel), ok_of (by decide +kernel)⟩,
   ⟨by decide +kernel, begins_of (by decide +kernel), ok_of (by decide +kernel), ok_of (by decide +kernel),
    ok_of (by decide +kernel), ok_of (by decide +kernel)⟩,
   ⟨by decide +kernel, begins_of (by decide +kernel), ok_of (by decide +kernel), ok_of (by decide +kernel),
    ok_of (by decide +kernel), ok_of (by decide +kernel)⟩,
   ⟨by decide +kernel, begins_of (by decide +kernel), ok_of (by decide +kernel)⟩,
   ⟨by decide +kernel, begins_of (by decide +kernel), ok_of (by decide +kernel)⟩,
   ⟨by decide +kernel, begins_of (by decide +kernel), ok_of (by decide +kernel)⟩⟩

/-- Hypotheses of SystemInstructions. -/
theorem test_witness_SystemInstructions :
    let s : State := sSpr
    let f : State := s
    let c : CoreId := c0
    let rd : Reg := 2
    let ra : Reg := 1
    let spr : BitVec 8 := 1
    let n := spr.toNat
    (n ≤ 0x0C ∧ (1 ≤ n ∧ n ≤ 4) ∨ (7 ≤ n ∧ n ≤ 9)) ∧ Begins s f c [] [] false ∧ BeginsFp s f c [] [] false ∧
      BeginsFp s f c [] [rd] (n == 1) ∧ BeginsFp s f c [ra] [] (n == 1) :=
  ⟨by decide +kernel, begins_of (by decide +kernel), ⟨begins_of (by decide +kernel), by decide +kernel⟩,
   ⟨begins_of (by decide +kernel), by decide +kernel⟩, ⟨begins_of (by decide +kernel), by decide +kernel⟩⟩

/-- Hypotheses of TrapEntriesAndReturns. -/
theorem test_witness_TrapEntriesAndReturns :
    (let s : State := base
     let f : State := s
     let c : CoreId := c0
     let w : W32 := 0x1C000000
     let i := coreIx c
     let major := w.toNat / 2 ^ 26
     ((getCore s i).fpu = none ∧ rdB f c.hub R.DBGCTL 31 = false ∧ (major = 0x07 ∨ (0x1A ≤ major ∧ major ≤ 0x37))) ∧
       Begins s f c [] [] false ∧ TrapReady f i) ∧
    (let s : State := base
     let f : State := s
     let c : CoreId := c0
     let w : W32 := 0xE0000000
     let i := coreIx c
     let k := getCore f i
     let major := w.toNat / 2 ^ 26
     ((getCore s i).fpu = none ∧ 0x38 ≤ major ∧ (getCore s i).micro = none ∧ k.mode = false) ∧
       Begins s f c [] [] false ∧ TrapReady f i) ∧
    (let s : State := base
     let f : State := s
     let c : CoreId := c0
     let w : W32 := 0x0FFFFFFF
     let i := coreIx c
     ((getCore s i).fpu = none ∧ (decodeOp w).ill = true) ∧ Begins s f c [] [] false ∧ TrapReady f i) ∧
    (let s : State := sSpr
     let f : State := s
     let c : CoreId := c0
     let i := coreIx c
     let k := getCore f i
     k.pstat.getLsbD 13 = false ∧ BeginsFp s f c [] [] true ∧ TrapReady f i) ∧
    (let s : State := sHandler
     let f : State := s
     let c : CoreId := c0
     let i := coreIx c
     let k := getCore f i
     (k.pstat.getLsbD 13 = true ∧ k.trapc.getLsbD 9 = false) ∧ BeginsFp s f c [] [] true) ∧
    (let s : State := sNested
     let f : State := s
     let c : CoreId := c0
     let i := coreIx c
     let k := getCore f i
     let e := (7 : W64)
     let t' := (8 : W64)
     let v := (9 : W64)
     (k.pstat.getLsbD 13 = true ∧ k.trapc.getLsbD 9 = true ∧ k.shadow = some (e, t', v)) ∧ BeginsFp s f c [] [] true) :=
  ⟨⟨by decide +kernel, begins_of (by decide +kernel), by unfold TrapReady; decide +kernel⟩,
   ⟨by decide +kernel, begins_of (by decide +kernel), by unfold TrapReady; decide +kernel⟩,
   ⟨by decide +kernel, begins_of (by decide +kernel), by unfold TrapReady; decide +kernel⟩,
   ⟨by decide +kernel, ⟨begins_of (by decide +kernel), by decide +kernel⟩, by unfold TrapReady; decide +kernel⟩,
   ⟨by decide +kernel, ⟨begins_of (by decide +kernel), by decide +kernel⟩⟩,
   ⟨by decide +kernel, ⟨begins_of (by decide +kernel), by decide +kernel⟩⟩⟩

/-- Hypotheses of AsynchronousAndDoubleTraps. -/
theorem test_witness_AsynchronousAndDoubleTraps :
    (let s : State := sNested
     let f : State := s
     let c : CoreId := c0
     let i := coreIx c
     let k := getCore f i
     ((getCore s i).fpu = none ∧ k.fpePend = false ∧ k.pstat.getLsbD 13 = true ∧ k.trapc.getLsbD 9 = true) ∧
       Begins s f c [] [] false) ∧
    (let s : State := sEvents true (some 5) (some 6) 0x1000
     let c : CoreId := c0
     let i := coreIx c
     let k := getCore s i
     (k.isIdle = false ∧ atBoundary s i = true ∧ k.pstat.getLsbD 12 = true ∧ k.pstat.getLsbD 13 = false ∧
       k.watch = true) ∧ TrapReady s i) ∧
    (let s : State := sEvents false (some 5) (some 6) 0x1000
     let c : CoreId := c0
     let v : W64 := 5
     let i := coreIx c
     let k := getCore s i
     (k.isIdle = false ∧ atBoundary s i = true ∧ k.pstat.getLsbD 12 = true ∧ k.pstat.getLsbD 13 = false ∧
       k.watch = false ∧ k.array = some v) ∧ TrapReady s i) ∧
    (let s : State := sEvents false none (some 6) 0x1000
     let c : CoreId := c0
     let v : W64 := 6
     let i := coreIx c
     let k := getCore s i
     (k.isIdle = false ∧ atBoundary s i = true ∧ k.pstat.getLsbD 12 = true ∧ k.pstat.getLsbD 13 = false ∧
       k.watch = false ∧ k.array = none ∧ k.memerr = some v) ∧ TrapReady s i) ∧
    (let s : State := sEvents true (some 5) (some 6) 0x3000
     let c : CoreId := c0
     let i := coreIx c
     let k := getCore s i
     (k.isIdle = false ∧ (k.pstat.getLsbD 12 = false ∨ k.pstat.getLsbD 13 = true))) :=
  ⟨⟨by decide +kernel, begins_of (by decide +kernel)⟩,
   ⟨by decide +kernel, by unfold TrapReady; decide +kernel⟩,
   ⟨by decide +kernel, by unfold TrapReady; decide +kernel⟩,
   ⟨by decide +kernel, by unfold TrapReady; decide +kernel⟩,
   by decide +kernel⟩

/-- Hypotheses of FpIssue. -/
theorem test_witness_FpIssue :
    (let s : State := sSpr
     let f : State := s
     let c : CoreId := c0
     let x : Reg := 1
     BeginsFp s f c [] [] false ∧ BeginsFp s f c [x] [] false) ∧
    (let s : State := sSpr
     let f : State := s
     let c : CoreId := c0
     let fmt : Bool := true
     let d : Reg := 2
     let x : Reg := 1
     let n : Instr := Instr.fsqrt c fmt d x
     let op : Nat := (4 : Nat)
     ((n = .fsqrt c fmt d x ∧ op = 4) ∨ (n = .fabs c fmt d x ∧ op = 7) ∨ (n = .fneg c fmt d x ∧
       op = 8) ∨ (n = .fmov c fmt d x ∧ op = 9)) ∧ BeginsFp s f c [] [] false) ∧
    (let s : State := sSpr
     let f : State := s
     let c : CoreId := c0
     let fmt : Bool := true
     let x : Reg := 1
     let y : Reg := 2
     let n : Instr := Instr.fcmp c fmt x y
     let op : Nat := (10 : Nat)
     ((n = .fcmp c fmt x y ∧ op = 0xA) ∨ (n = .fcmpe c fmt x y ∧ op = 0xB)) ∧ BeginsFp s f c [] [] true) :=
  ⟨⟨⟨begins_of (by decide +kernel), by decide +kernel⟩, ⟨begins_of (by decide +kernel), by decide +kernel⟩⟩,
   ⟨by decide +kernel, ⟨begins_of (by decide +kernel), by decide +kernel⟩⟩,
   ⟨by decide +kernel, ⟨begins_of (by decide +kernel), by decide +kernel⟩⟩⟩

/-- Hypotheses of FpCompletion. -/
theorem test_witness_FpCompletion :
    (let s : State := sUnit (unitOp 0x10 0) 0
     let c : CoreId := c0
     let o : FpOp := unitOp 0x10 0
     let i := coreIx c
     let k := getCore s i
     let r := fpCompute o k.fpcr
     (serving s c.hub = true ∧ domOf s (64 * c.hub.val + 36 + c.num.val / 8) = .on ∧ k.fpu = some o ∧
       fpCause r.fx k.fpcr = none)) ∧
    (let s : State := sUnit (unitOp 0x10 0) 0x1F8
     let c : CoreId := c0
     let o : FpOp := unitOp 0x10 0
     let i := coreIx c
     let k := getCore s i
     let r := fpCompute o k.fpcr
     let n := 3
     (serving s c.hub = true ∧ domOf s (64 * c.hub.val + 36 + c.num.val / 8) = .on ∧ k.fpu = some o ∧
       fpCause r.fx k.fpcr = some n)) ∧
    (let o : FpOp := unitOp 0x10 7
     let op := o.func.toNat % 64
     (o.major = 0x10 ∧ op = 7)) ∧
    (let o : FpOp := unitOp 0x10 8
     let op := o.func.toNat % 64
     (o.major = 0x10 ∧ op = 8)) ∧
    (let o : FpOp := unitOp 0x10 9
     let op := o.func.toNat % 64
     (o.major = 0x10 ∧ op = 9)) ∧
    (let o : FpOp := unitOp 0x12 12
     let op := o.func.toNat % 64
     (o.major = 0x12 ∧ op = 0xC)) ∧
    (let o : FpOp := unitOp 0x12 13
     let op := o.func.toNat % 64
     (o.major = 0x12 ∧ op = 0xD)) ∧
    (let o : FpOp := unitOp 0x12 14
     let op := o.func.toNat % 64
     (o.major = 0x12 ∧ op = 0xE)) :=
  ⟨by decide +kernel,
   by decide +kernel,
   by decide +kernel,
   by decide +kernel,
   by decide +kernel,
   by decide +kernel,
   by decide +kernel,
   by decide +kernel⟩

/-- Hypotheses of TokenSends. -/
theorem test_witness_TokenSends :
    (let s : State := sTokG [(1, wTag 0 0 0 0), (2, 7), (3, 8)]
     let f : State := s
     let g : State := s
     let c : CoreId := c0
     let hsel : BitVec 2 := 0
     let n : BitVec 2 := 1
     let rd : Reg := 0
     let ra : Reg := 1
     let rb : Reg := 2
     let d : Desc := desc0
     let i := coreIx c
     let k := getCore f i
     let p := corePart f i
     let tag := k.gr ra
     let dst := if hsel = 0 then c.hub.val else if hsel = 1 then 1 - c.hub.val else fld (k.gr rd) 12 12
     ((hsel ≠ 3 ∧ (hsel ≠ 2 → rd = 0)) ∧ reach g c.hub dst = true ∧
       pathAccepts g dst (mkTok tag 0 dst (.core c) p) = true ∧ tokenCheck f dst p false tag = (g, .inr d) ∧
       tagPort tag < d.arity ∧ rb.val + n.toNat ≤ 31 ∧ tagPort tag + n.toNat < d.arity) ∧ Begins s f c [rd, ra,
       rb] [] false ∧ Begins s f c (rd :: ra :: (List.range (n.toNat + 1)).map (fun j => rb.val + j)) [] false) ∧
    (let s : State := sTokG [(1, wTag 7 0 0 0), (2, 7), (3, 8)]
     let f : State := s
     let g : State := s
     let c : CoreId := c0
     let hsel : BitVec 2 := 0
     let rd : Reg := 0
     let ra : Reg := 1
     let rb : Reg := 2
     let r : Nat := 5
     let i := coreIx c
     let k := getCore f i
     let p := corePart f i
     let tag := k.gr ra
     let dst := if hsel = 0 then c.hub.val else if hsel = 1 then 1 - c.hub.val else fld (k.gr rd) 12 12
     ((hsel ≠ 3 ∧ (hsel ≠ 2 → rd = 0)) ∧ reach g c.hub dst = true ∧
       pathAccepts g dst (mkTok tag 0 dst (.core c) p) = true ∧ tokenCheck f dst p false tag = (g, .inl r) ∧
       (getCore s i).fpu = none ∧ r < 16) ∧ Begins s f c [rd, ra, rb] [] false ∧ TrapReady g i) :=
  ⟨⟨by decide +kernel, begins_of (by decide +kernel), begins_of (by decide +kernel)⟩,
   ⟨by decide +kernel, begins_of (by decide +kernel), by unfold TrapReady; decide +kernel⟩⟩

/-- Hypotheses of ContextsAndCancellation. -/
theorem test_witness_ContextsAndCancellation :
    (let s : State := sCtx 5
     let f : State := s
     let g : State := (freeCtx s 0).1
     let c : CoreId := c0
     let rd : Reg := 0
     let ra : Reg := 1
     let x : Nat := (freeCtx s 0).2.getD 0
     let i := coreIx c
     let h := c.hub.val
     let k := getCore f i
     let p := corePart f i
     let v := k.gr ra
     let vh := fld v 12 12
     let vx := fld v 11 0
     let usable : Prop := bankList f h p ≠ [] ∧ rdB f h (R.BLTCTL p) 31 = true
     (usable ∧ ctxUsed f h p < rdF f h (R.CTXQ p) 28 16 ∧ throttledNow f h p = false ∧ ctxOwned f i vh vx = true ∧
       reach f h vh = true ∧ (sweepsOf f vh).length < 16) ∧ Begins s f c [] [rd] false ∧ freeCtx f h = (g, some x) ∧
       Begins s f c [ra] [] false) ∧
    (let s : State := withTok (sCtx 5) (fun t => { t with throttled := [(0, true)] })
     let f : State := s
     let g : State := (freeCtx s 0).1
     let c : CoreId := c0
     let hsel : BitVec 2 := 0
     let rd : Reg := 0
     let ra : Reg := 2
     let x : Nat := (freeCtx s 0).2.getD 0
     let i := coreIx c
     let h := c.hub.val
     let k := getCore f i
     let p := corePart f i
     let v := k.gr ra
     let kh := if hsel = 0 then h else if hsel = 1 then 1 - h else fld (k.gr rd) 12 12
     let usable : Prop := bankList f h p ≠ [] ∧ rdB f h (R.BLTCTL p) 31 = true
     (usable ∧ ctxUsed f h p < rdF f h (R.CTXQ p) 28 16 ∧ throttledNow f h p = true ∧ (hsel ≠ 3 ∧
       (hsel ≠ 2 → rd = 0)) ∧ ctxOwned f i kh (tagCtx v) = true ∧ reach f h kh = true) ∧ Begins s f c [] [rd] false ∧
       freeCtx f h = (g, some x) ∧ Begins s f c [rd, ra] [] false) ∧
    (let s : State := withCsr (sCtx 5) [(R.CTXQ 0, 0x00010000)]
     let f : State := s
     let c : CoreId := c0
     let rd : Reg := 0
     let i := coreIx c
     let h := c.hub.val
     let p := corePart f i
     let usable : Prop := bankList f h p ≠ [] ∧ rdB f h (R.BLTCTL p) 31 = true
     ((¬ usable ∨ rdF f h (R.CTXQ p) 28 16 ≤ ctxUsed f h p)) ∧ Begins s f c [] [rd] false) ∧
    (let s : State := sCancel none
     let h : Hub := 0
     let k : Cancel := theCancel none
     let l : List Cancel := []
     (live s h = true ∧ takeCancel s h [] s.tok.cancels = some (k, l) ∧ sweepsOf s h ≠ [])) ∧
    (let s : State := withTok (sCtx 5) (fun t => { t with ctxs := [(5, { liveCtx with state := .purge })] })
     let h : Hub := 0
     let x : BitVec 12 := 5
     (live s h = true ∧ (getCtx s h x.toNat).state = .purge ∧ ctxNamed s h x.toNat = false)) :=
  ⟨⟨by decide +kernel, begins_of (by decide +kernel), free_of (by decide +kernel), begins_of (by decide +kernel)⟩,
   ⟨by decide +kernel, begins_of (by decide +kernel), free_of (by decide +kernel), begins_of (by decide +kernel)⟩,
   ⟨by decide +kernel, begins_of (by decide +kernel)⟩,
   by decide +kernel,
   by decide +kernel⟩

/-- Hypotheses of OrderedFlows. -/
theorem test_witness_OrderedFlows :
    (let s : State := sFlow none true
     let f : State := s
     let g : State := s
     let c : CoreId := c0
     let rd : Reg := 2
     let ra : Reg := 1
     let rb : Reg := 3
     let d : Desc := desc0
     let e : Lig := ligOf none true
     let i := coreIx c
     let h := c.hub.val
     let k := getCore f i
     let p := corePart f i
     let v := k.gr ra
     let w := fld v 11 0
     let q : W32 := (v >>> 32).setWidth 32
     let dst := fld v 12 12
     let x := flowOf f h w
     let mine : Prop := flowEn f h w = true ∧ flowPart f h w = p
     let pendingEntry : Prop := (q - x.rel).toNat < flowPending x ∧ ligAt f h w q = some e ∧ e.fill = none
     (mine ∧ flowPending x < 2 ^ 20 ∧ ligUsed f h p < ligShare f h p ∧ pendingEntry ∧
       tokenCheck f dst p false (k.gr rb) = (g, .inr d)) ∧ Begins s f c [ra] [rd] false ∧ Begins s f c [rd, ra,
       rb] [] false ∧ Begins s f c [ra] [] false) ∧
    (let s : State := withDsp (sFlow none true) (fun d => { d with flows := [(3, ⟨0x100000, 0⟩)] })
     let f : State := s
     let c : CoreId := c0
     let rd : Reg := 2
     let ra : Reg := 1
     let i := coreIx c
     let h := c.hub.val
     let k := getCore f i
     let p := corePart f i
     let v := k.gr ra
     let w := fld v 11 0
     let x := flowOf f h w
     let mine : Prop := flowEn f h w = true ∧ flowPart f h w = p
     (mine ∧ flowPending x = 2 ^ 20) ∧ Begins s f c [ra] [rd] false) ∧
    (let s : State := sFlow (some none) true
     let h : Hub := 0
     let f : BitVec 12 := 4
     let w : Nat := 3
     let e : Lig := ligOf (some none) true
     let m : Master := .core c0
     let v : W32 := 0x80000001
     (live s h = true ∧ nextFlow s h = some w ∧ headFilled s h w = some e ∧ e.onchip = true ∧ e.fill = some none ∧
       masterPart s m = 0 ∧ flowEn s h f.toNat = false ∧ v.getLsbD 31 = true)) ∧
    (let s : State := sFlow (some (some theTok)) true
     let h : Hub := 0
     let w : Nat := 3
     let e : Lig := ligOf (some (some theTok)) true
     let k : Tok := theTok
     (live s h = true ∧ nextFlow s h = some w ∧ headFilled s h w = some e ∧ e.onchip = true ∧ e.fill = some (some k) ∧
       pathAccepts s k.dst k = true ∧ reach s h k.dst = true)) ∧
    (let s : State := sFlow none false
     let h : Hub := 0
     let f : BitVec 12 := 3
     let e : Lig := ligOf none false
     (live s h = true ∧ rdB s h R.TRCTL 31 = false ∧ ligAt s h f.toNat (flowOf s h f.toNat).rel = some e ∧
       e.onchip = false ∧ ligUsed s h e.part < ligShare s h e.part ∧ bltServes s h e.part = true)) :=
  ⟨⟨by decide +kernel, begins_of (by decide +kernel), begins_of (by decide +kernel), begins_of (by decide +kernel)⟩,
   ⟨by decide +kernel, begins_of (by decide +kernel)⟩,
   by decide +kernel,
   by decide +kernel,
   by decide +kernel⟩

/-- Hypotheses of TokenArrivals. -/
theorem test_witness_TokenArrivals :
    (let h : Hub := 0
     let k : Tok := wTok 0 0 0 5
     let s : State := transitOf k
     let g : State := withTok s (fun t => { t with transit := [] })
     let l : List Tok := []
     let d : Desc := desc0
     let b : Nat := 13
     let s1 : State := { s with tok := { s.tok with transit := l } }
     let x := getCtx s1 h (tagCtx k.tag)
     let part := match k.src with | .core _ => x.part | _ => k.part
     (live s h = true ∧ takeTransit h k.src s.tok.transit = some (k, l) ∧ pathAccepts s h k = true ∧
       dispHeld s h x.part = none ∧ k.chk = tagCheck k.tag ∧ x.state = .live ∧
       tokenCheck s1 h part (k.src == .stall) k.tag = (g, .inr d) ∧ d.arity ≠ 1 ∧
       keyBank g h x.part (tagKey k.tag) = some b ∧ getSpill g h b = [] ∧ (getAq g h b).length < 1024)) ∧
    (let h : Hub := 0
     let k : Tok := wTok 1 0 0 5
     let s : State := transitOf k
     let g : State := withTok s (fun t => { t with transit := [] })
     let l : List Tok := []
     let d : Desc := desc1
     let s1 : State := { s with tok := { s.tok with transit := l } }
     let x := getCtx s1 h (tagCtx k.tag)
     let part := match k.src with | .core _ => x.part | _ => k.part
     (live s h = true ∧ takeTransit h k.src s.tok.transit = some (k, l) ∧ pathAccepts s h k = true ∧
       dispHeld s h x.part = none ∧ k.chk = tagCheck k.tag ∧ x.state = .live ∧
       tokenCheck s1 h part (k.src == .stall) k.tag = (g, .inr d) ∧ d.arity = 1)) ∧
    (let h : Hub := 0
     let k : Tok := wTok 7 0 0 5
     let s : State := transitOf k
     let g : State := withTok s (fun t => { t with transit := [] })
     let l : List Tok := []
     let r : Nat := 5
     let s1 : State := { s with tok := { s.tok with transit := l } }
     let x := getCtx s1 h (tagCtx k.tag)
     let part := match k.src with | .core _ => x.part | _ => k.part
     (live s h = true ∧ takeTransit h k.src s.tok.transit = some (k, l) ∧ pathAccepts s h k = true ∧
       dispHeld s h x.part = none ∧ k.chk = tagCheck k.tag ∧ x.state = .live ∧
       tokenCheck s1 h part (k.src == .stall) k.tag = (g, .inl r))) :=
  ⟨by decide +kernel,
   by decide +kernel,
   by decide +kernel⟩

/-- Hypotheses of LookupsAndBlotters. -/
theorem test_witness_LookupsAndBlotters :
    (let s : State := sLook secondTok []
     let g : State := setAq s 0 13 []
     let h : Hub := 0
     let b : Fin 16 := 13
     let k : Tok := secondTok
     let l : List Tok := []
     let d : Desc := desc0
     let key := tagKey k.tag
     let dry := setAq s h b l
     (live s h = true ∧ (getCtx s h (tagCtx k.tag)).state = .live ∧ sweeping s h (tagCtx k.tag) = false ∧
       dispHeld s h (bankOwner s h b) = none ∧ rdB s h R.TRCTL 31 = false ∧ getAq s h b = k :: l ∧
       (getBlook s h b).any (fun u => tagKey u.tag == key) = false ∧
       s.tok.entries.all (fun y => !(isEntry h key y)) = true ∧ ovf s h b (keySet key) = 0 ∧
       readDesc dry h (tagCodelet k.tag) = (g, some d) ∧ waysUsed g h b (keySet key) < 8)) ∧
    (let s : State := sLook secondTok [halfEntry .way]
     let g : State := setEntries (setAq s 0 13 []) []
     let h : Hub := 0
     let b : Fin 16 := 13
     let k : Tok := secondTok
     let l : List Tok := []
     let d : Desc := desc0
     let e : Entry := halfEntry .way
     let key := tagKey k.tag
     let dry := setAq s h b l
     let full := e.vals.set (tagPort k.tag) (some k.value)
     (live s h = true ∧ (getCtx s h (tagCtx k.tag)).state = .live ∧ sweeping s h (tagCtx k.tag) = false ∧
       dispHeld s h (bankOwner s h b) = none ∧ rdB s h R.TRCTL 31 = false ∧ getAq s h b = k :: l ∧
       (getBlook s h b).any (fun u => tagKey u.tag == key) = false ∧ s.tok.entries.find? (isEntry h key) = some e ∧
       e.place = .way ∧ e.vals.getD (tagPort k.tag) none = none ∧ presence full = 2 ^ e.arity - 1 ∧
       readDesc (setEntries dry (s.tok.entries.filter (fun y => !(isEntry h key y)))) h (tagCodelet k.tag) = (g,
       some d))) ∧
    (let s : State := sLook secondTok [foreign]
     let h : Hub := 0
     let b : Fin 16 := 13
     let k : Tok := secondTok
     let l : List Tok := []
     let key := tagKey k.tag
     (live s h = true ∧ (getCtx s h (tagCtx k.tag)).state = .live ∧ sweeping s h (tagCtx k.tag) = false ∧
       dispHeld s h (bankOwner s h b) = none ∧ rdB s h R.TRCTL 31 = false ∧ getAq s h b = k :: l ∧
       (getBlook s h b).any (fun u => tagKey u.tag == key) = false ∧
       s.tok.entries.all (fun y => !(isEntry h key y)) = true ∧ 0 < ovf s h b (keySet key) ∧
       (getBlook s h b).length < 32)) ∧
    (let s : State := withTok (sLook secondTok [foreign]) (fun t => { t with aq := [], blook := [(13, [secondTok])] })
     let g : State := setBlook s 0 13 []
     let h : Hub := 0
     let b : Fin 16 := 13
     let k : Tok := secondTok
     let l : List Tok := []
     let d : Desc := desc0
     let key := tagKey k.tag
     let wet := setBlook s h b l
     (live s h = true ∧ (getCtx s h (tagCtx k.tag)).state = .live ∧ sweeping s h (tagCtx k.tag) = false ∧
       dispHeld s h (bankOwner s h b) = none ∧ rdB s h R.TRCTL 31 = false ∧ getBlook s h b = k :: l ∧
       s.tok.entries.all (fun y => !(isEntry h key y)) = true ∧ readDesc wet h (tagCodelet k.tag) = (g, some d) ∧
       waysUsed g h b (keySet key) < 8)) ∧
    (let s : State := withTok sTok (fun t => { t with spill := [(13, [secondTok, wTok 0 1 0 1])] })
     let h : Hub := 0
     let b : Fin 16 := 13
     (rdB s h R.TRCTL 31 = false ∧ live s h = true ∧ getSpill s h b ≠ [] ∧ (getAq s h b).length ≤ 512 ∧
       bltServes s h (bankOwner s h b) = true ∧ (getSpill s h b).all (fun k => k.chk == tagCheck k.tag) = true)) ∧
    (let s : State := withTok sTok (fun t => { t with entries := [halfEntry .reserve] })
     let h : Hub := 0
     let b : Fin 16 := 13
     let e : Entry := halfEntry .reserve
     let set : BitVec 11 := BitVec.ofNat 11 (keySet e.key)
     (rdB s h R.TRCTL 31 = false ∧ live s h = true ∧ waysUsed s h b set.toNat < 8 ∧
       s.tok.entries.find? (fun y => y.hub == h && y.bank == b.val && y.set == set.toNat && y.place != .way) = some e ∧
       e.chk = tagCheck (keyTag e.key 0) ∧ bltServes s h e.part = true)) ∧
    (let s : State := withReady sTok ⟨[wInst 0 none], [wInst 0 none], [wInst 1 none], [], []⟩
     let h : Hub := 0
     let c : CoreId := c0
     let j : Nat := 1
     let r := readyOf s (coreIx c)
     (rdB s h R.TRCTL 31 = false ∧ live s c.hub = true ∧ r.on.length ≤ 128 ∧ j ≤ 3 ∧ r.spill j ≠ [] ∧ (∀ m ≤ 3,
       j < m → r.spill m = []) ∧ bltServes s c.hub (corePart s (coreIx c)) = true)) :=
  ⟨by decide +kernel,
   by decide +kernel,
   by decide +kernel,
   by decide +kernel,
   by decide +kernel,
   by decide +kernel,
   by decide +kernel⟩

/-- Hypotheses of InstancesBeginAndEnd. -/
theorem test_witness_InstancesBeginAndEnd :
    (let s : State := setInbox sTok 0 [wInst 1 none]
     let h : Hub := 0
     let x : Inst := wInst 1 none
     let l : List Inst := []
     let j : Nat := 0
     let step : Nat := 2
     let s1 := setInbox s h l
     (serving s h = true ∧ inboxOf s h = x :: l ∧ x.hub = h ∧ deadInst s x = false ∧ x.frame = none ∧
       chooseCore s1 x = some (j, step) ∧ (readyOf s j).on.length < 256 ∧ (readyOf s j).spill x.cls = [])) ∧
    (let s : State := sIdle
     let c : CoreId := c0
     let x : Inst := wInst 1 none
     let i := coreIx c
     let k := getCore s i
     (atBoundary s i = true ∧ k.isIdle = true ∧ k.watch = false ∧ k.array = none ∧ k.memerr = none ∧ k.drain = false ∧
       readyOf s i = ⟨[x], [], [], [], []⟩ ∧ x.frame = none ∧ x.vals.length ≤ 4)) ∧
    (let s : State := sRuns true none
     let f : State := s
     let c : CoreId := c0
     let rd : Reg := 1
     let x : Inst := wInst 1 none
     let y : Inst := wInst 3 none
     let i := coreIx c
     let k := getCore f i
     (k.running = some x ∧ freeFrames f c.hub x.part ≠ [] ∧ k.pstat.getLsbD 13 = false ∧ k.drain = false ∧
       readyOf f i = ⟨[y], [], [], [], []⟩ ∧ y.frame = none ∧ x.cls < y.cls ∧ y.cls ≤ 3) ∧
       BeginsFp s f c [] [rd] false) ∧
    (let s : State := sRuns false none
     let f : State := s
     let c : CoreId := c0
     let x : Inst := wInst 1 none
     let i := coreIx c
     let k := getCore f i
     (k.running = some x ∧ k.drain = false ∧ k.pstat.getLsbD 13 = false ∧ readyOf f i = ⟨[], [], [], [], []⟩) ∧
       BeginsFp s f c [] [] true) ∧
    (let s : State := withDsp (sRuns true none) (fun d => { d with frames := [(0, true), (1, true)] })
     let f : State := s
     let c : CoreId := c0
     let rd : Reg := 1
     let x : Inst := wInst 1 none
     let i := coreIx c
     let k := getCore f i
     (k.running = some x ∧ (freeFrames f c.hub x.part = [] ∨ k.pstat.getLsbD 13 = true)) ∧
       BeginsFp s f c [] [rd] false) ∧
    (let s : State := withPs (withCore (sRuns true none) (fun k => { k with preempt := true })) 0x1000
     let c : CoreId := c0
     let x : Inst := wInst 1 none
     let y : Inst := wInst 3 none
     let i := coreIx c
     let ks := getCore s i
     (atBoundary s i = true ∧ ks.preempt = true ∧ ks.pstat.getLsbD 12 = true ∧ ks.pstat.getLsbD 13 = false ∧
       ks.watch = false ∧ ks.array = none ∧ ks.memerr = none ∧ ks.fpu = none ∧ ks.fpePend = false ∧ ks.drain = false ∧
       ks.running = some x ∧ ks.rstate = .running ∧ freeFrames s c.hub x.part ≠ [] ∧ readyOf s i = ⟨[y], [], [], [],
       []⟩ ∧ y.frame = none ∧ y.cls = 3 ∧ x.cls < 3)) :=
  ⟨by decide +kernel,
   by decide +kernel,
   ⟨by decide +kernel, ⟨begins_of (by decide +kernel), by decide +kernel⟩⟩,
   ⟨by decide +kernel, ⟨begins_of (by decide +kernel), by decide +kernel⟩⟩,
   ⟨by decide +kernel, ⟨begins_of (by decide +kernel), by decide +kernel⟩⟩,
   by decide +kernel⟩

/-- Hypotheses of StallDetectionAndRegisters. -/
theorem test_witness_StallDetectionAndRegisters :
    (let s : State := sQuiet none
     let h : Hub := 0
     let p : Part := 0
     (live s h = true ∧ rdB s h (R.SDCTL p) 31 = true ∧ rdB s h (R.SDSTAT p) 31 = false ∧ quiet s h p = true ∧
       waiting s h p ≠ [] ∧ tget (fun _ => none) s.tok.marker (8 * h.val + p.val) = none)) ∧
    (let s : State := sQuiet (some true)
     let h : Hub := 0
     let p : Part := 0
     (live s h = true ∧ rdB s h (R.SDCTL p) 31 = true ∧ rdB s h (R.SDSTAT p) 31 = false ∧ quiet s h p = true ∧
       waiting s h p ≠ [] ∧ tget (fun _ => none) s.tok.marker (8 * h.val + p.val) = some true ∧ reach s h h = true)) ∧
    (let s : State := withTok (withCsr sTok [(R.BLTCTL 0,
       0x10)]) (fun t => { t with affin := [(3, 4), (0x100003, 5)], entries := [halfEntry .reserve, halfEntry .way] })
     let m : Master := .core c0
     let h : Hub := 0
     let p : Part := 0
     let v : W32 := 0x80000020
     (live s h = true ∧ masterPart s m = 0 ∧ v.toNat % 2 ^ 21 ≤ 1048576 ∧ 16 ≤ v.toNat % 2 ^ 13 ∧
       v.toNat % 2 ^ 13 ≤ 4096 ∧ v.getLsbD 31 = true ∧ rdB s h (R.BLTCTL p) 31 = false)) :=
  ⟨by decide +kernel,
   by decide +kernel,
   by decide +kernel⟩

/-- Hypotheses of MarksAndTheirTokens. -/
theorem test_witness_MarksAndTheirTokens :
    (let s : State := withRul sTok (fun r => { r with fired := [rulTok], lmTok := [(4, some 9)] })
     let h : Hub := 0
     let n : Fin 64 := 4
     let k : Tok := rulTok
     let l : List Tok := []
     let v : W64 := 9
     let q := mkTok (csr64 s h (R.LMTAGLO n) (R.LMTAGHI n)) v h .loss (rdF s h (R.LMON n) 29 27)
     (live s h = true ∧ takeHub h s.rul.fired = some (k, l) ∧ pathAccepts s h k = true ∧
       tget (fun _ => none) s.rul.lmTok (lmKey h n) = some v ∧ pathAccepts s h q = true)) ∧
    (let s : State := withMarks (sRuling 0 [] none) someMarks
     let h : Hub := 0
     let r : Nat := 7
     let p : W64 := streamPos 3 22
     let t := moveTo s h r p
     let k := 1
     let m := wMark 7 (streamPos 3 25) none
     (p ≠ rulPos s h r ∧ k < 16384 ∧ getMark t h k = some m ∧ m.rid = r)) ∧
    (let s : State := withMarks (sRuling 0 [] none) someMarks
     let h : Hub := 0
     let r : Nat := 7
     let p : W64 := streamPos 3 22
     let k := 4
     let m := wMark 8 (streamPos 0 0) none
     (p ≠ rulPos s h r ∧ k < 16384 ∧ getMark s h k = some m ∧ m.rid ≠ r ∧ m.mate = none) ∧ (∀ j n,
       getMark s h j = some n → n.mate ≠ some k)) :=
  ⟨by decide +kernel,
   by decide +kernel,
   ⟨by decide +kernel, no_mate (by decide +kernel)⟩⟩

/-- Hypotheses of RulingMovesAndInstructions. -/
theorem test_witness_RulingMovesAndInstructions :
    (let h : Hub := 0
     let r : Nat := 7
     let l : List Advance := []
     let ts : W32 := 5000
     let line : Nat := 30
     let s : State := sRuling 0 [.packet 7 5000 (some line) false] none
     let src := rdF s h (R.RCFG r) 30 28
     let stamp := tget (fun _ => none) s.rul.rtp (2048 * h.val + r)
     (live s h = true ∧ r < 0x400 ∧ rulEnabled s h r = true ∧ src ≤ 3 ∧ stamp = none ∧
       advOf s h = (.packet r ts (some line) false) :: l)) ∧
    (let h : Hub := 0
     let r : Nat := 7
     let l : List Advance := []
     let ts : W32 := 5000
     let cur : W32 := 5000
     let line : Nat := 30
     let s : State := sRuling 0 [.packet 7 5000 (some line) false] (some cur)
     let src := rdF s h (R.RCFG r) 30 28
     let stamp := tget (fun _ => none) s.rul.rtp (2048 * h.val + r)
     (live s h = true ∧ r < 0x400 ∧ rulEnabled s h r = true ∧ src ≤ 3 ∧ stamp = some cur ∧ ts = cur ∧
       advOf s h = (.packet r ts (some line) false) :: l)) ∧
    (let h : Hub := 0
     let r : Nat := 7
     let l : List Advance := []
     let s : State := sRuling 4 [.lineEvent 7] none
     let src := rdF s h (R.RCFG r) 30 28
     (live s h = true ∧ r < 0x400 ∧ rulEnabled s h r = true ∧ src = 4 ∧ advOf s h = (.lineEvent r) :: l)) ∧
    (let h : Hub := 0
     let r : Nat := 7
     let l : List Advance := []
     let s : State := sRuling 4 [.frameEvent 7] none
     let src := rdF s h (R.RCFG r) 30 28
     (live s h = true ∧ r < 0x400 ∧ rulEnabled s h r = true ∧ src = 4 ∧ advOf s h = (.frameEvent r) :: l)) ∧
    (let h : Hub := 0
     let r : Nat := 7
     let l : List Advance := []
     let q : W64 := streamPos 3 21
     let s : State := sRuling 5 [.derived 7 q] none
     let p := rulPos s h r
     let fl := frameLines s h r
     let src := rdF s h (R.RCFG r) 30 28
     let d := fwd (linWrap fl) (linIx fl p) (linIx fl q)
     (live s h = true ∧ r < 0x400 ∧ rulEnabled s h r = true ∧ src = 5 ∧ 1 ≤ d ∧ d ≤ linWrap fl / 2 ∧
       advOf s h = (.derived r q) :: l)) ∧
    (let h : Hub := 0
     let r : Nat := 7
     let l : List Advance := []
     let q : W64 := streamPos 2 20
     let s : State := sRuling 5 [.derived 7 q] none
     let p := rulPos s h r
     let fl := frameLines s h r
     let src := rdF s h (R.RCFG r) 30 28
     let d := fwd (linWrap fl) (linIx fl p) (linIx fl q)
     (live s h = true ∧ r < 0x400 ∧ rulEnabled s h r = true ∧ src = 5 ∧ (d = 0 ∨ linWrap fl / 2 < d) ∧
       advOf s h = (.derived r q) :: l)) ∧
    (let h : Hub := 0
     let r : Nat := 7
     let l : List Advance := []
     let ts : W32 := 5000
     let cur : W32 := 0
     let line : Nat := 30
     let s : State := sRuling 0 [.packet 7 5000 (some line) false] (some cur)
     let src := rdF s h (R.RCFG r) 30 28
     let stamp := tget (fun _ => none) s.rul.rtp (2048 * h.val + r)
     (live s h = true ∧ r < 0x400 ∧ rulEnabled s h r = true ∧ src ≤ 3 ∧ stamp = some cur ∧ ts ≠ cur ∧
       (ts - cur).toNat < 2 ^ 31 ∧ advOf s h = (.packet r ts (some line) false) :: l)) ∧
    (let h : Hub := 0
     let r : Nat := 7
     let l : List Advance := []
     let ts : W32 := 5000
     let cur : W32 := 0
     let line : Nat := 30
     let s : State := sRuling 0 [.packet 7 5000 (some line) true] (some cur)
     let src := rdF s h (R.RCFG r) 30 28
     let stamp := tget (fun _ => none) s.rul.rtp (2048 * h.val + r)
     (live s h = true ∧ r < 0x400 ∧ rulEnabled s h r = true ∧ src ≤ 3 ∧ stamp = some cur ∧ ts ≠ cur ∧
       (ts - cur).toNat < 2 ^ 31 ∧ advOf s h = (.packet r ts (some line) true) :: l)) ∧
    (let h : Hub := 0
     let r : Nat := 7
     let l : List Advance := []
     let ts : W32 := 5000
     let cur : W32 := 6000
     let line : Nat := 30
     let s : State := sRuling 0 [.packet 7 5000 (some line) false] (some cur)
     let src := rdF s h (R.RCFG r) 30 28
     let stamp := tget (fun _ => none) s.rul.rtp (2048 * h.val + r)
     (live s h = true ∧ r < 0x400 ∧ rulEnabled s h r = true ∧ src ≤ 3 ∧ stamp = some cur ∧ 2 ^ 31 ≤ (ts - cur).toNat ∧
       advOf s h = (.packet r ts (some line) false) :: l)) ∧
    (let s : State := withG7 [(1, 7), (2, streamPos 3 25), (3, wTag 0 0 0 0)]
     let f : State := s
     let g : State := s
     let c : CoreId := c0
     let rd : Reg := 3
     let ra : Reg := 1
     let rb : Reg := 2
     let d : Desc := desc0
     let i := coreIx c
     let h := c.hub.val
     let k := getCore f i
     let p := corePart f i
     let r := fld (k.gr ra) 10 0
     let q := k.gr rb
     let usable (n : Nat) : Prop := ridOk n = true ∧ (n < 0x400 → rdF f h (R.RCFG n) 27 25 = p)
     let far := fwd (linWrap (frameLines f h r)) (linIx (frameLines f h r) (rulPos f h r)) (linIx (frameLines f h r) q)
     (usable r ∧ r < 0x400 ∧ rdF f h (R.RCFG r) 30 28 = 5 ∧ posValid f h r q = true ∧ rulEnabled f h r = true ∧
       1 ≤ far ∧ far ≤ linWrap (frameLines f h r) / 2 ∧ tokenCheck f h p false (k.gr rd) = (g, .inr d) ∧
       markRoom g h p 1 = true ∧ freeMarks g h ≠ [] ∧ reached g h r (rulPos g h r) q = false) ∧
       Begins s f c [ra] [rd] false ∧ Begins s f c [ra, rb] [] false ∧ Begins s f c [rd, ra, rb] [rd] false) ∧
    (let s : State := withCsr (withG7 [(1, 7), (2, streamPos 3 25), (3, wTag 0 0 0 0)]) [(R.MARKQ 0, 0)]
     let f : State := s
     let g : State := s
     let c : CoreId := c0
     let rd : Reg := 3
     let ra : Reg := 1
     let rb : Reg := 2
     let d : Desc := desc0
     let i := coreIx c
     let h := c.hub.val
     let k := getCore f i
     let p := corePart f i
     let r := fld (k.gr ra) 10 0
     let q := k.gr rb
     let usable (n : Nat) : Prop := ridOk n = true ∧ (n < 0x400 → rdF f h (R.RCFG n) 27 25 = p)
     (usable r ∧ posValid f h r q = true ∧ tokenCheck f h p false (k.gr rd) = (g, .inr d) ∧
       markRoom g h p 1 = false) ∧ Begins s f c [rd, ra, rb] [rd] false) ∧
    (let s : State := withCsr (withG7 [(4, 7), (5, streamPos 3 25), (6, wTag 0 0 0 0), (8, 8), (9, streamPos 0 7),
       (10, wTag 1 0 0 0)]) [(R.RCFG 8, BitVec.ofNat 32 (2 ^ 31 + 2 ^ 14 + 1080))]
     let f : State := s
     let g : State := s
     let c : CoreId := c0
     let rd : Reg := 3
     let ra : Reg := 4
     let rb : Reg := 8
     let d1 : Desc := desc0
     let d2 : Desc := desc1
     let g1 : State := s
     let i := coreIx c
     let h := c.hub.val
     let k := getCore f i
     let p := corePart f i
     let r := fld (k.gr ra) 10 0
     let q := k.gr rb
     let usable (n : Nat) : Prop := ridOk n = true ∧ (n < 0x400 → rdF f h (R.RCFG n) 27 25 = p)
     let r2 := q.toNat % 2048
     let p1 := k.gr (ra.val + 1)
     let p2 := k.gr (rb.val + 1)
     let regs := [ra.val, ra.val + 1, ra.val + 2, rb.val, rb.val + 1, rb.val + 2]
     (usable r ∧ ra.val ≤ 29 ∧ rb.val ≤ 29 ∧ usable r2 ∧ r ≠ r2 ∧ posValid f h r p1 = true ∧
       posValid f h r2 p2 = true ∧ tokenCheck f h p false (k.gr (ra.val + 2)) = (g1, .inr d1) ∧
       tokenCheck g1 h p false (k.gr (rb.val + 2)) = (g, .inr d2) ∧ markRoom g h p 2 = true ∧
       2 ≤ (freeMarks g h).length ∧ reached g h r (rulPos g h r) p1 = false ∧
       reached g h r2 (rulPos g h r2) p2 = false) ∧ Begins s f c regs [rd] false) :=
  ⟨by decide +kernel,
   by decide +kernel,
   by decide +kernel,
   by decide +kernel,
   by decide +kernel,
   by decide +kernel,
   by decide +kernel,
   by decide +kernel,
   by decide +kernel,
   ⟨by decide +kernel, begins_of (by decide +kernel), begins_of (by decide +kernel), begins_of (by decide +kernel)⟩,
   ⟨by decide +kernel, begins_of (by decide +kernel)⟩,
   ⟨by decide +kernel, begins_of (by decide +kernel)⟩⟩

/-- Hypotheses of PinsAndPtp. -/
theorem test_witness_PinsAndPtp :
    (let s : State := sPin 2 5 (some 0)
     let h : Hub := 0
     let k : Fin 10 := 3
     let level : Bool := true
     let ix := 16 * h.val + k.val
     let r := pinRid k
     let d := rdF s h (R.EDGECFG k) 15 0
     let deb (t : State) := tget (fun _ => none) t.rul.deb ix
     (pinsLive s = true ∧ hubOk s h = true ∧ rulEnabled s h r = true ∧ tget (fun _ => false) s.rul.level ix ≠ level ∧
       d ≠ 0 ∧ k ≠ 9 ∧ deb s = some 0)) ∧
    (let s : State := sPin 0 0 none
     let h : Hub := 0
     let k : Fin 10 := 3
     let level : Bool := true
     let ix := 16 * h.val + k.val
     let r := pinRid k
     let e := rdF s h (R.EDGECFG k) 29 28
     let d := rdF s h (R.EDGECFG k) 15 0
     let sel : Prop := e = 2 ∨ (e = 0 ∧ level = true) ∨ (e = 1 ∧ level = false)
     (pinsLive s = true ∧ hubOk s h = true ∧ rulEnabled s h r = true ∧ tget (fun _ => false) s.rul.level ix ≠ level ∧
       (d = 0 ∨ k = 9) ∧ sel)) ∧
    (let s : State := sPin 3 0 none
     let h : Hub := 0
     let k : Fin 10 := 3
     let level : Bool := true
     let ix := 16 * h.val + k.val
     let r := pinRid k
     let e := rdF s h (R.EDGECFG k) 29 28
     let d := rdF s h (R.EDGECFG k) 15 0
     let sel : Prop := e = 2 ∨ (e = 0 ∧ level = true) ∨ (e = 1 ∧ level = false)
     (pinsLive s = true ∧ hubOk s h = true ∧ rulEnabled s h r = true ∧ tget (fun _ => false) s.rul.level ix ≠ level ∧
       (d = 0 ∨ k = 9) ∧ ¬ sel)) ∧
    (let s : State := sPtp 0
     let m : Master := .mailbox 0
     let h : Hub := 0
     let v : W32 := 0x7FFFFFFF
     let hold := tget (fun _ => 0) s.rul.hold h
     (live s h = true ∧ rulEnabled s h 0x400 = true ∧ hold = 0 ∧ masterPart s m = 0 ∧ v.toNat < 2 ^ 31)) ∧
    (let s : State := sPtp 10
     let m : Master := .mailbox 0
     let h : Hub := 0
     let v : W32 := 0x80000000
     let inc := (csr s h R.PTPINC).toNat
     let hold := tget (fun _ => 0) s.rul.hold h
     (live s h = true ∧ rulEnabled s h 0x400 = true ∧ hold ≠ 0 ∧ hold ≤ inc ∧ masterPart s m = 0 ∧ 2 ^ 31 ≤ v.toNat)) ∧
    (let s : State := sPtp 8589934592
     let h : Hub := 0
     let inc := (csr s h R.PTPINC).toNat
     let hold := tget (fun _ => 0) s.rul.hold h
     (live s h = true ∧ rulEnabled s h 0x400 = true ∧ inc < hold)) :=
  ⟨by decide +kernel,
   by decide +kernel,
   by decide +kernel,
   by decide +kernel,
   by decide +kernel,
   by decide +kernel⟩

/-- Hypotheses of RulingRegistersAndMonitors. -/
theorem test_witness_RulingRegistersAndMonitors :
    (let s : State := withMarks (withCsr (sRuling 4 [] (some 4)) [(R.FPORT 2, 0x80000000)]) someMarks
     let m : Master := .mailbox 0
     let h : Hub := 0
     let fp : Fin 8 := 2
     let r : Rid := 7
     let v : W32 := 0x80044438
     let n := r.toNat
     let takes : Prop := rdB s h (R.FPORT fp) 31 = true ∧ rdF s h (R.RCFG n) 30 28 = 4 ∧
       rdF s h (R.RCFG n) 27 25 = rdF s h (R.FREG (rdF s h (R.FPORT fp) 27 24)) 26 24
     (live s h = true ∧ n < 0x400 ∧ takes ∧ masterPart s m = 0 ∧ fld v 30 28 ≤ 5 ∧ fld v 23 14 ≠ 0 ∧ 1 ≤ fld v 13 0 ∧
       fld v 13 0 ≤ 9999 ∧ ridOk n = true)) ∧
    (let s : State := sRuling 4 [] none
     let h : Hub := 0
     let fp : Fin 8 := 2
     let r : Rid := 7
     let n := r.toNat
     let takes : Prop := rdB s h (R.FPORT fp) 31 = true ∧ rdF s h (R.RCFG n) 30 28 = 4 ∧
       rdF s h (R.RCFG n) 27 25 = rdF s h (R.FREG (rdF s h (R.FPORT fp) 27 24)) 26 24
     (live s h = true ∧ ¬ takes)) ∧
    (let s : State := sLoss 5 0 false (some 0)
     let m : Master := .mailbox 0
     let h : Hub := 0
     let n : Fin 64 := 4
     let c : CoreId := c0
     let adv : Nat := 3
     let l : List Nat := [4]
     let v : W32 := 9
     let cw := wdKey c.hub c.num
     (live s h = true ∧ tget (fun _ => []) s.rul.lmDue (lmKey h n) = adv :: l ∧ masterPart s m = 0 ∧ v ≠ 0xA5 ∧
       live s c.hub = true ∧ tget (fun _ => none) s.rul.wdDue cw = some 0 ∧
       tget (fun _ => false) s.rul.wdOnce cw = false)) ∧
    (let s : State := sLoss 1 2 true (some 0)
     let h : Hub := 0
     let c : CoreId := c0
     let adv : Nat := 5
     let cw := wdKey c.hub c.num
     (live s h = true ∧ live s c.hub = true ∧ tget (fun _ => none) s.rul.wdDue cw = some 0 ∧
       tget (fun _ => false) s.rul.wdOnce cw = true ∧ tget (fun _ => none) s.rul.wdDue (wdKey h 32) = some adv ∧
       rdB s h (R.WDCFG 32) 30 = false)) :=
  ⟨by decide +kernel,
   by decide +kernel,
   by decide +kernel,
   by decide +kernel⟩

/-- Hypotheses of FieldWords. -/
theorem test_witness_FieldWords :
    let g : Sheet := 0
    let x : Nat × Instr := (fieldRows 0).headD (0, .mset g)
    let s : State := sWord (fieldW x.1 0 3 6 3 false 1 true 0 false)
    let q : QWord := wq (fieldW x.1 0 3 6 3 false 1 true 0 false)
    let f := fieldOf q.w
    let w := fieldWidth f.op f.n
    let apart (p : Nat) : Prop := p = f.d ∨ overlap p f.n f.d w = false
    (x ∈ fieldRows g ∧ wordKind q.w = 0x20 + x.1 ∧ apart f.a ∧ (readsB f.op = true → apart f.b)) ∧ WordReady s g.val q :=
  ⟨by decide +kernel, by unfold WordReady; decide +kernel⟩

/-- Hypotheses of BitAndMaskWords. -/
theorem test_witness_BitAndMaskWords :
    (let s : State := sWord (bitW 1 2 3 0x96 0xE8 2 1 1 3 15 1 true false)
     let g : Sheet := 0
     let q : QWord := wq (bitW 1 2 3 0x96 0xE8 2 1 1 3 15 1 true false)
     wordKind q.w = 0x10 ∧ WordReady s g.val q) ∧
    (let g : Sheet := 0
     let q : QWord := wq (maskW 0 3 true)
     let s : State := sWord q.w
     wordKind q.w = 0x60 ∧ WordReady s g.val q) ∧
    (let g : Sheet := 0
     let q : QWord := wq (maskW 1 3 false)
     let s : State := sWord q.w
     wordKind q.w = 0x61 ∧ WordReady s g.val q) ∧
    (let g : Sheet := 0
     let q : QWord := wq (maskW 2 3 false)
     let s : State := sWord q.w
     wordKind q.w = 0x62 ∧ WordReady s g.val q) ∧
    (let g : Sheet := 0
     let q : QWord := wq (maskW 3 3 false)
     let s : State := sWord q.w
     wordKind q.w = 0x63 ∧ WordReady s g.val q) ∧
    (let g : Sheet := 0
     let q : QWord := wq (maskW 4 3 false)
     let s : State := sWord q.w
     wordKind q.w = 0x64 ∧ WordReady s g.val q) ∧
    (let g : Sheet := 0
     let q : QWord := wq (maskW 5 3 false)
     let s : State := sWord q.w
     wordKind q.w = 0x65 ∧ WordReady s g.val q) ∧
    (let g : Sheet := 0
     let q : QWord := wq (maskW 6 3 false)
     let s : State := sWord q.w
     wordKind q.w = 0x66 ∧ WordReady s g.val q) ∧
    (let g : Sheet := 0
     let q : QWord := wq (maskW 7 3 false)
     let s : State := sWord q.w
     wordKind q.w = 0x67 ∧ WordReady s g.val q) :=
  ⟨⟨by decide +kernel, by unfold WordReady; decide +kernel⟩,
   ⟨by decide +kernel, by unfold WordReady; decide +kernel⟩,
   ⟨by decide +kernel, by unfold WordReady; decide +kernel⟩,
   ⟨by decide +kernel, by unfold WordReady; decide +kernel⟩,
   ⟨by decide +kernel, by unfold WordReady; decide +kernel⟩,
   ⟨by decide +kernel, by unfold WordReady; decide +kernel⟩,
   ⟨by decide +kernel, by unfold WordReady; decide +kernel⟩,
   ⟨by decide +kernel, by unfold WordReady; decide +kernel⟩,
   ⟨by decide +kernel, by unfold WordReady; decide +kernel⟩⟩

/-- Hypotheses of StreamWords. -/
theorem test_witness_StreamWords :
    (let g : Sheet := 0
     let q : QWord := wq 0
     let s : State := sStream { gangDflt with queue := [.word q] }
     let w := q.w
     let G := getGang s g.val
     (G.loops = [] ∧ G.skip = 0 ∧ wordKind w = 0x00) ∧ WordReady s g.val q) ∧
    (let g : Sheet := 0
     let q : QWord := wq (BitVec.ofNat 96 (2 ^ 88))
     let s : State := sStream { gangDflt with queue := [.word q] }
     let w := q.w
     let G := getGang s g.val
     (G.loops = [] ∧ G.skip = 0 ∧ wordKind w = 0x01) ∧ WordReady s g.val q) ∧
    (let g : Sheet := 0
     let q : QWord := wq (syncW 3 0)
     let s : State := sStream { gangDflt with queue := [.word q] }
     let w := q.w
     let G := getGang s g.val
     (G.loops = [] ∧ G.skip = 0 ∧ wordKind w = 0x53) ∧ WordReady s g.val q) ∧
    (let g : Sheet := 0
     let q : QWord := wq (syncW 4 (2 ^ 30))
     let s : State := sStream { gangDflt with queue := [.word q] }
     let w := q.w
     let G := getGang s g.val
     (G.loops = [] ∧ G.skip = 0 ∧ wordKind w = 0x54) ∧ WordReady s g.val q) ∧
    (let g : Sheet := 0
     let q : QWord := wq (syncW 0 (2 * 2 ^ 24 + 3))
     let s : State := sStream { gangDflt with queue := [.word q] }
     let w := q.w
     let G := getGang s g.val
     (G.loops = [] ∧ G.skip = 0 ∧ wordKind w = 0x50) ∧ WordReady s g.val q) ∧
    (let g : Sheet := 0
     let q : QWord := wq (syncW 1 (2 * 2 ^ 24))
     let s : State := sStream { gangDflt with queue := [.word q] }
     let w := q.w
     let G := getGang s g.val
     let pol := fld w 79 79 == 1
     (G.loops = [] ∧ G.skip = 0 ∧ wordKind w = 0x51 ∧ G.blot = pol ∧ G.queue = [.word q]) ∧ WordReady s g.val q) ∧
    (let g : Sheet := 0
     let q : QWord := wq (syncW 1 (2 * 2 ^ 24 + 2 ^ 23))
     let s : State := sStream { gangDflt with queue := [.word q] }
     let w := q.w
     let G := getGang s g.val
     let pol := fld w 79 79 == 1
     (G.loops = [] ∧ G.skip = 0 ∧ wordKind w = 0x51 ∧ G.blot ≠ pol) ∧ WordReady s g.val q) ∧
    (let g : Sheet := 0
     let q : QWord := wq (tagW 4 0 0x80ABCD (wTag 0 0 0 0))
     let s : State := sStream { gangDflt with queue := [.word q] }
     let w := q.w
     let G := getGang s g.val
     let v := (latestBlot G).1
     (G.loops = [] ∧ G.skip = 0 ∧ wordKind w = 0x48 ∧ fld w 87 87 = 1 ∧ v = false) ∧ WordReady s g.val q) ∧
    (let g : Sheet := 0
     let q : QWord := wq (tagW 4 0 0xABCD (wTag 0 0 0 0))
     let s : State := sStream { gangDflt with queue := [.word q] }
     let w := q.w
     let G := getGang s g.val
     let v := (latestBlot G).1
     (G.loops = [] ∧ G.skip = 0 ∧ wordKind w = 0x48 ∧ (fld w 87 87 = 0 ∨ v = true) ∧ G.blots = []) ∧
       WordReady s g.val q) ∧
    (let g : Sheet := 0
     let q : QWord := wq (BitVec.ofNat 96 (4 * 2 ^ 92 + 2 ^ 88 + 3 * 2 ^ 76 + 2 ^ 74))
     let s : State := sStream { gangDflt with queue := [.word q] }
     let w := q.w
     let G := getGang s g.val
     (G.loops = [] ∧ G.skip = 0 ∧ wordKind w = 0x49) ∧ WordReady s g.val q ∧ Formed s g.val) ∧
    (let g : Sheet := 0
     let q : QWord := wq (lineW 0 5 3 4 16 2)
     let s : State := sStream { gangDflt with queue := [.word q] }
     let w := q.w
     let G := getGang s g.val
     (G.loops = [] ∧ G.skip = 0 ∧ q.core < 64 ∧ wordKind w = 0x40) ∧ WordReady s g.val q) ∧
    (let g : Sheet := 0
     let q : QWord := wq (lineW 1 5 3 4 16 3)
     let s : State := sStream { gangDflt with queue := [.word q] }
     let w := q.w
     let G := getGang s g.val
     (G.loops = [] ∧ G.skip = 0 ∧ q.core < 64 ∧ wordKind w = 0x41) ∧ WordReady s g.val q) ∧
    (let g : Sheet := 0
     let q : QWord := wq (tagW 5 5 0x80ABCD (wTag 0 0 0 0))
     let s : State := sStream { gangDflt with queue := [.word q] }
     let w := q.w
     let G := getGang s g.val
     (G.loops = [] ∧ G.skip = 0 ∧ wordKind w = 0x55) ∧ WordReady s g.val q) ∧
    (let g : Sheet := 0
     let q : QWord := wq (tagW 4 0 0x80ABCD (wTag 0 0 0 0))
     let bl : List BlotSt := []
     let b : BlotSt := { val := true, finder := 0x80000001, core := 0, toks := [] }
     let s : State := sStream { gangDflt with queue := [.word q], blots := [b] }
     let w := q.w
     let G := getGang s g.val
     (G.loops = [] ∧ G.skip = 0 ∧ wordKind w = 0x48 ∧ (fld w 87 87 = 0 ∨ b.val = true) ∧ G.blots = bl ++ [b]) ∧
       WordReady s g.val q) ∧
    (let g : Sheet := 0
     let q : QWord := wq (syncW 1 (2 * 2 ^ 24))
     let s : State := sStream { gangDflt with queue := [.word q, .word (wq 0), .word (wq 0)] }
     let l : List QItem := [.word (wq 0), .word (wq 0)]
     let w := q.w
     let G := getGang s g.val
     let n := fld w 87 80
     let pol := fld w 79 79 == 1
     (G.loops = [] ∧ G.skip = 0 ∧ wordKind w = 0x51 ∧ G.blot = pol ∧ G.queue = .word q :: l ∧ n ≤ l.length ∧
       l.length = wordsIn l) ∧ WordReady s g.val q) ∧
    (let s : State := sLoop [syncW 2 (2 ^ 23), 0] 0 true
     let g : Sheet := 0
     let q : QWord := wq (syncW 2 (2 ^ 23))
     let lp : LoopSt := ⟨0, 2, 3⟩
     let w := q.w
     let G := getGang s g.val
     let pol := fld w 79 79 == 1
     (G.loops = [lp] ∧ lp.start = 0 ∧ G.body.length = lp.len ∧ G.lpos < lp.len ∧ G.skip = 0 ∧ wordKind w = 0x52 ∧
       G.blot = pol) ∧ WordReady s g.val q) ∧
    (let s : State := sLoop [syncW 2 0, 0] 0 true
     let g : Sheet := 0
     let q : QWord := wq (syncW 2 0)
     let lp : LoopSt := ⟨0, 2, 3⟩
     let w := q.w
     let G := getGang s g.val
     let pol := fld w 79 79 == 1
     (G.loops = [lp] ∧ lp.start = 0 ∧ G.body.length = lp.len ∧ G.lpos < lp.len ∧ G.skip = 0 ∧ wordKind w = 0x52 ∧
       G.blot ≠ pol ∧ G.lpos + 1 < lp.len) ∧ WordReady s g.val q) ∧
    (let s : State := sLoop [syncW 2 0, 0] 1 true
     let g : Sheet := 0
     let q : QWord := wq 0
     let lp : LoopSt := ⟨0, 2, 3⟩
     let w := q.w
     let G := getGang s g.val
     (G.loops = [lp] ∧ lp.start = 0 ∧ G.body.length = lp.len ∧ G.lpos < lp.len ∧ G.skip = 0 ∧ wordKind w = 0x00 ∧
       G.lpos + 1 = lp.len ∧ 1 < lp.left) ∧ WordReady s g.val q) :=
  ⟨⟨by decide +kernel, by unfold WordReady; decide +kernel⟩,
   ⟨by decide +kernel, by unfold WordReady; decide +kernel⟩,
   ⟨by decide +kernel, by unfold WordReady; decide +kernel⟩,
   ⟨by decide +kernel, by unfold WordReady; decide +kernel⟩,
   ⟨by decide +kernel, by unfold WordReady; decide +kernel⟩,
   ⟨by decide +kernel, by unfold WordReady; decide +kernel⟩,
   ⟨by decide +kernel, by unfold WordReady; decide +kernel⟩,
   ⟨by decide +kernel, by unfold WordReady; decide +kernel⟩,
   ⟨by decide +kernel, by unfold WordReady; decide +kernel⟩,
   ⟨by decide +kernel, by unfold WordReady; decide +kernel, by unfold Formed; decide +kernel⟩,
   ⟨by decide +kernel, by unfold WordReady; decide +kernel⟩,
   ⟨by decide +kernel, by unfold WordReady; decide +kernel⟩,
   ⟨by decide +kernel, by unfold WordReady; decide +kernel⟩,
   ⟨by decide +kernel, by unfold WordReady; decide +kernel⟩,
   ⟨by decide +kernel, by unfold WordReady; decide +kernel⟩,
   ⟨by decide +kernel, by unfold WordReady; decide +kernel⟩,
   ⟨by decide +kernel, by unfold WordReady; decide +kernel⟩,
   ⟨by decide +kernel, by unfold WordReady; decide +kernel⟩⟩

/-- Hypotheses of ArrayIssueAndFaults. -/
theorem test_witness_ArrayIssueAndFaults :
    (let s : State := sWord (BitVec.ofNat 96 (7 * 2 ^ 92 + 5))
     let g : Sheet := 0
     let q : QWord := wq (BitVec.ofNat 96 (7 * 2 ^ 92 + 5))
     let c : Nat := 1
     let G := getGang s g.val
     (gangReady s g.val = true ∧ headWord G = some q ∧ wordCheck s g.val G q.w = c ∧ q.core < 64 ∧
       wordKind q.w = 0xFFF)) ∧
    (let s : State := gregs [(2, 0x8000)] (sGangOf .run gangDflt)
     let f : State := s
     let c : CoreId := c0
     let rd : Reg := 1
     let ra : Reg := 2
     let rb : Reg := 3
     let i := coreIx c
     let k := getCore f i
     let p := corePart f i
     let named (n : Nat) : Prop := n < 24 ∧ isGang f n = true ∧ sheetPart f n = p ∧
       reach f (i / 32) (sheetHome f n) = true
     let takes (n : Nat) : Prop := named n ∧ (∀ m ∈ members f n, deadState (getSheet f m).state = false) ∧
       changing f n = false ∧ ((getGang f n).claim = none ∨ (getGang f n).claim = some i)
     let n := fld (k.gr rd) 4 0
     let op := k.gr ra
     let gid := fld op 20 16
     (k.array = none ∧ takes n ∧ wordsIn (getGang f n).queue < 64 ∧ (getGang f n).skip = 0 ∧ fld op 15 15 = 1 ∧
       changing f gid = false ∧ takes gid ∧ 1 < (members f gid).length ∧ (∀ m ∈ members f gid,
       reach f (i / 32) (sheetHome f m) = true)) ∧ Begins s f c [rd, ra, rb] [] false ∧ Begins s f c [ra,
       rb] [rd] false) ∧
    (let s : State := gregs [(2, 0x8000)] (sGangOf .run gangDflt)
     let f : State := s
     let c : CoreId := c0
     let rd : Reg := 1
     let ra : Reg := 2
     let i := coreIx c
     let k := getCore f i
     let p := corePart f i
     let named (n : Nat) : Prop := n < 24 ∧ isGang f n = true ∧ sheetPart f n = p ∧
       reach f (i / 32) (sheetHome f n) = true
     let n := fld (k.gr ra) 4 0
     (k.array = none ∧ named n ∧ wordsLeft (getGang f n) i = false ∧ coreRuns f n i = false ∧
       blotPending (getGang f n) = false) ∧ Begins s f c [ra] [rd] false) ∧
    (let s : State := gregs [(2, 0x8000 + 5 * 65536)] (sGangOf .run gangDflt)
     let f : State := s
     let c : CoreId := c0
     let rd : Reg := 1
     let ra : Reg := 2
     let rb : Reg := 3
     let i := coreIx c
     let k := getCore f i
     let p := corePart f i
     let op := k.gr ra
     let gid := fld op 20 16
     (k.array = none ∧ fld op 15 15 = 1 ∧ changing f gid = false ∧ dissolveStatus f p gid ≠ 0) ∧ Begins s f c [ra,
       rb] [rd] false) ∧
    (let s : State := updCore (withMem (gregs [(1, 0), (2,
       0x010000002000)] (sGangOf .run gangDflt))) 0 (fun k => { k with cnt := 1 })
     let f : State := s
     let r : State := s
     let c : CoreId := c0
     let rd : Reg := 1
     let ra : Reg := 2
     let bytes : Bytes := rbs s (commonBase 0 + 0x2000) 16
     let i := coreIx c
     let k := getCore f i
     let p := corePart f i
     let named (n : Nat) : Prop := n < 24 ∧ isGang f n = true ∧ sheetPart f n = p ∧
       reach f (i / 32) (sheetHome f n) = true
     let takes (n : Nat) : Prop := named n ∧ (∀ m ∈ members f n, deadState (getSheet f m).state = false) ∧
       changing f n = false ∧ ((getGang f n).claim = none ∨ (getGang f n).claim = some i)
     let n := fld (k.gr rd) 4 0
     (k.array = none ∧ takes n ∧ wordsIn (getGang f n).queue < 64 ∧ (getGang f n).skip = 0 ∧ eventDue k = false ∧
       haltDue f i = false ∧ k.stepReq = false ∧ fld (k.gr ra) 3 0 = 0 ∧ k.cnt = 1 ∧ ra ≠ 0 ∧
       winOk f i (k.gr ra).toNat 1 = true ∧ r.arr = f.arr ∧ getCore r i = k ∧ corePart r i = p ∧
       reach r (i / 32) (sheetHome r n) = true ∧ r.part = f.part) ∧ Begins s f c [rd, ra] [ra] false ∧
       bytesRead f i (k.gr ra) 16 = .ok (r, bytes)) ∧
    (let s : State := sForm 2 1 [4, 5]
     let f : State := s
     let r : State := s
     let c : CoreId := c0
     let rd : Reg := 1
     let ra : Reg := 2
     let rb : Reg := 3
     let bytes : Bytes := [4, 5]
     let i := coreIx c
     let k := getCore f i
     let p := corePart f i
     let op := k.gr ra
     let gw := fld op 4 0
     let gh := fld op 9 5
     let l := bytes.map BitVec.toNat
     (k.array = none ∧ fld op 15 15 = 0 ∧ 0 < gw * gh ∧ gw * gh ≤ 24 ∧ getCore r i = k ∧ corePart r i = p ∧ (∀ n ∈ l,
       n < 24 → changing r n = false) ∧ agangStatus r p gw gh l = 0 ∧ (∀ n ∈ l,
       reach r (i / 32) (sheetHome r n) = true) ∧ (∀ n ∈ l, (getGang r (getSheet r n).gid).claim = none)) ∧
       Begins s f c [ra, rb] [rd] false ∧ bytesRead f i (k.gr rb) (gw * gh) = .ok (r, bytes)) ∧
    (let s : State := sForm 1 1 [1]
     let f : State := s
     let r : State := s
     let c : CoreId := c0
     let rd : Reg := 1
     let ra : Reg := 2
     let rb : Reg := 3
     let bytes : Bytes := [1]
     let i := coreIx c
     let k := getCore f i
     let p := corePart f i
     let op := k.gr ra
     let gw := fld op 4 0
     let gh := fld op 9 5
     let l := bytes.map BitVec.toNat
     (k.array = none ∧ fld op 15 15 = 0 ∧ 0 < gw * gh ∧ gw * gh ≤ 24 ∧ getCore r i = k ∧ corePart r i = p ∧ (∀ n ∈ l,
       n < 24 → changing r n = false) ∧ agangStatus r p gw gh l ≠ 0) ∧ Begins s f c [ra, rb] [rd] false ∧
       bytesRead f i (k.gr rb) (gw * gh) = .ok (r, bytes)) :=
  ⟨by decide +kernel,
   ⟨by decide +kernel, begins_of (by decide +kernel), begins_of (by decide +kernel)⟩,
   ⟨by decide +kernel, begins_of (by decide +kernel)⟩,
   ⟨by decide +kernel, begins_of (by decide +kernel)⟩,
   ⟨by decide +kernel, begins_of (by decide +kernel), ok_of (by decide +kernel)⟩,
   ⟨by decide +kernel, begins_of (by decide +kernel), ok_of (by decide +kernel)⟩,
   ⟨by decide +kernel, begins_of (by decide +kernel), ok_of (by decide +kernel)⟩⟩

/-- Hypotheses of SheetStates. -/
theorem test_witness_SheetStates :
    (let s : State := sChange .idle (.form 1 2 [1, 0])
     let m : Master := .mailbox 0
     let sh : Sheet := 0
     let v : W32 := 2
     let id : Nat := 7
     let gw : Nat := 1
     let gh : Nat := 2
     let l : List Nat := [1, 0]
     let x := getSheet s sh.val
     let h := sheetHome s sh.val
     (live s h = true ∧ sheetOk s sh.val = true ∧ x.state = .idle ∧ rdB s h (R.SHCFG sh.val) 31 = false ∧
       wordFor s sh.val = false ∧ (getGang s x.gid).blots = [] ∧ x.inQ = [] ∧ x.outQ = [] ∧ asP0 s m = true ∧
       v.getLsbD 1 = true ∧ (getGang s sh.val).queue.head? = some (.change id) ∧
       tget (fun _ => none) s.arr.changes id = some (.form gw gh l) ∧ changeReady s id (.form gw gh l) = true ∧
       l.length = gw * gh ∧ l.Nodup ∧ l ≠ [])) ∧
    (let s : State := withDom (withCsr (sOne .off gangDflt) [(R.SHCFG 0, 0xC0000000)]) 160 .on
     let sh : Sheet := 0
     let x := getSheet s sh.val
     let h := sheetHome s sh.val
     (live s h = true ∧ sheetOk s sh.val = true ∧ x.state = .off ∧ serving s h = true ∧
       domOf s (160 + sh.val / 4) = .on ∧
       (rdB s h (R.SHCFG sh.val) 31 = true ∨ wordFor s sh.val = true ∨ heldOf s (128 + sh.val) ≠ []))) ∧
    (let s : State := sOne .clear gangDflt
     let sh : Sheet := 0
     let x := getSheet s sh.val
     let h := sheetHome s sh.val
     (live s h = true ∧ sheetOk s sh.val = true ∧ x.state = .clear ∧ s.svc.svcs = [] ∧
       (getGang s x.gid).haltReq = false ∧ injecting s x.gid = false)) ∧
    (let s : State := sOne .fault gangDflt
     let m : Master := .mailbox 0
     let sh : Sheet := 0
     let v : W32 := 1
     let x := getSheet s sh.val
     let h := sheetHome s sh.val
     (live s h = true ∧ sheetOk s sh.val = true ∧ asP0 s m = true ∧ x.state = .fault ∧ v.getLsbD 0 = true)) ∧
    (let s : State := sOne .test gangDflt
     let sh : Sheet := 0
     let x := getSheet s sh.val
     let h := sheetHome s sh.val
     (live s h = true ∧ sheetOk s sh.val = true ∧ x.state = .test ∧ s.svc.svcs = [])) ∧
    (let s : State := sChange .idle (.dissolve 0)
     let sh : Sheet := 0
     let id : Nat := 7
     let h := sheetHome s sh.val
     (live s h = true ∧ sheetOk s sh.val = true ∧ (getGang s sh.val).queue.head? = some (.change id) ∧
       tget (fun _ => none) s.arr.changes id = some (.dissolve sh.val) ∧ changeReady s id (.dissolve sh.val) = true)) ∧
    (let s : State := sChange .idle (.evac 0 none)
     let sh : Sheet := 0
     let id : Nat := 7
     let h := sheetHome s sh.val
     (live s h = true ∧ sheetOk s sh.val = true ∧ s.svc.svcs = []) ∧ (∃ id, pendingChanges s = [(id,
       .evac sh.val none)] ∧ changeReady s id (.evac sh.val none) = true)) :=
  ⟨by decide +kernel,
   by decide +kernel,
   by decide +kernel,
   by decide +kernel,
   by decide +kernel,
   by decide +kernel,
   ⟨by decide +kernel, ⟨7, by decide +kernel⟩⟩⟩

/-- Hypotheses of LinesAndArrayResults. -/
theorem test_witness_LinesAndArrayResults :
    (let s : State := withCsr (sLine 3 true 5 4 id) [(R.LCH 3, 0)]
     let m : Master := .mailbox 0
     let h : Hub := 0
     let c : Fin 64 := 3
     let v : W32 := 0xA0000000
     let old := csr s h (R.LCH c)
     let wr := csr s h (R.LCHWR c)
     let rd := csr s h (R.LCHRD c)
     let slots := rdF s h (R.LCHNSLOT c) 16 0
     (live s h = true ∧ mayLch s m h c = true ∧ old.getLsbD 31 = false ∧ v.getLsbD 31 = true ∧
       slots < (v - rd).toNat ∧ slots < (wr - v).toNat)) ∧
    (let s : State := sLine 3 false 5 4 id
     let m : Master := .mailbox 0
     let h : Hub := 0
     let c : Fin 64 := 3
     let v : W32 := 6
     let old := csr s h (R.LCH c)
     let rd := csr s h (R.LCHRD c)
     let slots := rdF s h (R.LCHNSLOT c) 16 0
     (live s h = true ∧ mayLch s m h c = true ∧ old.getLsbD 30 = false ∧ (v - rd).toNat ≤ slots)) ∧
    (let s : State := sLine 3 true 5 4 id
     let m : Master := .mailbox 0
     let h : Hub := 0
     let c : Fin 64 := 3
     let v : W32 := 3
     let old := csr s h (R.LCH c)
     let wr := csr s h (R.LCHWR c)
     let slots := rdF s h (R.LCHNSLOT c) 16 0
     (live s h = true ∧ mayLch s m h c = true ∧ old.getLsbD 30 = true ∧ (wr - v).toNat ≤ slots)) ∧
    (let s : State := sGangOf .run { gangDflt with blots := [theBlot], btoks := [wTok 0 0 0 5], ctoks := [wTok 0 0 0 5] }
     let g : State := s
     let sh : Sheet := 0
     let b : BlotSt := theBlot
     let bl : List BlotSt := []
     let k : Tok := wTok 0 0 0 5
     let l : List Tok := []
     let G := getGang s sh.val
     let h := sheetHome s sh.val
     let quiet (g : Nat) : Prop := (getGang s g).haltReq = false ∧ injecting s g = false
     (live s h = true ∧ quiet sh.val ∧ G.blots = b :: bl ∧ live s k.dst.val = true ∧
       pathAccepts s k.dst.val k = true ∧ reach s k.dst.val k.dst.val = true ∧ G.btoks = k :: l ∧ G.ctoks = k :: l)) ∧
    (let s : State := sInRun
     let g : State := s
     let sh : Sheet := 0
     let r : Run := theRun
     let rs : List Run := []
     let bytes : Bytes := (slotRead sInRun 0 3 4).2.getD []
     let x := getSheet s sh.val
     let h := sheetHome s sh.val
     let quiet (g : Nat) : Prop := (getGang s g).haltReq = false ∧ injecting s g = false
     let rd := csr s h (R.LCHRD r.chan)
     let wr := csr s h (R.LCHWR r.chan)
     (live s h = true ∧ quiet x.gid ∧ r.row < 128 ∧ r.base + r.w ≤ 4096 ∧ 1 ≤ r.w ∧ r.chan < 64 ∧
       portLive x r = true ∧ rdB s h (R.LCH r.chan) 31 = true ∧ x.inQ = r :: rs ∧ rdB s h (R.LCH r.chan) 30 = false ∧
       wr ≠ rd ∧ slotRead s h r.chan rd.toNat = (g, some bytes))) ∧
    (let s : State := sLine 3 true 5 4 (fun x => { x with outQ := [theRun] })
     let sh : Sheet := 0
     let r : Run := theRun
     let rs : List Run := []
     let bytes : Bytes := natLe 512 11134945744492026280
     let g : State := (slotWrite s 0 3 5 bytes).1
     let x := getSheet s sh.val
     let h := sheetHome s sh.val
     let quiet (g : Nat) : Prop := (getGang s g).haltReq = false ∧ injecting s g = false
     let rd := csr s h (R.LCHRD r.chan)
     let wr := csr s h (R.LCHWR r.chan)
     (live s h = true ∧ quiet x.gid ∧ r.row < 128 ∧ r.base + r.w ≤ 4096 ∧ 1 ≤ r.w ∧ r.chan < 64 ∧
       portLive x r = true ∧ rdB s h (R.LCH r.chan) 31 = true ∧ x.outQ = r :: rs ∧ rdB s h (R.LCH r.chan) 30 = true ∧
       s.arr.bad = [] ∧ (wr - rd).toNat < rdF s h (R.LCHNSLOT r.chan) 16 0 ∧ 1 ≤ r.len ∧ r.len ≤ 128 ∧ r.w ≤ 32 ∧
       slotWrite s h r.chan wr.toNat bytes = (g, true) ∧ bytes.length = 512) ∧ (∀ n < 4096,
       (leNat bytes).testBit n = (decide (n / r.w < r.len) && (plane s sh.val (r.base + n % r.w)).getLsbD (128 * r.row + n / r.w)))) :=
  ⟨by decide +kernel,
   by decide +kernel,
   by decide +kernel,
   by decide +kernel,
   by decide +kernel,
   ⟨by decide +kernel, slot_bits (by decide +kernel)⟩⟩

/-- Hypotheses of MeshNetworks. -/
theorem test_witness_MeshNetworks :
    (let s : State := sIsoTile
     let m : Master := .mailbox 0
     let h : Hub := 0
     let r : Tile := 7
     let mesh : Fin 8 := 2
     let d : Fin 5 := 2
     let again : Bool := true
     let dst : Tile := 8
     let ep : Fin 2 := 0
     let esc : Bool := false
     let e : Fin 2 := 0
     let v : W32 := 0x80000000
     let n := if again then failRun s h r mesh d + 1 else 1
     let cur := rdF s h R.NEPOCH 29 29
     (live s h = true ∧ n < 16 ∧ tileAbsorbs s h r = true ∧ noRoute s h r mesh dst ep esc = true ∧ asP0 s m = true ∧
       v.getLsbD 31 = true ∧ rdB s h R.NEPOCH 30 = false ∧
       (e.val = cur ∨ rdB s h R.NEPOCH 30 = true ∨ entriesOk r v = false))) ∧
    (let s : State := sFails 15
     let m : Master := .mailbox 0
     let h : Hub := 0
     let r : Tile := 7
     let mesh : Fin 8 := 2
     let d : Fin 5 := 2
     let again : Bool := true
     let e : Fin 2 := 1
     let v : W32 := 0x80000000
     let n := if again then failRun s h r mesh d + 1 else 1
     let cur := rdF s h R.NEPOCH 29 29
     (live s h = true ∧ n = 16 ∧ d ≠ 0 ∧ asP0 s m = true ∧ e.val ≠ cur ∧ rdB s h R.NEPOCH 30 = false ∧
       entriesOk r v = true)) ∧
    (let s : State := sOldTable
     let h : Hub := 0
     let cur := rdF s h R.NEPOCH 29 29
     (live s h = true ∧ rdB s h R.NEPOCH 30 = true ∧ heldEpoch s h (1 - cur) = false)) :=
  ⟨by decide +kernel,
   by decide +kernel,
   by decide +kernel⟩

/-- Hypotheses of DepolLinks. -/
theorem test_witness_DepolLinks :
    (let s : State := sLink 0 3 true (depolOf [] [(3, 7), (9, 7)] 2)
     let m : Master := .mailbox 0
     let h : Hub := 0
     let k : Fin 7 := 0
     let seq : BitVec 6 := 5
     let again : Bool := true
     let errs : BitVec 264 := 0x208
     let w : Nat := 3
     let d := getDpl s h k
     let n := if again = true ∧ d.lastSeq = seq then d.fails + 1 else 1
     let old (w : Nat) : W64 := tget (fun _ => 0) d.errs w
     let seen (w : Nat) : W64 := old w * 2 + (if errs.getLsbD w then 1 else 0)
     let bad (w : Nat) : Prop := w < 256 ∧ w ∉ d.failed ∧ 4 ≤ ones (seen w)
     (live s h = true ∧ dplRuns s h k = true ∧ n < 16 ∧ rdB s h (R.DPLCTL k) 26 = true ∧ d.repair = none ∧
       d.failed.length < 8 ∧ bad w ∧ (∀ j < w, ¬ bad j) ∧ asP0 s m = true ∧ dplOk s h k = true)) ∧
    (let s : State := sLink 0 3 true (depolOf [1, 2] [] 15)
     let h : Hub := 0
     let k : Fin 7 := 0
     let seq : BitVec 6 := 5
     let again : Bool := true
     let errs : BitVec 264 := 0x208
     let w : Nat := 3
     let d := getDpl s h k
     let n := if again = true ∧ d.lastSeq = seq then d.fails + 1 else 1
     let old (w : Nat) : W64 := tget (fun _ => 0) d.errs w
     let seen (w : Nat) : W64 := old w * 2 + (if errs.getLsbD w then 1 else 0)
     let bad (w : Nat) : Prop := w < 256 ∧ w ∉ d.failed ∧ 4 ≤ ones (seen w)
     (live s h = true ∧ dplRuns s h k = true ∧ 16 ≤ n) ∧ (rdB s h (R.DPLCTL k) 26 = false ∨ (∀ w, ¬ bad w))) ∧
    (let s : State := sLink 0 3 true (depolOf [] [(3, 7), (9, 7)] 2)
     let h : Hub := 0
     let k : Fin 7 := 3
     (live s h = true ∧ dplOk s h k = true ∧ dplState s h k = 1 ∧ rdB s h (R.DPLCTL k) 31 = true)) ∧
    (let s : State := sLink 0 3 true { depolOf [3] [(4, 15)] 1 with repair := some (4, 5) }
     let h : Hub := 0
     let k : Fin 7 := 0
     let seq : BitVec 6 := 5
     let w : Nat := 4
     let d := getDpl s h k
     (live s h = true ∧ dplRuns s h k = true ∧ d.repair = some (w, seq))) :=
  ⟨by decide +kernel,
   ⟨by decide +kernel, by first | exact .inl (by decide +kernel) | exact .inr (no_word (by decide +kernel))⟩,
   by decide +kernel,
   by decide +kernel⟩

/-- Hypotheses of PowerDomains. -/
theorem test_witness_PowerDomains :
    (let s : State := sRegion 37 .fencing []
     let m : Master := .mailbox 0
     let h : Hub := 0
     let d : Domain := .cluster 1
     let g : Fin 4 := 1
     let a : Fin 6 := 0
     let v : W32 := 0x80000000
     let ix := domIx h d
     (live s h = true ∧ d = .cluster g ∧ domOf s ix = .fencing ∧
       (domOf s ix = .fencing ∨ domOf s ix = .acked ∨ domOf s ix = .waking) ∧ asP0 s m = true ∧ v.getLsbD 30 = false ∧
       dieOk s a = true ∧ dieHome s a = h.val ∧ domOf s (160 + a.val) ≠ .off)) ∧
    (let s : State := sRegion 7 .fencing []
     let m : Master := .mailbox 0
     let h : Hub := 0
     let d : Domain := .tile 7
     let g : Fin 4 := 1
     let t0 : Tile := 7
     let v : W32 := 0xC0000000
     let ix := domIx h d
     let old := csr s h (R.NTILE t0)
     (live s h = true ∧ domOf s ix = .fencing ∧ (∀ g, d ≠ .cluster g) ∧ asP0 s m = true ∧ v.getLsbD 30 = true ∧
       old.getLsbD 30 = false ∧ (old.getLsbD 31 = false ∨ v.getLsbD 31 = false ∨ routedThrough s h t0 = true))) ∧
    (let s : State := sRegion 7 .acked []
     let h : Hub := 0
     let d : Domain := .tile 7
     let t0 : Tile := 7
     let ix := domIx h d
     (live s h = true ∧ domOf s ix = .acked ∧ heldOf s ix = [] ∧ d = .tile t0)) ∧
    (let s : State := sRegion 37 .on [(R.NREG 1, 0xA0000000)]
     let h : Hub := 0
     let d : Domain := .cluster 1
     let ix := domIx h d
     (live s h = true ∧ domOf s ix = .on ∧ offDue s h d = true)) ∧
    (let s : State := sRegion 37 .acked []
     let h : Hub := 0
     let d : Domain := .cluster 1
     let g : Fin 4 := 1
     let ix := domIx h d
     (live s h = true ∧ domOf s ix = .acked ∧ heldOf s ix = [] ∧ (d = .cluster g ∨ d = .fabric))) ∧
    (let s : State := sRegion 37 .off []
     let h : Hub := 0
     let d : Domain := .cluster 1
     let g : Fin 4 := 1
     let ix := domIx h d
     (live s h = true ∧ d = .cluster g ∧ domOf s ix = .off)) ∧
    (let s : State := sRegion 37 .waking []
     let h : Hub := 0
     let d : Domain := .cluster 1
     let g : Fin 4 := 1
     let ix := domIx h d
     (live s h = true ∧ d = .cluster g ∧ domOf s ix = .waking ∧ tget (fun _ => false) s.boot.mcauto h = false)) ∧
    (let s : State := withCsr base ([(R.NTILE 7, 0x80000000)] ++ (List.range 9).flatMap (fun w => [1, 6, 8,
       13].map (fun r => (R.NRTAB r 0 w, (0 : W32)))))
     let m : Master := .mailbox 0
     let h : Hub := 0
     let t0 : Tile := 7
     let v : W32 := 0xC0000000
     let old := csr s h (R.NTILE t0)
     (live s h = true ∧ asP0 s m = true ∧ v.getLsbD 30 = true ∧ old.getLsbD 30 = false ∧ old.getLsbD 31 = true ∧
       v.getLsbD 31 = true ∧ routedThrough s h t0 = false)) :=
  ⟨by decide +kernel,
   by decide +kernel,
   by decide +kernel,
   by decide +kernel,
   by decide +kernel,
   by decide +kernel,
   by decide +kernel,
   by decide +kernel⟩

/-- Hypotheses of ResetsAndBoot. -/
theorem test_witness_ResetsAndBoot :
    (let s : State := sCells base
     let h : Hub := 0
     (s.pwr.power = .on ∧ s.pwr.porn = true ∧ s.pwr.warmn = true) ∧ (∀ h, strokeOf s h ≠ .running)) ∧
    (let s : State := sCells State.reset
     let h : Hub := 0
     let k : Fin 4 := 0
     (s.pwr.porn = false ∧ s.pwr.power ≠ .off ∧ chanOk s h k = true ∧ dimmOf s h k ≠ 0 ∧ s.mem.bad = [])) ∧
    (let s : State := inOrder sWarm
     let sel : BitVec 2 := 1
     let k : Fin 4 := 0
     (s.pwr.porn = true ∧ s.pwr.warmn = false ∧ s.pwr.warmDue = false ∧ s.pwr.power = .on ∧
       tget (fun _ => false) s.pwr.refStop 0 = false ∧ sel = 1 ∧ rdB s 0 R.DBGCTL 30 = false ∧ s.mem.bad = [] ∧
       chanOk s 0 k = true ∧ chanState s 0 k = 3 ∧ (∀ j < 4, chanState s 0 j ≠ 1))) ∧
    (let s : State := { sCells base with evi := { base.evi with stroke := [(0, .running)] }, pwr := { base.pwr with power := .stroke } }
     let h : Hub := 0
     (s.pwr.porn = true ∧ s.pwr.warmn = true ∧ s.pwr.power = .stroke ∧ strokeOf s h = .running ∧ h.val < 2)) ∧
    (let m : Master := .debug 0 .probe
     let h : Hub := 0
     let v : W32 := 0x80000000
     let b : Bytes := natLe 196 imageBits
     let s : State := sImage b
     let g : State := s
     let r : State := s
     (live s h = true ∧ mayDebug s m h = true ∧ v.getLsbD 31 = true ∧ bootSrc s = 2 ∧ bootOf s h = .waitImage ∧
       fetchImage s h 0x010000000000 = (g, some b) ∧ live g h = true ∧ bootOf g h = .waitImage ∧
       bootOf g (1 - h.val) ≠ .waitImage ∧ mwr g h none 0x010000000000 b = (r, .ok) ∧ r.mem.bad = [] ∧
       imageCheck r b = 0 ∧ leAt b 16 4 = 0 ∧ leAt b 20 4 = 0 ∧ ancStateOf r h = 0 ∧ strokeOf r h = .none ∧
       bootOf r (1 - h.val) ≠ .waitImage ∧ rdB r h R.JCTL 31 = false)) ∧
    (let h : Hub := 0
     let t0 : Fin 8 := 0
     let s : State := sWait .waitDry [(R.TGT 0, 0x80000000), (R.TGT 1, 0x80000000), (R.ERCTL 0, 0x80030000)]
     (live s h = true ∧ bootOf s h = .waitDry ∧ rdB s h (R.TGT t0) 31 = true ∧
       ringsServed (failTarget s h t0) h = true)) ∧
    (let m : Master := .debug 0 .probe
     let h : Hub := 0
     let v : W32 := 0x80000000
     let b : Bytes := ((natLe 196 imageBits).set 0 9).take 64
     let s : State := sImage b
     let g : State := s
     let r : State := s
     (live s h = true ∧ mayDebug s m h = true ∧ v.getLsbD 31 = true ∧ bootSrc s = 2 ∧ bootOf s h = .waitImage ∧
       fetchImage s h 0x010000000000 = (g, some b) ∧ live g h = true ∧ bootOf g h = .waitImage ∧
       bootOf g (1 - h.val) ≠ .waitImage ∧ mwr g h none 0x010000000000 b = (r, .ok) ∧ r.mem.bad = [] ∧
       imageCheck r b ≠ 0)) :=
  ⟨⟨by decide +kernel, not_running (by decide +kernel)⟩,
   by decide +kernel,
   by decide +kernel,
   by decide +kernel,
   by decide +kernel,
   by decide +kernel,
   by decide +kernel⟩

/-- Hypotheses of PowerManagement. -/
theorem test_witness_PowerManagement :
    (let s : State := { base with boot := { base.boot with fusing := [(0, some (2, 77))] } }
     let m : Master := .mailbox 0
     let h : Hub := 0
     let d : Fin 8 := 6
     let k : Fin 4 := 1
     let raw : BitVec 16 := 0x0640
     let v : W32 := 0x80040000
     let n : Nat := 2
     let x : BitVec 256 := 77
     let i := 4 * d.val + k.val
     let t16 := raw.toInt + (calOffset s i).toInt
     (s.pwr.power = .on ∧ hubOk s h = true ∧ live s h = true ∧ dplRuns s (1 - h.val) 6 = false ∧ asP0 s m = true ∧
       (fld v 7 0 < 60 ∨ 110 < fld v 7 0 ∨ fld v 25 24 < leastDiv (fld v 11 8)) ∧ dieReads s h d = true ∧
       -2 ^ 15 ≤ t16 ∧ t16 < 2 ^ 15 ∧ 1 ≤ fld v 18 16 ∧ fld v 18 16 ≤ 4 ∧ rdB s h R.FUSEPRG 30 = false ∧
       v.getLsbD 31 = true ∧ fusingOf s h = some (n, x))) ∧
    (let s : State := withCsr base [(R.DPLCTL 6, 0x81800000), (0x4000000 + R.DPLCTL 6, 0x81800000)]
     let m : Master := .mailbox 0
     let h : Hub := 0
     let v : W32 := 0x00200F64
     (live s h = true ∧ dplRuns s (1 - h.val) 6 = true ∧ live s (1 - h.val) = true ∧ asP0 s m = true ∧
       60 ≤ fld v 7 0 ∧ fld v 7 0 ≤ 110 ∧ leastDiv (fld v 11 8) ≤ fld v 25 24)) ∧
    (let s : State := powered .off
     s.pwr.power = .off) :=
  ⟨by decide +kernel,
   by decide +kernel,
   by decide +kernel⟩

/-- Hypotheses of ChopInstructions. -/
theorem test_witness_ChopInstructions :
    (let s : State := sChop (theChain 0) (natLe 64 0x53000000000000000000000000000000000000000000000000000000000000000000000000000000000000000000000000000000000000000000000700060001)
     let f : State := s
     let r : State := s
     let c : CoreId := c0
     let rd : Reg := 2
     let ra : Reg := 1
     let b : Bytes := rbs s (commonBase 0 + 0x2000) 64
     let g : State := (chopStatus r 0 0 b).1
     let st : Nat := (chopStatus r 0 0 b).2.1
     let reason : Nat := (chopStatus r 0 0 b).2.2
     let i : Instr := .chopOpen c rd ra
     let n := coreIx c
     let h := c.hub.val
     let k := getCore f n
     let p := corePart f n
     let op := leAt b 0 1
     let q := chopRing g h b
     (corePart r n = p ∧ chopOp s n ra = op ∧ chopStatus r h p b = (g, st, reason) ∧ (op = 1 ∧
       i = .chopOpen c rd ra) ∨ (op = 2 ∧ i = .chopBand c rd ra) ∨ (op = 3 ∧ i = .chopSeal c rd ra) ∨ (op = 4 ∧
       i = .chopClose c rd ra) ∧ st = 0 ∧ (ringQ g h q).length < 64 ∧ op = 1) ∧ Begins s f c [ra] [rd] false ∧
       bytesRead f n (k.gr ra) 64 = .ok (r, b)) ∧
    (let s : State := sChop (theChain 0) (natLe 64 0xee000000000000000000000000000000000000000000000000000000000000000000000000000000000000000000000000000000000000000000000700050001)
     let f : State := s
     let r : State := s
     let c : CoreId := c0
     let rd : Reg := 2
     let ra : Reg := 1
     let b : Bytes := rbs s (commonBase 0 + 0x2000) 64
     let g : State := (chopStatus r 0 0 b).1
     let st : Nat := (chopStatus r 0 0 b).2.1
     let reason : Nat := (chopStatus r 0 0 b).2.2
     let i : Instr := .chopOpen c rd ra
     let n := coreIx c
     let h := c.hub.val
     let k := getCore f n
     let p := corePart f n
     let op := leAt b 0 1
     (corePart r n = p ∧ chopOp s n ra = op ∧ chopStatus r h p b = (g, st, reason) ∧ (op = 1 ∧
       i = .chopOpen c rd ra) ∨ (op = 2 ∧ i = .chopBand c rd ra) ∨ (op = 3 ∧ i = .chopSeal c rd ra) ∨ (op = 4 ∧
       i = .chopClose c rd ra) ∧ st ≠ 0) ∧ Begins s f c [ra] [rd] false ∧ bytesRead f n (k.gr ra) 64 = .ok (r, b)) ∧
    (let s : State := sChop (theChain 0) (natLe 64 0xa7000000000000000000000000000000000000000000000000000000000000000000000000000000000000000000000300000000000000000000000900050002)
     let f : State := s
     let r : State := s
     let c : CoreId := c0
     let rd : Reg := 2
     let ra : Reg := 1
     let b : Bytes := rbs s (commonBase 0 + 0x2000) 64
     let g : State := (chopStatus r 0 0 b).1
     let st : Nat := (chopStatus r 0 0 b).2.1
     let reason : Nat := (chopStatus r 0 0 b).2.2
     let i : Instr := .chopBand c rd ra
     let n := coreIx c
     let h := c.hub.val
     let k := getCore f n
     let p := corePart f n
     let op := leAt b 0 1
     let q := chopRing g h b
     (corePart r n = p ∧ chopOp s n ra = op ∧ chopStatus r h p b = (g, st, reason) ∧ (op = 1 ∧
       i = .chopOpen c rd ra) ∨ (op = 2 ∧ i = .chopBand c rd ra) ∨ (op = 3 ∧ i = .chopSeal c rd ra) ∨ (op = 4 ∧
       i = .chopClose c rd ra) ∧ st = 0 ∧ (ringQ g h q).length < 64 ∧ op = 2) ∧ Begins s f c [ra] [rd] false ∧
       bytesRead f n (k.gr ra) 64 = .ok (r, b)) ∧
    (let s : State := sChop (theChain 0) (natLe 64 0xc9000000000000000000000000000000000000000000000000000000000000000000000000000000000000000000000000000000000000000000000000050003)
     let f : State := s
     let r : State := s
     let c : CoreId := c0
     let rd : Reg := 2
     let ra : Reg := 1
     let b : Bytes := rbs s (commonBase 0 + 0x2000) 64
     let g : State := (chopStatus r 0 0 b).1
     let st : Nat := (chopStatus r 0 0 b).2.1
     let reason : Nat := (chopStatus r 0 0 b).2.2
     let i : Instr := .chopSeal c rd ra
     let n := coreIx c
     let h := c.hub.val
     let k := getCore f n
     let p := corePart f n
     let op := leAt b 0 1
     let ch := leAt b 2 2
     let x := getChain g h ch
     let q := chopRing g h b
     (corePart r n = p ∧ chopOp s n ra = op ∧ chopStatus r h p b = (g, st, reason) ∧ (op = 1 ∧
       i = .chopOpen c rd ra) ∨ (op = 2 ∧ i = .chopBand c rd ra) ∨ (op = 3 ∧ i = .chopSeal c rd ra) ∨ (op = 4 ∧
       i = .chopClose c rd ra) ∧ st = 0 ∧ (ringQ g h q).length < 64 ∧ op = 3 ∧ x.cnt ≠ x.next) ∧
       Begins s f c [ra] [rd] false ∧ bytesRead f n (k.gr ra) 64 = .ok (r, b)) ∧
    (let s : State := sChop (theChain 0) (natLe 64 0xdc000000000000000000000000000000000000000000000000000000000000000000000000000000000000000000000000000000000000000000000000050004)
     let f : State := s
     let r : State := s
     let c : CoreId := c0
     let rd : Reg := 2
     let ra : Reg := 1
     let b : Bytes := rbs s (commonBase 0 + 0x2000) 64
     let g : State := (chopStatus r 0 0 b).1
     let st : Nat := (chopStatus r 0 0 b).2.1
     let reason : Nat := (chopStatus r 0 0 b).2.2
     let i : Instr := .chopClose c rd ra
     let n := coreIx c
     let h := c.hub.val
     let k := getCore f n
     let p := corePart f n
     let op := leAt b 0 1
     let q := chopRing g h b
     (corePart r n = p ∧ chopOp s n ra = op ∧ chopStatus r h p b = (g, st, reason) ∧ (op = 1 ∧
       i = .chopOpen c rd ra) ∨ (op = 2 ∧ i = .chopBand c rd ra) ∨ (op = 3 ∧ i = .chopSeal c rd ra) ∨ (op = 4 ∧
       i = .chopClose c rd ra) ∧ st = 0 ∧ (ringQ g h q).length < 64 ∧ op = 4) ∧ Begins s f c [ra] [rd] false ∧
       bytesRead f n (k.gr ra) 64 = .ok (r, b)) :=
  ⟨⟨by decide +kernel, begins_of (by decide +kernel), ok_of (by decide +kernel)⟩,
   ⟨by decide +kernel, begins_of (by decide +kernel), ok_of (by decide +kernel)⟩,
   ⟨by decide +kernel, begins_of (by decide +kernel), ok_of (by decide +kernel)⟩,
   ⟨by decide +kernel, begins_of (by decide +kernel), ok_of (by decide +kernel)⟩,
   ⟨by decide +kernel, begins_of (by decide +kernel), ok_of (by decide +kernel)⟩⟩

/-- Hypotheses of RecordsAndSeals. -/
theorem test_witness_RecordsAndSeals :
    (let s : State := sRing (fun e => { e with queue := [(0, [theReq .opened 5 32, theReq .opened 5 32])] })
     let h : Hub := 0
     let r : Fin 4 := 0
     let q : Req := (ringQ s 0 0).headD (theReq .seal 0 0)
     let rest : List Req := (ringQ s 0 0).drop 1
     let size := recSize q.len
     (serving s h = true ∧ ringEn s h r = true ∧ ringFailed s h r = false ∧ ringQ s h r = q :: rest ∧
       recoverOf s h r = none ∧ q.kind ≠ .seal ∧ q.chain < 1024 ∧ 0 < ringSize s h r ∧ needAt s h r size = size ∧
       roomFor s h size = true ∧ headReady s h r q = true ∧ rdB s h R.ECTL 30 = false ∧ borrowing s h = none)) ∧
    (let s : State := sRing (fun e => { e with signer := [⟨0, 5, 2, 77, [], true⟩] })
     let h : Hub := 0
     let e : SealReq := ⟨0, 5, 2, 77, [], true⟩
     let k : SealKey := theKey
     let y := getChain s h e.chain
     (serving s h = true ∧ s.evi.signer.find? (fun e => e.hub == h) = some e ∧ s.evi.key = some k ∧ y.ring < 4 ∧
       ringEn s h y.ring = true ∧ roomFor s h (needAt s h y.ring 192) = true)) ∧
    (let s : State := sRing (fun e => { e with reserved := [(0, [theReq .gap 5 0])] })
     let h : Hub := 0
     let r : Fin 4 := 0
     let q : Req := (reservedOf s 0 0).headD (theReq .seal 0 0)
     let g : State := (reqBody s 0 q).1
     let rest : List Req := []
     let body : Bytes := (reqBody s 0 q).2.1
     let bad : Bool := (reqBody s 0 q).2.2
     let w : State := (let y := getChain g 0 q.chain; let head := recSeal (recHead g 0 q.kind.code (b2n (bad || q.badsrc) + 2 * b2n q.foreign) q.chain q.n q.pos body.length y.rid q.seq.toNat q.aux.toNat); (storeRec (setReserved g 0 0 rest) 0 0 q.seq.toNat q.chain head body).1)
     let y := getChain g h q.chain
     let flags := b2n (bad || q.badsrc) + 2 * b2n q.foreign
     let head := recSeal (recHead g h q.kind.code flags q.chain q.n q.pos body.length y.rid q.seq.toNat q.aux.toNat)
     (serving s h = true ∧ reservedOf s h r = q :: rest ∧ q.chain < 1024 ∧ reqBody s h q = (g, body, bad) ∧
       storeRec (setReserved g h r rest) h r q.seq.toNat q.chain head body = (w, true))) :=
  ⟨by decide +kernel,
   by decide +kernel,
   by decide +kernel⟩

/-- Hypotheses of KeysRingsAndSegments. -/
theorem test_witness_KeysRingsAndSegments :
    (let s : State := withCsr (sRing id) [(R.ERCTL 0, 0x100)]
     let m : Master := .mailbox 0
     let h : Hub := 0
     let r : Fin 4 := 0
     let v : W32 := 0x80000100
     (live s h = true ∧ asP0 s m = true ∧ v.getLsbD 31 = true ∧ anyOpen s = true ∧ rdB s h (R.ERCTL r) 31 = false ∧
       fld v 12 0 % 2 = 0 ∧ 16 ≤ fld v 12 0 ∧ fld v 12 0 ≤ 4096 ∧ rdF s h R.WETLIM 12 0 + 8 ≤ fld v 12 0)) ∧
    (let s : State := sRing (fun e => { e with chains := [] })
     let m : Master := .mailbox 0
     let h : Hub := 0
     let v : W32 := 0x80000000
     let k : SealKey := theKey
     (live s h = true ∧ asP0 s m = true ∧ v.getLsbD 31 = true ∧ anyOpen s = false ∧ s.evi.key = some k ∧
       k.keyid.toNat < 0xFFFF)) ∧
    (let s : State := sBlob [1]
     let g : State := (mrd s 0 (skAddr s 0) 256).1
     let m : Master := .mailbox 0
     let h : Hub := 0
     let v : W32 := 0x40000000
     let b : Bytes := (mrd s 0 (skAddr s 0) 256).2.2
     (live s h = true ∧ asP0 s m = true ∧ v.getLsbD 31 = false ∧ v.getLsbD 30 = true ∧ mrd s h (skAddr s h) 256 = (g,
       .ok, b) ∧ blobGood b = false)) ∧
    (let s : State := sSegs [theSeg false] []
     let h : Hub := 0
     let r : Fin 4 := 0
     let t0 : Fin 8 := 0
     let x : Segment := (segsOf s 0 0).headD (theSeg false)
     let xs : List Segment := (segsOf s 0 0).drop 1
     (live s h = true ∧ strokeOf s h ≠ .finished ∧ segsOf s h r = x :: xs ∧ x.target = t0.val ∧ x.done = false ∧
       (∀ y ∈ xs, y.start ≠ x.start ∧ y.done = false) ∧
       memServes s h (rdF s h (R.CQBASEHI t0) 15 0 * 2 ^ 32 + (csr s h (R.CQBASELO t0)).toNat) = true ∧
       x.retried = false)) ∧
    (let s : State := sSegs [theSeg true] []
     let h : Hub := 0
     let r : Fin 4 := 0
     let t0 : Fin 8 := 0
     let x : Segment := (segsOf s 0 0).headD (theSeg false)
     let xs : List Segment := (segsOf s 0 0).drop 1
     (live s h = true ∧ strokeOf s h ≠ .finished ∧ segsOf s h r = x :: xs ∧ x.target = t0.val ∧ x.done = false ∧
       (∀ y ∈ xs, y.start ≠ x.start ∧ y.done = false) ∧
       memServes s h (rdF s h (R.CQBASEHI t0) 15 0 * 2 ^ 32 + (csr s h (R.CQBASELO t0)).toNat) = true ∧
       x.retried = true)) ∧
    (let s : State := sSegs [] [⟨0, 4096, 5⟩, ⟨4096, 128, 5⟩]
     let h : Hub := 0
     let r : Fin 4 := 0
     let t0 : Fin 8 := 0
     let x : Segment := (segsOf s 0 0).headD (theSeg false)
     (live s h = true ∧ bootOf s h ≠ .waitDry ∧ strokeOf s h ≠ .finished ∧ ringEn s h r = true ∧
       tgtServes s h r t0 = true ∧ adoptedInk s h = 0 ∧ tgtFull s h r t0 = false ∧ (∀ x ∈ segsOf s h r,
       x.target ≠ 8) ∧ ((segsOf s h r).filter (fun x => !x.done)).length < 16 ∧
       segmentDue s h r (nextSegment s h r).1 (nextSegment s h r).2 = true)) :=
  ⟨by decide +kernel,
   by decide +kernel,
   by decide +kernel,
   by decide +kernel,
   by decide +kernel,
   by decide +kernel⟩

/-- Hypotheses of StrokeAndMirror. -/
theorem test_witness_StrokeAndMirror :
    (let s : State := base
     let m : Master := .mailbox 0
     let h : Hub := 0
     let v : W32 := 0x80000000
     let ready : Prop := s.pwr.power = .on ∧ s.pwr.porn = true ∧ s.pwr.warmn = true ∧ ∀ j,
       hubInService s j = true → strokeOf s j = .none
     (live s h = true ∧ asP0 s m = true ∧ v.getLsbD 31 = true) ∧ ready) ∧
    (let s : State := base
     let m : Master := .mailbox 0
     let h : Hub := 0
     let v : W32 := 0x60000000
     (serving s h = true ∧ asP0 s m = true ∧ v.getLsbD 30 = true ∧ v.getLsbD 29 = true ∧ (∀ t < 8,
       rdB s h (R.TGT t) 31 = false))) ∧
    (let s : State := { base with evi := { base.evi with stroke := [(0, .running), (1, .finished)] }, pwr := { base.pwr with power := .stroke } }
     let h : Hub := 0
     (live s h = true ∧ strokeOf s h = .running ∧ bootOf s h ≠ .waitDry ∧ allDry s h = true ∧ s.evi.cause ≠ 2 ∧
       s.pwr.warmDue = false) ∧ (∀ j, j ≠ h.val → hubInService s j = true → strokeOf s j = .finished)) ∧
    (let s : State := sMirror
     let h : Hub := 0
     let hdr : BitVec 256 := 0
     let b := natLe 32 hdr.toNat
     let good : Prop := leAt b 28 4 = (crc32c (b.take 28)).toNat
     (live s h = true ∧ mirrorUp s h = true ∧ rdB s h R.MIRCTL 29 = true ∧ ¬ good)) ∧
    (let s : State := sMirror
     let h : Hub := 0
     let hdr : BitVec 256 := frameHead (mirFrame 2 1 5 100 0 [])
     let b := natLe 32 hdr.toNat
     let good : Prop := leAt b 28 4 = (crc32c (b.take 28)).toNat
     let num : W32 := BitVec.ofNat 32 (leAt b 4 4)
     let exp := mirRxOf s h
     (live s h = true ∧ mirrorUp s h = true ∧ rdB s h R.MIRCTL 29 = true ∧ good ∧ leAt b 0 1 = 2 ∧ num = exp)) ∧
    (let s : State := sMirror
     let h : Hub := 0
     let hdr : BitVec 256 := frameHead (mirFrame 2 1 6 100 0 [])
     let b := natLe 32 hdr.toNat
     let good : Prop := leAt b 28 4 = (crc32c (b.take 28)).toNat
     let num : W32 := BitVec.ofNat 32 (leAt b 4 4)
     let exp := mirRxOf s h
     (live s h = true ∧ mirrorUp s h = true ∧ rdB s h R.MIRCTL 29 = true ∧ good ∧ leAt b 0 1 < 3 ∧ num ≠ exp)) ∧
    (let s : State := sMirror
     let h : Hub := 0
     let hdr : BitVec 256 := frameHead (mirFrame 0 2 5 100 0 [1, 2, 3])
     let payload : Bytes := [1, 2, 3]
     let g : State := (let b := natLe 32 hdr.toNat; let z := leAt b 1 1 % 4; let a := mirBase s 0 + mirOffset (peerRingSize s 0) z + (if peerRingSize s 0 z = 0 then 0 else leAt b 8 8 % peerRingSize s 0 z); (mwr (setMirFail s 0 0) 0 none a payload).1)
     let b := natLe 32 hdr.toNat
     let good : Prop := leAt b 28 4 = (crc32c (b.take 28)).toNat
     let num : W32 := BitVec.ofNat 32 (leAt b 4 4)
     let z := leAt b 1 1 % 4
     let off := leAt b 8 8
     let a := mirBase s h + mirOffset (peerRingSize s h) z + (if peerRingSize s h z = 0 then 0 else off % peerRingSize s h z)
     let exp := mirRxOf s h
     (live s h = true ∧ mirrorUp s h = true ∧ rdB s h R.MIRCTL 29 = true ∧ good ∧ leAt b 0 1 = 0 ∧ num = exp ∧
       mwr (setMirFail s h 0) h none a payload = (g, .ok))) ∧
    (let s : State := sMirror
     let h : Hub := 0
     let hdr : BitVec 256 := frameHead (mirFrame 3 0 0 0 7 [])
     let b := natLe 32 hdr.toNat
     let good : Prop := leAt b 28 4 = (crc32c (b.take 28)).toNat
     (live s h = true ∧ mirrorUp s h = true ∧ rdB s h R.MIRCTL 29 = true ∧ good ∧ leAt b 0 1 = 3)) :=
  ⟨⟨by decide +kernel,
    ⟨by decide +kernel, by decide +kernel, by decide +kernel, fun j _ => no_stroke (by decide +kernel) j⟩⟩,
   by decide +kernel,
   ⟨by decide +kernel, finished_of (by decide +kernel)⟩,
   by decide +kernel,
   by decide +kernel,
   by decide +kernel,
   by decide +kernel,
   by decide +kernel⟩

/-- Hypotheses of MemoryUpkeep. -/
theorem test_witness_MemoryUpkeep :
    (let s : State := sUpkeep [(R.MCCFG 1, 0xA0200000), (R.MCINIT 1, 0x40000000)]
     let m : Master := .bootRom 0
     let h : Hub := 0
     let k : Fin 4 := 1
     let v : W32 := 0x80000001
     (live s h = true ∧ asP0 s m = true ∧ chanOk s h k = true ∧ v.getLsbD 31 = true ∧ chanState s h k = 2 ∧
       rdB s h (R.MCINIT k) 30 = true ∧ chanBytes s h k ≤ 0x800000000 ∧ (dbgFull s m = true ∨ m = .bootRom h) ∧
       rdB s h R.MEMCLR 31 = false ∧ fld v 6 0 ≠ 0 ∧ rdB s h R.JCTL 31 = false ∧ fld v 19 0 ≠ 0)) ∧
    (let s : State := sUpkeep [(R.MCCFG 1, 0x90200000)]
     let h : Hub := 0
     let k : Fin 4 := 1
     (live s h = true ∧ chanOk s h k = true ∧ chanState s h k = 1 ∧ bootOf s h ≠ .waitTrain ∧ s.svc.svcs = [])) ∧
    (let s : State := sUpkeep [(R.MCCFG 1, 0xA0010000), (R.MCSCRCTL 1, 0x40000000), (R.MCSCRPOS 1, 0xFFFFFF)]
     let h : Hub := 0
     let k : Fin 4 := 1
     let u : Fin 9 := 1
     let lines := chanBytes s h k / 64
     (live s h = true ∧ s.mem.bad = [] ∧ s.arr.bad = [] ∧ u.val = k.val ∧ rdF s h (R.MCSCRCTL k) 31 30 ≠ 0 ∧
       chanServes s h k = true ∧ 0 < lines ∧ lines ≤ 2 ^ 29)) ∧
    (let s : State := sUpkeep [(R.MEMCLR, 0x80000001)]
     let h : Hub := 0
     (live s h = true ∧ rdB s h R.MEMCLR 31 = true ∧ rdF s h R.MEMCLR 6 0 = 1)) ∧
    (let s : State := sUpkeep [(R.UMSCRCTL 0, 0x40000000), (R.UMSCRPOS 0, 0x3FFFF)]
     let h : Hub := 0
     let u : Fin 9 := 4
     (live s h = true ∧ s.mem.bad = [] ∧ s.arr.bad = [] ∧ 4 ≤ u.val ∧ u.val < 8 ∧
       rdF s h (R.UMSCRCTL (u.val - 4)) 31 30 ≠ 0)) ∧
    (let s : State := sUpkeep [(R.UMSCRCTL 4, 0x80000000), (R.UMSCRPOS 4, 0x5FFFFF)]
     let h : Hub := 0
     let u : Fin 9 := 8
     (live s h = true ∧ s.mem.bad = [] ∧ s.arr.bad = [] ∧ u = 8 ∧ rdF s h (R.UMSCRCTL 4) 31 30 ≠ 0 ∧ homed s h ≠ [])) ∧
    (let s : State := sUpkeep [(R.BTCTL, 0x8000000F), (R.BTPOSLO, 0x2000), (R.BTPOSHI, 0x0100)]
     let h : Hub := 0
     let who : BitVec 8 := 3
     let r : TRegion := (testerRegion s 0).getD ⟨0, 0, 0, none⟩
     (live s h = true ∧ testerOn s h = true ∧ testerRegion s h = some r ∧ s.mem.bad = [] ∧ s.arr.bad = [] ∧
       1 ≤ who.toNat ∧ who.toNat ≤ 6)) ∧
    (let s : State := sUpkeep [(R.BTCTL, 0x8000000F), (R.BTPOSLO, 0x2001), (R.BTPOSHI, 0x0100)]
     let h : Hub := 0
     (live s h = true ∧ testerOn s h = true ∧ testerRegion s h = none)) :=
  ⟨by decide +kernel,
   by decide +kernel,
   by decide +kernel,
   by decide +kernel,
   by decide +kernel,
   by decide +kernel,
   by decide +kernel,
   by decide +kernel⟩

/-- Hypotheses of LanesPortsAndOutsideAccesses. -/
theorem test_witness_LanesPortsAndOutsideAccesses :
    (let s : State := withCsr base [(R.LCTL 3, 0x81200001)]
     let m : Master := .mailbox 0
     let h : Hub := 0
     let lane : Fin 16 := 3
     let p : Fin 2 := 0
     let v : W32 := 0x82000000
     let lc := R.LCTL lane
     let mode := fld v 27 24
     let st (t : State) (o : Nat) : Nat := rdF t h o 3 0
     (live s h = true ∧ asP0 s m = true ∧ laneOk s h lane = true ∧ leadOf s h lane = none ∧ 1 ≤ mode ∧ mode ≤ 4 ∧
       rdB s h lc 31 = true ∧ rdF s h lc 27 24 ≠ mode ∧ st s lc = 1 ∧ 1 ≤ rdF s h lc 27 24 ∧ rdF s h lc 27 24 ≤ 6 ∧
       rdB s h R.RPCMD 30 = false ∧ fld v 24 24 = p.val ∧ v.getLsbD 31 = true ∧
       (asP0 s m = true ∨ masterPart s m = portPart s h p))) ∧
    (let s : State := withCsr base [(R.PCICFG, 0xE5101202), (R.PCISTAT, 0x2424), (R.TGT 1, 0x84000000), (R.RPCMD,
       0x41000000)]
     let m : Master := .mailbox 0
     let h : Hub := 0
     let lane : Fin 16 := 2
     let p : Fin 2 := 0
     let stat : BitVec 4 := 0
     let v : W32 := 0x81000000
     let lc := R.LCTL lane
     let mode := fld v 27 24
     (live s h = true ∧ asP0 s m = true ∧ laneOk s h lane = true ∧ leadOf s h lane = none ∧ 1 ≤ mode ∧ mode ≤ 4 ∧
       rdB s h lc 31 = false ∧ v.getLsbD 31 = true ∧ portUp s h p = true ∧ rdB s h R.RPCMD 30 = true ∧ stat.toNat ≤ 2)) ∧
    (let s : State := withCsr base [(R.LCTL 3, 0x81200001)]
     let m : Master := .mailbox 0
     let h : Hub := 0
     let lane : Fin 16 := 3
     let v : W32 := 0x01000000
     let lc := R.LCTL lane
     let mode := fld v 27 24
     (live s h = true ∧ asP0 s m = true ∧ laneOk s h lane = true ∧ leadOf s h lane = none ∧ 1 ≤ mode ∧ mode ≤ 4 ∧
       rdB s h lc 31 = true ∧ v.getLsbD 31 = false ∧ rdF s h lc 27 24 = mode)) ∧
    (let s : State := withCsr base [(R.LCTL 3, 0x82200002)]
     let h : Hub := 0
     let lane : Fin 16 := 3
     let lc := R.LCTL lane
     let st (t : State) (o : Nat) : Nat := rdF t h o 3 0
     (live s h = true ∧ isMac s h lane = true ∧ st s lc = 2)) ∧
    (let s : State := withCsr base [(R.PCICFG, 0xE3101202), (R.LCTL 3, 0x87200001)]
     let h : Hub := 0
     let lane : Fin 16 := 3
     let p : Fin 2 := 0
     let rate : BitVec 4 := 2
     let width : BitVec 4 := 1
     let lc := R.LCTL lane
     let st (t : State) (o : Nat) : Nat := rdF t h o 3 0
     (live s h = true ∧ laneOk s h lane = true ∧ rdB s h lc 31 = true ∧ st s lc = 1 ∧ rdF s h lc 27 24 = 7 ∧
       portOf s h lane = some p.val ∧ rate.toNat ≤ rdF s h R.PCICFG 1 0 ∧ width ∈ [1, 2, 4, (8 : BitVec 4)] ∧
       width.toNat ≤ laneWidth s h 7)) ∧
    (let s : State := sHost []
     let h : Hub := 0
     let p : Fin 2 := 1
     let a : BitVec 48 := 0x1001
     let len : BitVec 8 := 8
     let b : Bytes := [1, 2, 0, 4, 5, 6, 7, 8]
     let owned : Prop := ownsAddr s (portPart s h p) a.toNat = true ∧
       ownsAddr s (portPart s h p) (a.toNat + len.toNat - 1) = true
     (live s h = true ∧ rdB s h R.PCICFG 30 = true ∧ portUp s h p = true ∧ len ≠ 0 ∧ owned ∧ s.mem.bad = [] ∧
       a.toNat + len.toNat ≤ mainTop ∧ rangeServes s h a.toNat len.toNat = true ∧ b.length = len.toNat)) ∧
    (let s : State := sHost []
     let h : Hub := 0
     let p : Fin 2 := 0
     let a : BitVec 48 := 0x1001
     let len : BitVec 8 := 8
     let owned : Prop := ownsAddr s (portPart s h p) a.toNat = true ∧
       ownsAddr s (portPart s h p) (a.toNat + len.toNat - 1) = true
     (live s h = true ∧ rdB s h R.PCICFG 30 = true ∧ portUp s h p = true ∧ len ≠ 0 ∧ ¬ owned)) ∧
    (let s : State := sHost [(R.PCICFG, 0xA5101202)]
     let h : Hub := 0
     let off : BitVec 26 := BitVec.ofNat 26 R.PWRCTL
     (live s h = true ∧ rdB s h R.PCICFG 30 = false ∧ portUp s h 0 = true ∧ off = BitVec.ofNat 26 R.PWRCTL ∧
       tileIso s h tSYS = false)) ∧
    (let s : State := sHost [(R.PCICFG, 0xA5101202)]
     let h : Hub := 0
     let size : BitVec 4 := 4
     let off : BitVec 26 := 0xD00000
     (live s h = true ∧ rdB s h R.PCICFG 30 = false ∧ portUp s h 0 = true ∧ (size ≠ 4 ∧
       size ≠ 8 ∨ off.toNat % size.toNat ≠ 0 ∨ 0xD00000 ≤ off.toNat ∧ off.toNat < 0xE00000))) :=
  ⟨by decide +kernel,
   by decide +kernel,
   by decide +kernel,
   by decide +kernel,
   by decide +kernel,
   by decide +kernel,
   by decide +kernel,
   by decide +kernel,
   by decide +kernel⟩

/-- Hypotheses of FramesAndStreamTable. -/
theorem test_witness_FramesAndStreamTable :
    (let s : State := { sMac 20 1 [(R.PFC 3, 0x80FF0000), (R.LCTL 3, 0x81100002), (R.PCFG 0, 0xF), (R.PCFG 1, 0)] with lan := { base.lan with xoff := [(0, true)] } }
     let h : Hub := 0
     let n : Fin 16 := 3
     let fcs : Bool := true
     let f : Bytes := frameOf 0x0801 64 [1, 2, 3]
     let ok : Prop := fcs = true ∧ 60 ≤ f.length ∧ f.length ≤ 9212 ∧ badIp f = false
     let taken (g : RingRegs) : Prop := s.mem.bad = [] ∧ descAddr s h g + 32 ≤ mainTop ∧
       rangeServes s h (descAddr s h g) 32 = true ∧
       rb s (descAddr s h g + 31) = crc8 (rbs s (descAddr s h g) 31).reverse ∧
       (rb s (descAddr s h g + 10)).getLsbD 0 = true ∧ ringLen (rdF s h g.ctl 12 0) = true
     let rx := rxRegs n
     let tx := txRegs n
     let D := descAddr s h rx
     let B := littleEndian s D 6
     let n1 := Nat.min f.length (littleEndian s (D + 8) 2)
     let E := descAddr s h tx
     let C := littleEndian s E 6
     let n2 := littleEndian s (E + 8) 2
     let q := (rb s (E + 11)).toNat % 8
     (live s h = true ∧ serving s h = true ∧ macOf s h n = n ∧ isMac s h n = true ∧ rdF s h (R.LCTL n) 3 0 = 2 ∧ ok ∧
       beNat (sub f 12 2) ≠ 0x8808 ∧ rdB s h rx.ctl 31 = true ∧ taken rx ∧ 0 < n1 ∧ B + n1 ≤ mainTop ∧
       rangeServes s h B n1 = true ∧ (B + n1 ≤ D ∨ D + 32 ≤ B) ∧ rdB s h tx.ctl 31 = true ∧ taken tx ∧
       rangeServes s h C n2 = true ∧ C + n2 ≤ mainTop ∧ (pausedOf s h n).getLsbD q = false ∧ xoffNow s h = true ∧
       pacesE s h n = true) ∧ (∀ p, parse f = some p → matchStream s h n p = none)) ∧
    (let s : State := { sMac 20 1 [(R.PFC 3, 0x80FF0000)] with lan := { base.lan with paused := [(3, 0x06)] } }
     let h : Hub := 0
     let n : Fin 16 := 3
     let fcs : Bool := true
     let f : Bytes := frameOf 0x8808 64 [0x0101, 5, 9, 9, 0, 0]
     let ok : Prop := fcs = true ∧ 60 ≤ f.length ∧ f.length ≤ 9212 ∧ badIp f = false
     let taken (g : RingRegs) : Prop := s.mem.bad = [] ∧ descAddr s h g + 32 ≤ mainTop ∧
       rangeServes s h (descAddr s h g) 32 = true ∧
       rb s (descAddr s h g + 31) = crc8 (rbs s (descAddr s h g) 31).reverse ∧
       (rb s (descAddr s h g + 10)).getLsbD 0 = true ∧ ringLen (rdF s h g.ctl 12 0) = true
     let tx := txRegs n
     let E := descAddr s h tx
     let C := littleEndian s E 6
     let n2 := littleEndian s (E + 8) 2
     let q := (rb s (E + 11)).toNat % 8
     (live s h = true ∧ serving s h = true ∧ macOf s h n = n ∧ isMac s h n = true ∧ rdF s h (R.LCTL n) 3 0 = 2 ∧ ok ∧
       beNat (sub f 12 2) = 0x8808 ∧ beNat (sub f 14 2) = 0x0101 ∧ rdB s h tx.ctl 31 = true ∧ taken tx ∧
       rangeServes s h C n2 = true ∧ C + n2 ≤ mainTop ∧ (pausedOf s h n).getLsbD q = true)) ∧
    (let s : State := sMac 100 0 []
     let h : Hub := 0
     let n : Fin 16 := 3
     let fcs : Bool := false
     let f : Bytes := frameOf 0x0801 64 [1, 2, 3]
     let ok : Prop := fcs = true ∧ 60 ≤ f.length ∧ f.length ≤ 9212 ∧ badIp f = false
     (live s h = true ∧ serving s h = true ∧ macOf s h n = n ∧ isMac s h n = true ∧ rdF s h (R.LCTL n) 3 0 = 2 ∧ ¬ ok)) ∧
    (let s : State := sMac 100 0 [(R.RXSIZE 3, 0x10)]
     let h : Hub := 0
     let n : Fin 16 := 3
     let fcs : Bool := true
     let f : Bytes := frameOf 0x0801 64 [1, 2, 3]
     let ok : Prop := fcs = true ∧ 60 ≤ f.length ∧ f.length ≤ 9212 ∧ badIp f = false
     let rx := rxRegs n
     (live s h = true ∧ serving s h = true ∧ macOf s h n = n ∧ isMac s h n = true ∧ rdF s h (R.LCTL n) 3 0 = 2 ∧ ok ∧
       beNat (sub f 12 2) ≠ 0x8808 ∧ rdB s h rx.ctl 31 = false) ∧ (∀ p, parse f = some p → matchStream s h n p = none)) ∧
    (let s : State := sStreamTable streamEntry
     let m : Master := .mailbox 0
     let h : Hub := 0
     let half : Fin 2 := 0
     let v : W32 := 0x90050000
     let ix := fld v 25 16
     let a := rdF s h (R.STBASEHI half) 15 0 * 2 ^ 32 + (csr s h (R.STBASELO half)).toNat / 64 * 64 + 64 * ix
     let e := rbs s a 64
     let good : Prop := byteAt e 63 = crc8 (e.take 63).reverse
     (live s h = true ∧ asP0 s m = true ∧ v.getLsbD 31 = true ∧ fld v 29 28 = 1 ∧ s.mem.bad = [] ∧ a + 64 ≤ mainTop ∧
       rangeServes s h a 64 = true ∧ good ∧ entryOk s half e = true ∧ (∀ o ∈ streamsOf s h,
       o.1 ≠ streamKey h half ix → sameKey o.2 e = false) ∧ entryRefs s h half e = true)) ∧
    (let s : State := sStreamTable streamEntry
     let m : Master := .mailbox 0
     let h : Hub := 0
     let v : W32 := 0xA0050000
     (live s h = true ∧ asP0 s m = true ∧ v.getLsbD 31 = true ∧ fld v 29 28 = 2)) ∧
    (let s : State := sStreamTable (streamEntry.set 5 1)
     let m : Master := .mailbox 0
     let h : Hub := 0
     let half : Fin 2 := 0
     let v : W32 := 0x90050000
     let ix := fld v 25 16
     let a := rdF s h (R.STBASEHI half) 15 0 * 2 ^ 32 + (csr s h (R.STBASELO half)).toNat / 64 * 64 + 64 * ix
     let e := rbs s a 64
     let good : Prop := byteAt e 63 = crc8 (e.take 63).reverse
     (live s h = true ∧ asP0 s m = true ∧ v.getLsbD 31 = true ∧ fld v 29 28 = 1 ∧ s.mem.bad = [] ∧ a + 64 ≤ mainTop ∧
       rangeServes s h a 64 = true ∧ ¬ good)) ∧
    (let s : State := sStreamTable badEntry
     let m : Master := .mailbox 0
     let h : Hub := 0
     let half : Fin 2 := 0
     let v : W32 := 0x90050000
     let ix := fld v 25 16
     let a := rdF s h (R.STBASEHI half) 15 0 * 2 ^ 32 + (csr s h (R.STBASELO half)).toNat / 64 * 64 + 64 * ix
     let e := rbs s a 64
     let good : Prop := byteAt e 63 = crc8 (e.take 63).reverse
     (live s h = true ∧ asP0 s m = true ∧ v.getLsbD 31 = true ∧ fld v 29 28 = 1 ∧ s.mem.bad = [] ∧ a + 64 ≤ mainTop ∧
       rangeServes s h a 64 = true ∧ good ∧ entryOk s half e = false)) :=
  ⟨⟨by decide +kernel, no_packet (by decide +kernel)⟩,
   by decide +kernel,
   by decide +kernel,
   ⟨by decide +kernel, no_packet (by decide +kernel)⟩,
   by decide +kernel,
   by decide +kernel,
   by decide +kernel,
   by decide +kernel⟩

/-- Hypotheses of RegisterWrites. -/
theorem test_witness_RegisterWrites :
    (let s : State := base
     let m : Master := .mailbox 0
     let h : Hub := 0
     let off : BitVec 26 := BitVec.ofNat 26 (R.TVECLO 0)
     let v : W32 := 0xFFFFFFFF
     let d : RegDesc := ((findReg off.toNat).getD (⟨0, 0, 0, 0, 0, 0, 0, []⟩, 0, 0, 0)).1
     let i : Nat := ((findReg off.toNat).getD (⟨0, 0, 0, 0, 0, 0, 0, []⟩, 0, 0, 0)).2.1
     let j : Nat := ((findReg off.toNat).getD (⟨0, 0, 0, 0, 0, 0, 0, []⟩, 0, 0, 0)).2.2.1
     let k : Nat := ((findReg off.toNat).getD (⟨0, 0, 0, 0, 0, 0, 0, []⟩, 0, 0, 0)).2.2.2
     let eh := (masterHub m).getD h.val
     let o := off.toNat
     let old := csr s h o
     (live s eh = true ∧ hostBarred m o = false ∧ mayPost s m = true ∧ o % 4 = 0 ∧ csrOk s m eh h o = true ∧
       o ≠ R.BOOTCTL ∧ findReg o = some (d, i, j, k) ∧ csrHook s m h d i j k v = none ∧ mayWrite s m h d i = true ∧
       csrLegal s h d i j old v = true ∧
       (d.base = R.TVECLO 0 ∨ d.base = R.WINCTL 0 0 ∨ d.base = R.EDGECFG 0 ∨ d.base = R.LTS 0)) ∧ (∀ c,
       (getCore s c).stepReq = false) ∧ (∀ c, bootOf s c ≠ .waitKeep)) ∧
    (let s : State := base
     let m : Master := .mailbox 0
     let h : Hub := 0
     let off : BitVec 26 := BitVec.ofNat 26 0x0FFFFC
     let eh := (masterHub m).getD h.val
     let o := off.toNat
     (live s eh = true ∧ hostBarred m o = false ∧ mayPost s m = true ∧ o % 4 = 0 ∧ csrOk s m eh h o = true ∧
       o ≠ R.BOOTCTL ∧ findReg o = none) ∧ (∀ c, (getCore s c).stepReq = false) ∧ (∀ c, bootOf s c ≠ .waitKeep)) ∧
    (let s : State := base
     let m : Master := .mailbox 0
     let h : Hub := 0
     let off : BitVec 26 := BitVec.ofNat 26 0xD00000
     let eh := (masterHub m).getD h.val
     let o := off.toNat
     (live s eh = true ∧ hostBarred m o = false ∧ mayPost s m = true ∧ o % 4 = 0 ∧ csrOk s m eh h o = false) ∧ (∀ c,
       (getCore s c).stepReq = false) ∧ (∀ c, bootOf s c ≠ .waitKeep)) ∧
    (let s : State := base
     let m : Master := .mailbox 0
     let h : Hub := 0
     let off : BitVec 26 := BitVec.ofNat 26 1048576
     let v : W32 := 0xFFFFFFFF
     let d : RegDesc := ((findReg off.toNat).getD (⟨0, 0, 0, 0, 0, 0, 0, []⟩, 0, 0, 0)).1
     let i : Nat := ((findReg off.toNat).getD (⟨0, 0, 0, 0, 0, 0, 0, []⟩, 0, 0, 0)).2.1
     let j : Nat := ((findReg off.toNat).getD (⟨0, 0, 0, 0, 0, 0, 0, []⟩, 0, 0, 0)).2.2.1
     let k : Nat := ((findReg off.toNat).getD (⟨0, 0, 0, 0, 0, 0, 0, []⟩, 0, 0, 0)).2.2.2
     let eh := (masterHub m).getD h.val
     let o := off.toNat
     let old := csr s h o
     (live s eh = true ∧ hostBarred m o = false ∧ mayPost s m = true ∧ o % 4 = 0 ∧ csrOk s m eh h o = true ∧
       o ≠ R.BOOTCTL ∧ findReg o = some (d, i, j, k) ∧ csrHook s m h d i j k v = none ∧ mayWrite s m h d i = true ∧
       csrLegal s h d i j old v = false ∧ d.base ≠ R.MBDB ∧ d.base ≠ R.PATCHRAM 0) ∧ (∀ c,
       (getCore s c).stepReq = false) ∧ (∀ c, bootOf s c ≠ .waitKeep)) ∧
    (let s : State := base
     let m : Master := .mailbox 3
     let h : Hub := 0
     let off : BitVec 26 := BitVec.ofNat 26 (R.TVECLO 0)
     let v : W32 := 0xFFFFFFFF
     let d : RegDesc := ((findReg off.toNat).getD (⟨0, 0, 0, 0, 0, 0, 0, []⟩, 0, 0, 0)).1
     let i : Nat := ((findReg off.toNat).getD (⟨0, 0, 0, 0, 0, 0, 0, []⟩, 0, 0, 0)).2.1
     let j : Nat := ((findReg off.toNat).getD (⟨0, 0, 0, 0, 0, 0, 0, []⟩, 0, 0, 0)).2.2.1
     let k : Nat := ((findReg off.toNat).getD (⟨0, 0, 0, 0, 0, 0, 0, []⟩, 0, 0, 0)).2.2.2
     let eh := (masterHub m).getD h.val
     let o := off.toNat
     (live s eh = true ∧ hostBarred m o = false ∧ mayPost s m = true ∧ o % 4 = 0 ∧ csrOk s m eh h o = true ∧
       o ≠ R.BOOTCTL ∧ findReg o = some (d, i, j, k) ∧ csrHook s m h d i j k v = none ∧ mayWrite s m h d i = false) ∧
       (∀ c, (getCore s c).stepReq = false) ∧ (∀ c, bootOf s c ≠ .waitKeep)) :=
  ⟨⟨by decide +kernel, no_step (by decide +kernel), no_keep (by decide +kernel)⟩,
   ⟨by decide +kernel, no_step (by decide +kernel), no_keep (by decide +kernel)⟩,
   ⟨by decide +kernel, no_step (by decide +kernel), no_keep (by decide +kernel)⟩,
   ⟨by decide +kernel, no_step (by decide +kernel), no_keep (by decide +kernel)⟩,
   ⟨by decide +kernel, no_step (by decide +kernel), no_keep (by decide +kernel)⟩⟩

/-- Hypotheses of MailboxCommands. -/
theorem test_witness_MailboxCommands :
    (let h : Hub := 0
     let slot : Fin 8 := 2
     let x : Bell := ⟨2, 0, true⟩
     let b : Bytes := natLe 64 0x7000000000000000000000000000000000000000000000000000000000000000000000000000000000000000000000000000000000000000000000000000001
     let s : State := ringSlot base x.part b
     let op := (byteAt b 0).toNat
     (strokeOf s h = .none ∧ op = 0x01 ∧ argsClean b [] = true) ∧ MbFront s h slot x b) ∧
    (let h : Hub := 0
     let slot : Fin 8 := 2
     let x : Bell := ⟨2, 0, true⟩
     let b : Bytes := natLe 64 0x7000000000000000000000000000000000000000000000000000000000000000000000000000000000000000000000000000000000000000000000000000001
     let s : State := ringSlot { base with evi := { base.evi with stroke := [(0, .running)] } } x.part b
     let op := (byteAt b 0).toNat
     (strokeOf s h ≠ .none ∧ op = 0x01 ∧ argsClean b [] = true) ∧ MbFront s h slot x b) ∧
    (let h : Hub := 0
     let slot : Fin 8 := 2
     let x : Bell := ⟨2, 0, true⟩
     let b : Bytes := natLe 64 0x6f000000000000000000000000000000000000000000000000000000000000000000000000000000000000000000000000000000000001000000000000000001
     let s : State := ringSlot base x.part b
     let op := (byteAt b 0).toNat
     (op = 0x01 ∧ argsClean b [] = false) ∧ MbFront s h slot x b) ∧
    (let h : Hub := 0
     let slot : Fin 8 := 2
     let x : Bell := ⟨2, 0, true⟩
     let b : Bytes := natLe 64 0x7e000000000000000000000000000000000000000000000000000000000000000000000000000000000000000000000000000000000000000000000000000012
     let s : State := ringSlot base x.part b
     let op := (byteAt b 0).toNat
     op = 0x12 ∧ MbFront s h slot x b ∧ MbServed s h) ∧
    (let h : Hub := 0
     let slot : Fin 8 := 2
     let x : Bell := ⟨2, 0, true⟩
     let b : Bytes := natLe 64 0x7e000000000000000000000000000000000000000000000000000000000000000000000000000000000000000000000000000000000000000000000000000012
     let s : State := ringSlot { base with evi := { base.evi with stroke := [(0, .running)] } } x.part b
     let op := (byteAt b 0).toNat
     (strokeOf s h ≠ .none ∧ op = 0x12) ∧ MbFront s h slot x b) ∧
    (let h : Hub := 0
     let slot : Fin 8 := 2
     let x : Bell := ⟨2, 0, true⟩
     let b : Bytes := natLe 64 0x7e000000000000000000000000000000000000000000000000000000000000000000000000000000000000000000000000000000000000000000000000000012
     let s : State := ringSlot (sWait .waitImage []) x.part b
     let op := (byteAt b 0).toNat
     (strokeOf s h = .none ∧ bootOf s h ≠ .done ∧ op = 0x12) ∧ MbFront s h slot x b) ∧
    (let h : Hub := 0
     let slot : Fin 8 := 2
     let x : Bell := ⟨2, 0, true⟩
     let b : Bytes := (natLe 64 0x7000000000000000000000000000000000000000000000000000000000000000000000000000000000000000000000000000000000000000000000000000001).set 63 0xEE
     let s : State := ringSlot base x.part b
     let op := (byteAt b 0).toNat
     (live s h = true ∧ frontBell s h slot = some x ∧ cmdBytes s h slot = b ∧ byteAt b 63 ≠ crc8 (b.take 63).reverse ∧
       op = 0x01)) ∧
    (let h : Hub := 0
     let slot : Fin 8 := 2
     let x : Bell := ⟨2, 0, true⟩
     let b : Bytes := (natLe 64 0x7e000000000000000000000000000000000000000000000000000000000000000000000000000000000000000000000000000000000000000000000000000012).set 63 0xEE
     let s : State := ringSlot base x.part b
     let op := (byteAt b 0).toNat
     (live s h = true ∧ frontBell s h slot = some x ∧ cmdBytes s h slot = b ∧ byteAt b 63 ≠ crc8 (b.take 63).reverse ∧
       op = 0x12)) ∧
    (let h : Hub := 0
     let slot : Fin 8 := 2
     let x : Bell := ⟨2, 0, true⟩
     let b : Bytes := (natLe 64 0x9e000000000000000000000000000000000000000000000000000000000000000000000000000000000000000000000000000000000000000000000000000032).set 63 0xEE
     let s : State := ringSlot base x.part b
     let op := (byteAt b 0).toNat
     (live s h = true ∧ frontBell s h slot = some x ∧ cmdBytes s h slot = b ∧ byteAt b 63 ≠ crc8 (b.take 63).reverse ∧
       op = 0x32)) ∧
    (let h : Hub := 0
     let slot : Fin 8 := 2
     let x : Bell := ⟨2, 0, true⟩
     let b : Bytes := natLe 64 0xfb000000000000000000000000000000000000000000000000000000000000000000000000000000000000000000000000000400000001000000000000000002
     let s : State := ringSlot base x.part b
     let op := (byteAt b 0).toNat
     let off := leAt b 8 4
     let j := leAt b 12 1
     (strokeOf s h = .none ∧ op = 0x02 ∧ off = R.PWRCTL ∧ j < 2 ∧ leAt b 13 1 = 4 ∧ reach s h j = true ∧
       tileIso s j tSYS = false) ∧ MbFront s h slot x b) ∧
    (let h : Hub := 0
     let slot : Fin 8 := 2
     let x : Bell := ⟨2, 0, true⟩
     let b : Bytes := natLe 64 0x18000000000000000000000000000000000000000000000000000000000000000000000000000000000000000000000000000400000000030000000000000002
     let s : State := ringSlot base x.part b
     let op := (byteAt b 0).toNat
     let off := leAt b 8 4
     (strokeOf s h = .none ∧ op = 0x02 ∧ off % 4 ≠ 0) ∧ MbFront s h slot x b) ∧
    (let h : Hub := 0
     let slot : Fin 8 := 2
     let x : Bell := ⟨2, 0, true⟩
     let b : Bytes := natLe 64 0xe4000000000000000000000000000000000000000000000000000000000000000000000000000000000000000000000000000000000000000000000008070077
     let s : State := ringSlot base x.part b
     let op := (byteAt b 0).toNat
     mbAssigned op = false ∧ MbFront s h slot x b) ∧
    (let h : Hub := 0
     let slot : Fin 8 := 2
     let x : Bell := ⟨2, 0, true⟩
     let b : Bytes := natLe 64 0x8e000000000000000000000000000000000000000000000000000000000000000000000000000000000000001234567800000400005000000000000000000003
     let s : State := ringSlot base x.part b
     let op := (byteAt b 0).toNat
     let off := leAt b 8 4
     let j := leAt b 12 1
     (op = 0x03 ∧ off = R.TVECLO 0 ∧ j < 2 ∧ leAt b 13 1 = 4 ∧ x.part = 0 ∧ reach s h j = true ∧
       csrAnswers s (.mailbox 0) j off = true) ∧ MbFront s h slot x b ∧ MbServed s h) ∧
    (let h : Hub := 0
     let slot : Fin 8 := 2
     let x : Bell := ⟨2, 0, true⟩
     let b : Bytes := natLe 64 0x20000000000000000000000000000000000000000000000000000000000000000000000000000000000000000000000000000000000003ff0000000000000031
     let s : State := ringSlot base x.part b
     let op := (byteAt b 0).toNat
     (op = 0x31 ∧ argsClean b [(8, 2), (10, 1)] = true ∧ hubArg s (leAt b 10 1) = true ∧ leAt b 8 2 < 1024) ∧
       MbFront s h slot x b ∧ MbServed s h) ∧
    (let h : Hub := 0
     let slot : Fin 8 := 2
     let x : Bell := ⟨2, 0, true⟩
     let b : Bytes := natLe 64 0x8d000000000000000000000000000000000000000000000000000000000000000000000000000000000000000000006300000012345678900000000000000040
     let s : State := ringSlot base x.part b
     let op := (byteAt b 0).toNat
     (op = 0x40 ∧ argsClean b [(8, 8), (16, 8), (24, 1)] = true ∧ hubArg s (leAt b 24 1) = true ∧
       reach s h (leAt b 24 1) = true ∧ pathAccepts s (leAt b 24 1) (mbTok b x.part) = true) ∧ MbFront s h slot x b ∧
       MbServed s h) ∧
    (let h : Hub := 0
     let slot : Fin 8 := 2
     let x : Bell := ⟨2, 3, true⟩
     let b : Bytes := natLe 64 0x18000000000000000000000000000000000000000000000000000000000000000000000000000000000000000000000000000000000001000000000000000010
     let s : State := ringSlot base x.part b
     let op := (byteAt b 0).toNat
     (op = 0x10 ∧ x.part ≠ 0 ∧ leAt b 9 1 = 1) ∧ MbFront s h slot x b) :=
  ⟨⟨by decide +kernel, by unfold MbFront; decide +kernel⟩,
   ⟨by decide +kernel, by unfold MbFront; decide +kernel⟩,
   ⟨by decide +kernel, by unfold MbFront; decide +kernel⟩,
   ⟨by decide +kernel, by unfold MbFront; decide +kernel, by unfold MbServed; decide +kernel⟩,
   ⟨by decide +kernel, by unfold MbFront; decide +kernel⟩,
   ⟨by decide +kernel, by unfold MbFront; decide +kernel⟩,
   by decide +kernel,
   by decide +kernel,
   by decide +kernel,
   ⟨by decide +kernel, by unfold MbFront; decide +kernel⟩,
   ⟨by decide +kernel, by unfold MbFront; decide +kernel⟩,
   ⟨by decide +kernel, by unfold MbFront; decide +kernel⟩,
   ⟨by decide +kernel, by unfold MbFront; decide +kernel, by unfold MbServed; decide +kernel⟩,
   ⟨by decide +kernel, by unfold MbFront; decide +kernel, by unfold MbServed; decide +kernel⟩,
   ⟨by decide +kernel, by unfold MbFront; decide +kernel, by unfold MbServed; decide +kernel⟩,
   ⟨by decide +kernel, by unfold MbFront; decide +kernel⟩⟩

/-- Hypotheses of PartitionsAndService. -/
theorem test_witness_PartitionsAndService :
    (let h : Hub := 0
     let slot : Fin 8 := 2
     let x : Bell := ⟨2, 0, true⟩
     let b : Bytes := natLe 64 0xea000000000000000000000000000000000000000000000000000000000000000000000000000000000000000000000000000000000001020000000000000010
     let s : State := ringSlot sUnowned 0 b
     let op := (byteAt b 0).toNat
     let p := leAt b 8 1
     let part (k : Nat) : Prop := op = 0x10 ∧ leAt b 9 1 = k ∧ p < 8 ∧ leAt b 10 1 < 2
     (x.part = 0 ∧ part 1 ∧ rdB s 0 (R.PCFG p) 31 = false) ∧ MbFront s h slot x b ∧ MbServed s h) ∧
    (let h : Hub := 0
     let slot : Fin 8 := 2
     let x : Bell := ⟨2, 0, true⟩
     let b : Bytes := natLe 64 0x8c000000000000000000000000000000000000000000000000000000000000000000000000000000000000000000000000000000000101030000000000000010
     let s : State := ringSlot sUnowned 0 b
     let op := (byteAt b 0).toNat
     let p := leAt b 8 1
     let part (k : Nat) : Prop := op = 0x10 ∧ leAt b 9 1 = k ∧ p < 8 ∧ leAt b 10 1 < 2
     (x.part = 0 ∧ part 1 ∧ rdB s 0 (R.PCFG p) 31 = true) ∧ MbFront s h slot x b ∧ MbServed s h) ∧
    (let h : Hub := 0
     let slot : Fin 8 := 2
     let x : Bell := ⟨2, 0, true⟩
     let b : Bytes := natLe 64 0x6a000000000000000000000000000000000000000000000000000000000000000000000000000000000000000000000500000000000004030000000000000010
     let s : State := ringSlot sUnowned 0 b
     let op := (byteAt b 0).toNat
     let p := leAt b 8 1
     let jp := leAt b 11 1
     let chans : W32 := BitVec.ofNat 32 (leAt b 16 1 % 16)
     let part (k : Nat) : Prop := op = 0x10 ∧ leAt b 9 1 = k ∧ p < 8 ∧ leAt b 10 1 < 2
     (x.part = 0 ∧ part 4 ∧ hubArg s jp = true ∧ (∀ k < 4,
       chans.getLsbD k = true → windowUsed s jp k false = false)) ∧ MbFront s h slot x b ∧ MbServed s h) ∧
    (let h : Hub := 0
     let slot : Fin 8 := 2
     let x : Bell := ⟨2, 0, true⟩
     let b : Bytes := natLe 64 0x32000000000000000000000000000000000000000000000000000000000000000000000000000000000000000000000000000006000003030000000000000010
     let s : State := ringSlot (coresOut [1, 2] sUnowned) 0 b
     let op := (byteAt b 0).toNat
     let p := leAt b 8 1
     let jp := leAt b 11 1
     let mask : W32 := BitVec.ofNat 32 (leAt b 12 4)
     let part (k : Nat) : Prop := op = 0x10 ∧ leAt b 9 1 = k ∧ p < 8 ∧ leAt b 10 1 < 2
     (x.part = 0 ∧ part 3 ∧ hubArg s jp = true ∧ rdB s 0 (R.PCFG p) 31 = true ∧ (∀ c < 32,
       mask.getLsbD c = true → (getCore s (32 * jp + c)).rstate = .out)) ∧ MbFront s h slot x b ∧ MbServed s h) ∧
    (let h : Hub := 0
     let slot : Fin 8 := 2
     let x : Bell := ⟨2, 0, true⟩
     let b : Bytes := natLe 64 0x56000000000000000000000000000000000000000000000000000000000000000000000000000000000000000000000000000000ff0100010000000000000011
     let s : State := ringSlot (sSheet1 .idle) 0 b
     let op := (byteAt b 0).toNat
     let j := leAt b 9 1
     let i := leAt b 10 1
     let svc (k : Nat) : Prop := op = 0x11 ∧ leAt b 8 1 = k ∧ j < 2 ∧ svcPresent s k j i = true ∧
       svcCode s h k j i (leAt b 11 1) ((byteAt b 12).getLsbD 1) = 0
     (x.part = 0 ∧ svc 1 ∧ leAt b 11 1 = 0xFF) ∧ MbFront s h slot x b ∧ MbServed s h) ∧
    (let h : Hub := 0
     let slot : Fin 8 := 2
     let x : Bell := ⟨2, 0, true⟩
     let b : Bytes := natLe 64 0x9a000000000000000000000000000000000000000000000000000000000000000000000000000000000000000000000000000000000100020000000000000011
     let s : State := ringSlot (sSheet1 .evac) 0 b
     let op := (byteAt b 0).toNat
     let j := leAt b 9 1
     let i := leAt b 10 1
     let svc (k : Nat) : Prop := op = 0x11 ∧ leAt b 8 1 = k ∧ j < 2 ∧ svcPresent s k j i = true ∧
       svcCode s h k j i (leAt b 11 1) ((byteAt b 12).getLsbD 1) = 0
     (x.part = 0 ∧ svc 2) ∧ MbFront s h slot x b ∧ MbServed s h) ∧
    (let h : Hub := 0
     let slot : Fin 8 := 2
     let x : Bell := ⟨2, 0, true⟩
     let b : Bytes := natLe 64 0xe3000000000000000000000000000000000000000000000000000000000000000000000000000000000000000000000000000000000100030000000000000011
     let s : State := ringSlot (sSheet1 .evac) 0 b
     let op := (byteAt b 0).toNat
     let j := leAt b 9 1
     let i := leAt b 10 1
     let svc (k : Nat) : Prop := op = 0x11 ∧ leAt b 8 1 = k ∧ j < 2 ∧ svcPresent s k j i = true ∧
       svcCode s h k j i (leAt b 11 1) ((byteAt b 12).getLsbD 1) = 0
     (x.part = 0 ∧ svc 3) ∧ MbFront s h slot x b ∧ MbServed s h) ∧
    (let h : Hub := 0
     let slot : Fin 8 := 2
     let x : Bell := ⟨2, 0, true⟩
     let b : Bytes := natLe 64 0x8b000000000000000000000000000000000000000000000000000000000000000000000000000000000000000000000000000000000100040000000000000011
     let s : State := ringSlot (sSheet1 .evac) 0 b
     let op := (byteAt b 0).toNat
     let j := leAt b 9 1
     let i := leAt b 10 1
     let svc (k : Nat) : Prop := op = 0x11 ∧ leAt b 8 1 = k ∧ j < 2 ∧ svcPresent s k j i = true ∧
       svcCode s h k j i (leAt b 11 1) ((byteAt b 12).getLsbD 1) = 0
     (x.part = 0 ∧ svc 4) ∧ MbFront s h slot x b ∧ MbServed s h) ∧
    (let h : Hub := 0
     let slot : Fin 8 := 2
     let x : Bell := ⟨2, 0, true⟩
     let b : Bytes := natLe 64 0xed000000000000000000000000000000000000000000000000000000000000000000000000000000000000000000000000000000000000050000000000000011
     let s : State := ringSlot (sSheet1 .idle) 0 b
     let op := (byteAt b 0).toNat
     let j := leAt b 9 1
     let i := leAt b 10 1
     let svc (k : Nat) : Prop := op = 0x11 ∧ leAt b 8 1 = k ∧ j < 2 ∧ svcPresent s k j i = true ∧
       svcCode s h k j i (leAt b 11 1) ((byteAt b 12).getLsbD 1) = 0
     (x.part = 0 ∧ svc 5) ∧ MbFront s h slot x b ∧ MbServed s h) ∧
    (let h : Hub := 0
     let slot : Fin 8 := 2
     let x : Bell := ⟨2, 0, true⟩
     let b : Bytes := natLe 64 0x47000000000000000000000000000000000000000000000000000000000000000000000000000000000000000000000000000000000300060000000000000011
     let s : State := ringSlot (coresOut [3] base) 0 b
     let op := (byteAt b 0).toNat
     let j := leAt b 9 1
     let i := leAt b 10 1
     let svc (k : Nat) : Prop := op = 0x11 ∧ leAt b 8 1 = k ∧ j < 2 ∧ svcPresent s k j i = true ∧
       svcCode s h k j i (leAt b 11 1) ((byteAt b 12).getLsbD 1) = 0
     (x.part = 0 ∧ svc 6) ∧ MbFront s h slot x b ∧ MbServed s h) ∧
    (let h : Hub := 0
     let slot : Fin 8 := 2
     let x : Bell := ⟨2, 0, true⟩
     let b : Bytes := natLe 64 0x1f000000000000000000000000000000000000000000000000000000000000000000000000000000000000000000000000000000000000070000000000000011
     let s : State := ringSlot (withDom base 160 .on) 0 b
     let op := (byteAt b 0).toNat
     let j := leAt b 9 1
     let i := leAt b 10 1
     let svc (k : Nat) : Prop := op = 0x11 ∧ leAt b 8 1 = k ∧ j < 2 ∧ svcPresent s k j i = true ∧
       svcCode s h k j i (leAt b 11 1) ((byteAt b 12).getLsbD 1) = 0
     (x.part = 0 ∧ svc 7 ∧ domOf s (160 + i) = .on) ∧ MbFront s h slot x b ∧ MbServed s h) ∧
    (let h : Hub := 0
     let slot : Fin 8 := 2
     let x : Bell := ⟨2, 0, true⟩
     let b : Bytes := natLe 64 0xb6000000000000000000000000000000000000000000000000000000000000000000000000000000000000000000000000000000000000080000000000000011
     let s : State := ringSlot (withDom base 160 .off) 0 b
     let op := (byteAt b 0).toNat
     let j := leAt b 9 1
     let i := leAt b 10 1
     let svc (k : Nat) : Prop := op = 0x11 ∧ leAt b 8 1 = k ∧ j < 2 ∧ svcPresent s k j i = true ∧
       svcCode s h k j i (leAt b 11 1) ((byteAt b 12).getLsbD 1) = 0
     (x.part = 0 ∧ svc 8) ∧ MbFront s h slot x b ∧ MbServed s h) ∧
    (let h : Hub := 0
     let slot : Fin 8 := 2
     let x : Bell := ⟨2, 0, true⟩
     let b : Bytes := natLe 64 0xd0000000000000000000000000000000000000000000000000000000000000000000000000000000000000000000000000000000000100090000000000000011
     let s : State := ringSlot (withCsr base [(R.MCCFG 1, 0xA0200000)]) 0 b
     let op := (byteAt b 0).toNat
     let j := leAt b 9 1
     let i := leAt b 10 1
     let svc (k : Nat) : Prop := op = 0x11 ∧ leAt b 8 1 = k ∧ j < 2 ∧ svcPresent s k j i = true ∧
       svcCode s h k j i (leAt b 11 1) ((byteAt b 12).getLsbD 1) = 0
     (x.part = 0 ∧ svc 9) ∧ MbFront s h slot x b ∧ MbServed s h) ∧
    (let h : Hub := 0
     let slot : Fin 8 := 2
     let x : Bell := ⟨2, 0, true⟩
     let b : Bytes := natLe 64 0x5b0000000000000000000000000000000000000000000000000000000000000000000000000000000000000000000000000000000001000a0000000000000011
     let s : State := ringSlot (withCsr base [(R.MCCFG 1, 0xC0200000)]) 0 b
     let op := (byteAt b 0).toNat
     let j := leAt b 9 1
     let i := leAt b 10 1
     let svc (k : Nat) : Prop := op = 0x11 ∧ leAt b 8 1 = k ∧ j < 2 ∧ svcPresent s k j i = true ∧
       svcCode s h k j i (leAt b 11 1) ((byteAt b 12).getLsbD 1) = 0
     (x.part = 0 ∧ svc 10) ∧ MbFront s h slot x b ∧ MbServed s h) ∧
    (let h : Hub := 0
     let slot : Fin 8 := 2
     let x : Bell := ⟨2, 0, true⟩
     let b : Bytes := natLe 64 0x120000000000000000000000000000000000000000000000000000000000000000000000000000000000000000000000000000020000000b0000000000000011
     let s : State := ringSlot (sSheet1 .idle) 0 b
     let op := (byteAt b 0).toNat
     let j := leAt b 9 1
     let i := leAt b 10 1
     let svc (k : Nat) : Prop := op = 0x11 ∧ leAt b 8 1 = k ∧ j < 2 ∧ svcPresent s k j i = true ∧
       svcCode s h k j i (leAt b 11 1) ((byteAt b 12).getLsbD 1) = 0
     (x.part = 0 ∧ svc 11 ∧ hubOk s 1 = true) ∧ MbFront s h slot x b ∧ MbServed s h) ∧
    (let s : State := sTakeover 0x81800000
     let h : Hub := 0
     let peers := ((List.range 6).filter (fun a => dieOk s a && dieHome s a == 1 - h.val)).map (homeLink s (1 - h.val))
     (live s h = true ∧ hubOk s 1 = true ∧ rdF s h R.TKCTL 27 25 = 1 ∧ s.svc.taken = none ∧
       tget (fun _ => false) s.svc.tkForce h = false ∧ 0 ∈ peers ∧ (∀ l ∈ peers, l = 0))) ∧
    (let s : State := sTakeover 0x80000000
     let h : Hub := 0
     let peers := ((List.range 6).filter (fun a => dieOk s a && dieHome s a == 1 - h.val)).map (homeLink s (1 - h.val))
     (live s h = true ∧ hubOk s 1 = true ∧ rdF s h R.TKCTL 27 25 = 1 ∧ s.svc.taken = none ∧
       (tget (fun _ => false) s.svc.tkForce h = true ∨ ∀ l ∈ peers, l = 1))) :=
  ⟨⟨by decide +kernel, by unfold MbFront; decide +kernel, by unfold MbServed; decide +kernel⟩,
   ⟨by decide +kernel, by unfold MbFront; decide +kernel, by unfold MbServed; decide +kernel⟩,
   ⟨by decide +kernel, by unfold MbFront; decide +kernel, by unfold MbServed; decide +kernel⟩,
   ⟨by decide +kernel, by unfold MbFront; decide +kernel, by unfold MbServed; decide +kernel⟩,
   ⟨by decide +kernel, by unfold MbFront; decide +kernel, by unfold MbServed; decide +kernel⟩,
   ⟨by decide +kernel, by unfold MbFront; decide +kernel, by unfold MbServed; decide +kernel⟩,
   ⟨by decide +kernel, by unfold MbFront; decide +kernel, by unfold MbServed; decide +kernel⟩,
   ⟨by decide +kernel, by unfold MbFront; decide +kernel, by unfold MbServed; decide +kernel⟩,
   ⟨by decide +kernel, by unfold MbFront; decide +kernel, by unfold MbServed; decide +kernel⟩,
   ⟨by decide +kernel, by unfold MbFront; decide +kernel, by unfold MbServed; decide +kernel⟩,
   ⟨by decide +kernel, by unfold MbFront; decide +kernel, by unfold MbServed; decide +kernel⟩,
   ⟨by decide +kernel, by unfold MbFront; decide +kernel, by unfold MbServed; decide +kernel⟩,
   ⟨by decide +kernel, by unfold MbFront; decide +kernel, by unfold MbServed; decide +kernel⟩,
   ⟨by decide +kernel, by unfold MbFront; decide +kernel, by unfold MbServed; decide +kernel⟩,
   ⟨by decide +kernel, by unfold MbFront; decide +kernel, by unfold MbServed; decide +kernel⟩,
   by decide +kernel,
   by decide +kernel⟩

/-- Hypotheses of MailboxLoadsAndDebug. -/
theorem test_witness_MailboxLoadsAndDebug :
    (let h : Hub := 0
     let slot : Fin 8 := 2
     let x : Bell := ⟨2, 0, true⟩
     let b : Bytes := natLe 64 0xe0000000000000000000000000000000000000000000000000000000000000000000000000000000000000000000000000000000000000000000000000000020
     let s : State := ringSlot { sWait .waitImage [(R.BOOTSTAT, 0x50100000)] with lan := base.lan } 0 b
     let op := (byteAt b 0).toNat
     (strokeOf s h = .none ∧ op = 0x20 ∧ awaitsHost s = true) ∧ MbFront s h slot x b) ∧
    (let h : Hub := 0
     let slot : Fin 8 := 2
     let x : Bell := ⟨2, 0, true⟩
     let b : Bytes := natLe 64 0xe3000000000000000000000000000000000000000000000000000000000000000000000000000000000000060000000000000000000010000000000000000021
     let s : State := ringSlot (coresOut [1, 2] (sLoadable [])) 0 b
     let op := (byteAt b 0).toNat
     (strokeOf s h = .none ∧ bootOf s h = .done ∧ op = 0x21 ∧ x.part = 0 ∧ argsClean b [(8, 8), (16, 1), (20,
       4)] = true ∧ imageArg (leAt b 8 8) = true ∧ hubArg s (leAt b 16 1) = true ∧
       rdB s (leAt b 16 1) R.MCSTART 30 = false ∧ (∀ i ∈ mcCores (leAt b 16 1) (BitVec.ofNat 32 (leAt b 20 4)),
       (getCore s i).rstate = .out)) ∧ MbFront s h slot x b) ∧
    (let h : Hub := 0
     let slot : Fin 8 := 2
     let x : Bell := ⟨2, 0, true⟩
     let b : Bytes := natLe 64 0x7c000000000000000000000000000000000000000000000000000000000000000000000000000000000000000000000000000000000010000000000000000022
     let s : State := ringSlot (coresOut [1, 2] (sLoadable [])) 0 b
     let op := (byteAt b 0).toNat
     (strokeOf s h = .none ∧ bootOf s h = .done ∧ op = 0x22 ∧ x.part = 0 ∧ argsClean b [(8, 8), (16, 1)] = true ∧
       imageArg (leAt b 8 8) = true ∧ hubArg s (leAt b 16 1) = true ∧ rdB s (leAt b 16 1) R.FLOAD 30 = false ∧
       fabricFenced s (leAt b 16 1) = false ∧ fabricOff s (leAt b 16 1) = false) ∧ MbFront s h slot x b) ∧
    (let h : Hub := 0
     let slot : Fin 8 := 2
     let x : Bell := ⟨2, 0, true⟩
     let b : Bytes := natLe 64 0x320000000000000000000000000000000000000000000000000000000000000000000000000000000000000000000000000000000000005a0000000000000032
     let s : State := ringSlot (coresOut [1, 2] (sLoadable [])) 0 b
     let op := (byteAt b 0).toNat
     let sub8 := leAt b 8 1
     (strokeOf s h = .none ∧ bootOf s h = .done ∧ op = 0x32 ∧ x.part = 0 ∧ argsClean b [(8, 1)] = true ∧ sub8 = 0x5A ∧
       s.pwr.power = .on) ∧ MbFront s h slot x b ∧ (∀ k, hubInService s k = true → strokeOf s k = .none)) ∧
    (let h : Hub := 0
     let slot : Fin 8 := 2
     let x : Bell := ⟨2, 0, true⟩
     let b : Bytes := natLe 64 0xce000000000000000000000000000000000000000000000000000000000000000000000000000000000000000000000000000000000000010000000000000050
     let s : State := ringSlot { sWait .waitImage [(R.BOOTSTAT, 0x50100000)] with lan := base.lan } 0 b
     let op := (byteAt b 0).toNat
     let sub8 := leAt b 8 1
     (strokeOf s h = .none ∧ op = 0x50 ∧ sub8 = 1) ∧ MbFront s h slot x b) ∧
    (let h : Hub := 0
     let slot : Fin 8 := 2
     let x : Bell := ⟨2, 0, true⟩
     let b : Bytes := natLe 64 0x3a000000000000000000000000000000000000000000000000000000000000000000000000000009080706050403020100000000000003020000000000000050
     let s : State := ringSlot { sWait .waitImage [(R.BOOTSTAT, 0x50100000)] with lan := base.lan } 0 b
     let op := (byteAt b 0).toNat
     let sub8 := leAt b 8 1
     (strokeOf s h = .none ∧ op = 0x50 ∧ sub8 = 2 ∧ leAt b 9 1 < 4) ∧ MbFront s h slot x b) ∧
    (let h : Hub := 0
     let slot : Fin 8 := 2
     let x : Bell := ⟨2, 0, true⟩
     let b : Bytes := natLe 64 0x54000000000000000000000000000000000000000000000000000000000000000000000000000000000000000000000000000000000000040000000000000050
     let s : State := ringSlot { sWait .waitImage [(R.BOOTSTAT, 0x50100000)] with lan := base.lan } 0 b
     let op := (byteAt b 0).toNat
     let sub8 := leAt b 8 1
     (strokeOf s h = .none ∧ op = 0x50 ∧ sub8 = 4) ∧ MbFront s h slot x b) ∧
    (let h : Hub := 0
     let slot : Fin 8 := 2
     let x : Bell := ⟨2, 0, true⟩
     let b : Bytes := natLe 64 0x54000000000000000000000000000000000000000000000000000000000000000000000000000000000000000000000000000000000001030000000000000050
     let s : State := ringSlot { sWait .waitImage [(R.BOOTSTAT, 0x50100000)] with lan := base.lan } 0 b
     let op := (byteAt b 0).toNat
     let sub8 := leAt b 8 1
     (strokeOf s h = .none ∧ op = 0x50 ∧ sub8 = 3 ∧ leAt b 9 1 < 3 ∧ locked s h .host = false ∧
       authGood s h .host (leAt b 9 1) = false) ∧ MbFront s h slot x b) ∧
    (let h : Hub := 0
     let slot : Fin 8 := 2
     let x : Bell := ⟨2, 0, true⟩
     let b : Bytes := natLe 64 0x23000000000000000000000000000000000000000000000000000000000000000000000000000008000000000000000000000000000000060000000000000050
     let s : State := ringSlot { sWait .waitImage [(R.BOOTSTAT, 0x50100000)] with lan := base.lan } 0 b
     let op := (byteAt b 0).toNat
     let sub8 := leAt b 8 1
     let n := leAt b 24 1
     (strokeOf s h = .none ∧ op = 0x50 ∧ sub8 = 6 ∧ (n = 4 ∨ n = 8) ∧ dbgLevel s h .host ≠ 2) ∧ MbFront s h slot x b) ∧
    (let h : Hub := 0
     let slot : Fin 8 := 2
     let x : Bell := ⟨2, 0, true⟩
     let b : Bytes := natLe 64 0xd6000000000000000000000000000000000000000000000000000000000000000000000000000000000000000000000000000000000040000000000000000030
     let s : State := ringSlot (withBytes (sLoadable []) 0x4000 (natLe 64 0xa7000000000000000000000000000000000000000000000000000000000000000000000000000000000000000000000300000000000000000000000900050002)) 0 b
     let r : State := (chopStatus s 0 0 (rbs s 0x4000 64)).1
     let w : Nat := (chopStatus s 0 0 (rbs s 0x4000 64)).2.2
     let op := (byteAt b 0).toNat
     let q := rbs s (leAt b 8 8) 64
     let ring := chopRing r (leAt b 16 1) q
     (strokeOf s h = .none ∧ bootOf s h = .done ∧ op = 0x30 ∧ argsClean b [(8, 8), (16, 1)] = true ∧
       hubArg s (leAt b 16 1) = true ∧ leAt b 8 8 + 64 ≤ mainTop ∧ s.mem.bad = [] ∧
       rangeServes s (leAt b 16 1) (leAt b 8 8) 64 = true ∧ chopStatus s (leAt b 16 1) x.part q = (r, 0, w) ∧
       (ringQ r (leAt b 16 1) ring).length < 64 ∧ leAt q 0 1 = 2) ∧ MbFront s h slot x b) ∧
    (let h : Hub := 0
     let slot : Fin 8 := 2
     let x : Bell := ⟨2, 0, true⟩
     let b : Bytes := natLe 64 0xd6000000000000000000000000000000000000000000000000000000000000000000000000000000000000000000000000000000000040000000000000000030
     let s : State := ringSlot (withBytes (sLoadable []) 0x4000 (natLe 64 0x1a000000000000000000000000000000000000000000000000000000000000000000000000000000000000000000000300000000000000000000000900060002)) 0 b
     let r : State := (chopStatus s 0 0 (rbs s 0x4000 64)).1
     let w : Nat := (chopStatus s 0 0 (rbs s 0x4000 64)).2.2
     let op := (byteAt b 0).toNat
     let q := rbs s (leAt b 8 8) 64
     let st := (chopStatus s 0 0 (rbs s 0x4000 64)).2.1
     (strokeOf s h = .none ∧ bootOf s h = .done ∧ op = 0x30 ∧ argsClean b [(8, 8), (16, 1)] = true ∧
       hubArg s (leAt b 16 1) = true ∧ leAt b 8 8 + 64 ≤ mainTop ∧ s.mem.bad = [] ∧
       rangeServes s (leAt b 16 1) (leAt b 8 8) 64 = true ∧ st ≠ 0 ∧ chopStatus s (leAt b 16 1) x.part q = (r, st,
       w)) ∧ MbFront s h slot x b) ∧
    (let h : Hub := 0
     let slot : Fin 8 := 2
     let x : Bell := ⟨2, 0, true⟩
     let b : Bytes := natLe 64 0x54000000000000000000000000000000000000000000000000000000000000000000000000000000000000000000000000000000000001030000000000000050
     let s : State := ringSlot (signedFor (sLoadable [(R.DBGCTL, 2)]) .host) 0 b
     let op := (byteAt b 0).toNat
     let sub8 := leAt b 8 1
     (strokeOf s h = .none ∧ op = 0x50 ∧ sub8 = 3 ∧ leAt b 9 1 < 3 ∧ locked s h .host = false ∧
       authGood s h .host (leAt b 9 1) = true) ∧ MbFront s h slot x b) ∧
    (let h : Hub := 0
     let slot : Fin 8 := 2
     let x : Bell := ⟨2, 0, true⟩
     let b : Bytes := natLe 64 0xf3000000000000000000000000000000000000000000000000000000000000000000000000000008000000000000200000000000000000050000000000000050
     let s : State := ringSlot (signedFor (sLoadable [(R.DBGCTL, 2)]) .host) 0 b
     let op := (byteAt b 0).toNat
     let sub8 := leAt b 8 1
     let a := leAt b 16 8
     let n := leAt b 24 1
     (strokeOf s h = .none ∧ op = 0x50 ∧ s.mem.bad = [] ∧ a + n ≤ mainTop ∧ (n = 4 ∨ n = 8) ∧ a % n = 0 ∧
       rangeServes s h a n = true ∧ sub8 = 5 ∧ dbgLevel s h .host ≠ 0) ∧ MbFront s h slot x b) ∧
    (let h : Hub := 0
     let slot : Fin 8 := 2
     let x : Bell := ⟨2, 0, true⟩
     let b : Bytes := natLe 64 0xb7000000000000000000000000000000000000000000000008070605040300010000000000000008000000000000200000000000000000060000000000000050
     let s : State := ringSlot (signedFor (sLoadable [(R.DBGCTL, 2)]) .host) 0 b
     let op := (byteAt b 0).toNat
     let sub8 := leAt b 8 1
     let a := leAt b 16 8
     let n := leAt b 24 1
     (strokeOf s h = .none ∧ op = 0x50 ∧ s.mem.bad = [] ∧ a + n ≤ mainTop ∧ (n = 4 ∨ n = 8) ∧ a % n = 0 ∧
       rangeServes s h a n = true ∧ sub8 = 6 ∧ dbgLevel s h .host = 2) ∧ MbFront s h slot x b) :=
  ⟨⟨by decide +kernel, by unfold MbFront; decide +kernel⟩,
   ⟨by decide +kernel, by unfold MbFront; decide +kernel⟩,
   ⟨by decide +kernel, by unfold MbFront; decide +kernel⟩,
   ⟨by decide +kernel, by unfold MbFront; decide +kernel, fun k _ => no_stroke (by decide +kernel) k⟩,
   ⟨by decide +kernel, by unfold MbFront; decide +kernel⟩,
   ⟨by decide +kernel, by unfold MbFront; decide +kernel⟩,
   ⟨by decide +kernel, by unfold MbFront; decide +kernel⟩,
   ⟨by decide +kernel, by unfold MbFront; decide +kernel⟩,
   ⟨by decide +kernel, by unfold MbFront; decide +kernel⟩,
   ⟨by decide +kernel, by unfold MbFront; decide +kernel⟩,
   ⟨by decide +kernel, by unfold MbFront; decide +kernel⟩,
   ⟨by decide +kernel, by unfold MbFront; decide +kernel⟩,
   ⟨by decide +kernel, by unfold MbFront; decide +kernel⟩,
   ⟨by decide +kernel, by unfold MbFront; decide +kernel⟩⟩

/-- Hypotheses of ProbeAndTap. -/
theorem test_witness_ProbeAndTap :
    (let s : State := sProbe []
     let h : Hub := 0
     let f : BitVec 128 := probeFrame 1 0x2000 0 + 1
     let full : Prop := dbgLevel s h .probe = 2
     (live s h = true ∧ frGood f = false ∧ frOp f = 1 ∧ ¬ full)) ∧
    (let s : State := sProbe [(R.DBGCTL, 0x28)]
     let h : Hub := 0
     let f : BitVec 128 := probeFrame 3 0x2000 0 + 1
     let full : Prop := dbgLevel s h .probe = 2
     (live s h = true ∧ frGood f = false ∧ frOp f = 3 ∧ full)) ∧
    (let s : State := sProbe []
     let h : Hub := 0
     let f : BitVec 128 := probeFrame 8 0 0 + 1
     (live s h = true ∧ frGood f = false ∧ frOp f = 8)) ∧
    (let s : State := sProbe []
     let h : Hub := 0
     let f : BitVec 128 := probeFrame 1 0x2004 0
     (live s h = true ∧ frGood f = true ∧ fld f 123 120 = 0 ∧ (frOp f = 1 ∨ frOp f = 2) ∧ dbgLevel s h .probe = 0)) ∧
    (let s : State := sProbe []
     let h : Hub := 0
     let f : BitVec 128 := probeFrame 4 0x2000 5
     let full : Prop := dbgLevel s h .probe = 2
     (live s h = true ∧ frGood f = true ∧ fld f 123 120 = 0 ∧ (frOp f = 3 ∨ frOp f = 4) ∧ ¬ full)) ∧
    (let s : State := sProbe []
     let h : Hub := 0
     let f : BitVec 128 := probeFrame 5 0 0
     (live s h = true ∧ frGood f = true ∧ fld f 123 120 = 0 ∧ frOp f = 5)) ∧
    (let s : State := sProbe []
     let h : Hub := 0
     let f : BitVec 128 := probeFrame 6 0 0
     let a := frAddr f
     (live s h = true ∧ frGood f = true ∧ fld f 123 120 = 0 ∧ frOp f = 6 ∧ a % 4 = 0)) ∧
    (let s : State := sProbe []
     let h : Hub := 0
     let f : BitVec 128 := probeFrame 7 15 9
     (live s h = true ∧ frGood f = true ∧ fld f 123 120 = 0 ∧ frOp f = 7)) ∧
    (let s : State := sProbe []
     let h : Hub := 0
     let f : BitVec 128 := probeFrame 8 0 1
     (live s h = true ∧ frGood f = true ∧ fld f 123 120 = 0 ∧ frOp f = 8 ∧ fld (frData f) 1 0 < 3 ∧
       locked s h .probe = false ∧ authGood s h .probe (fld (frData f) 1 0) = false)) ∧
    (let s : State := sProbe []
     let h : Hub := 0
     let f : BitVec 128 := probeFrame 9 0 0
     (live s h = true ∧ frGood f = true ∧ fld f 123 120 = 0 ∧ frOp f = 9)) ∧
    (let s : State := sProbe []
     let h : Hub := 0
     let f : BitVec 128 := probeFrame 10 0 0
     (live s h = true ∧ frGood f = true ∧ fld f 123 120 = 0 ∧ (frOp f = 0 ∨ 10 ≤ frOp f))) ∧
    (let s : State := sProbe [(R.DBGCTL, 0x28)]
     let h : Hub := 0
     let f : BitVec 128 := probeFrame 1 0x2004 0
     let a := frAddr f
     let n := if frOp f % 2 = 1 then 4 else 8
     (live s h = true ∧ frGood f = true ∧ fld f 123 120 = 0 ∧ s.mem.bad = [] ∧ a + n ≤ mainTop ∧ a % n = 0 ∧
       rangeServes s h a n = true ∧ (frOp f = 1 ∨ frOp f = 2) ∧ dbgLevel s h .probe ≠ 0)) ∧
    (let s : State := sProbe [(R.DBGCTL, 0x28)]
     let h : Hub := 0
     let f : BitVec 128 := probeFrame 4 0x2000 5
     let a := frAddr f
     let n := if frOp f % 2 = 1 then 4 else 8
     let full : Prop := dbgLevel s h .probe = 2
     (live s h = true ∧ frGood f = true ∧ fld f 123 120 = 0 ∧ s.mem.bad = [] ∧ a + n ≤ mainTop ∧ a % n = 0 ∧
       rangeServes s h a n = true ∧ (frOp f = 3 ∨ frOp f = 4) ∧ full)) ∧
    (let s : State := sProbe [(R.DBGCTL, 0x28)]
     let h : Hub := 0
     let f : BitVec 128 := probeFrame 8 0 1
     (live s h = true ∧ frGood f = true ∧ fld f 123 120 = 0 ∧ frOp f = 8 ∧ fld (frData f) 1 0 < 3 ∧
       locked s h .probe = true)) ∧
    (let s : State := { sProbe [(R.DBGCTL, 8)] with dbg := { base.dbg with fails := [(0, 7)], chal := [(0, some 0x1234)] } }
     let h : Hub := 0
     let f : BitVec 128 := probeFrame 6 1 0
     let c : BitVec 256 := 0x1234
     let a := frAddr f
     (live s h = true ∧ frGood f = true ∧ fld f 123 120 = 0 ∧ frOp f = 6 ∧ a % 4 ≠ 0 ∧
       challengeOf s h .probe = some c)) ∧
    (let s : State := signedFor (sProbe [(R.DBGCTL, 4)]) .probe
     let h : Hub := 0
     let f : BitVec 128 := probeFrame 8 0 1
     (live s h = true ∧ frGood f = true ∧ fld f 123 120 = 0 ∧ frOp f = 8 ∧ fld (frData f) 1 0 < 3 ∧
       locked s h .probe = false ∧ authGood s h .probe (fld (frData f) 1 0) = true)) :=
  ⟨by decide +kernel,
   by decide +kernel,
   by decide +kernel,
   by decide +kernel,
   by decide +kernel,
   by decide +kernel,
   by decide +kernel,
   by decide +kernel,
   by decide +kernel,
   by decide +kernel,
   by decide +kernel,
   by decide +kernel,
   by decide +kernel,
   by decide +kernel,
   by decide +kernel,
   by decide +kernel⟩

/-- Hypotheses of CoreHalts. -/
theorem test_witness_CoreHalts :
    (let s : State := withBytes (sDebug [(R.DRSEL 0,
       7)] (fun k => { k with halted := true, haltCause := 1 })) (commonBase 0 + 0x1000) [1, 0, 0x21, 0x0C]
     let m : Master := .debug 0 .probe
     let c : CoreId := c0
     let v : W32 := 0x40000000
     let i := coreIx c
     let h := c.hub.val
     let k := getCore s i
     let sel := rdF s h (R.DRSEL (i % 32)) 8 0
     let noSteps : Prop := (∀ j, j ≠ i → (getCore s j).stepReq = false) ∧ ∀ j, bootOf s j ≠ .waitKeep
     (live s c.hub = true ∧ mayDebug s m c.hub = true ∧ k.rstate ≠ .out ∧ k.halted = true ∧ fld v 30 30 = 1 ∧
       k.stepReq = false ∧ 0 < sel ∧ sel < 32) ∧ noSteps) ∧
    (let s : State := sDebug [(R.DCTL 0, 0x80000000)] id
     let m : Master := .debug 0 .probe
     let c : CoreId := c0
     let v : W32 := 0x80000000
     let i := coreIx c
     let k := getCore s i
     (live s c.hub = true ∧ mayDebug s m c.hub = true ∧ k.rstate ≠ .out ∧ k.halted = false ∧ fld v 31 29 = 4 ∧
       serving s c.hub = true ∧ haltWanted s i = true ∧ k.fpu = none ∧ k.micro = none ∧ fld k.lladdr 0 0 = 0)) ∧
    (let s : State := base
     let m : Master := .debug 0 .probe
     let c : CoreId := c0
     (live s c.hub = true ∧ mayDebug s m c.hub = false)) ∧
    (let s : State := withBytes (sDebug [(R.DRSEL 0,
       7)] (fun k => { k with halted := true, haltCause := 1 })) (commonBase 0 + 0x1000) [1, 0, 0x21, 0x0C]
     let m : Master := .debug 0 .probe
     let c : CoreId := c0
     let v : W32 := 0x20000000
     let f : State := stepFetch s v
     let i := coreIx c
     let h := c.hub.val
     let k := getCore s i
     let o := R.DCTL (i % 32)
     let noSteps : Prop := (∀ j, j ≠ i → (getCore s j).stepReq = false) ∧ ∀ j, bootOf s j ≠ .waitKeep
     let s1 := updCore (wrF s h o 28 26 (fld v 28 26)) i (fun x => { x with stepReq := true, halted := false })
     (live s c.hub = true ∧ mayDebug s m c.hub = true ∧ k.rstate ≠ .out ∧ k.halted = true ∧ fld v 30 28 = 2 ∧
       coreLive s1 i = true ∧ k.busy = true ∧ k.sleep = false ∧ k.micro = none ∧ (getCore f i).fpu = none ∧
       (getCore f i).rstate = .running) ∧ noSteps ∧ fetchAt (boundary s1 i) i k.pc = .ok (f, 0x0C210001) ∧ (∀ j,
       j ≠ i → (getCore f j).stepReq = false) ∧ (∀ j, bootOf f j ≠ .waitKeep)) ∧
    (let s : State := sDebug [(R.DCTL 0, 0x80000000)] (fun k => { k with lladdr := 0x2001 })
     let c : CoreId := c0
     let i := coreIx c
     let k := getCore s i
     (live s c.hub = true ∧ serving s c.hub = true ∧ haltWanted s i = true ∧ k.fpu = none ∧ k.micro = none ∧
       fld k.lladdr 0 0 = 1)) :=
  ⟨⟨by decide +kernel, ⟨no_other_step (by decide +kernel), no_keep (by decide +kernel)⟩⟩,
   by decide +kernel,
   by decide +kernel,
   ⟨by decide +kernel, ⟨no_other_step (by decide +kernel), no_keep (by decide +kernel)⟩,
    ok_of (by decide +kernel), no_other_step (by decide +kernel), no_keep (by decide +kernel)⟩,
   by decide +kernel⟩

/-- Hypotheses of GangsMarginAndTrace. -/
theorem test_witness_GangsMarginAndTrace :
    (let s : State := sMargin false false true
     let m : Master := .debug 0 .probe
     let h : Hub := 0
     let c : CoreId := c0
     let i : BitVec 8 := 3
     let cfg := csr s h (R.MPCFG i.toNat)
     let x := BitVec.ofNat 128 (2 ^ 22 + 5)
     let xs := []
     (live s h = true ∧ mayDebug s m h = false ∧ serving s c.hub = true ∧ c.hub = h ∧
       csrOk s (.core c) h h (0xC08000 + 8 * i.toNat) = true ∧ cfg.getLsbD 31 = true ∧
       fld cfg 2 0 = corePart s (coreIx c) ∧ rdB s h R.MTCTL 31 = true ∧ rdB s h R.MTCTL 30 = true ∧
       (marginQ s h).length < 32 ∧ rdB s h R.TPCTL 31 = true ∧ marginQ s h = x :: xs ∧
       (traceQ s h = [] ∨ tget (fun _ => false) s.dbg.lastMargin h = false))) ∧
    (let s : State := sGangDebug .halt { gangDflt with halted := true }
     let m : Master := .debug 0 .probe
     let h : Hub := 0
     let g : Sheet := 0
     let v : W32 := 0x40000000
     let G := getGang s g
     let word : AWord := v.setWidth 96 <<< 64 ||| (csr s h (R.DGINJ g 1)).setWidth 96 <<< 32 ||| (csr s h (R.DGINJ g 0)).setWidth 96
     let home (t : State) (sh : Nat) (x : ShState) : Prop := (getSheet t sh).state = x
     (live s h = true ∧ mayDebug s m h = true ∧ gangHere s h g = true ∧ G.halted = true ∧ fld v 31 30 = 1 ∧
       serving s h = true ∧ G.blots = [] ∧ (∀ sh ∈ members s g, home s sh .halt ∧
       ((getSheet s sh).before = .idle ∨ (getSheet s sh).before = .run)) ∧ fld word 95 80 = 0x4000 ∧ fld word 3 0 = 0)) ∧
    (let s : State := sGangDebug .run gangDflt
     let m : Master := .debug 0 .probe
     let h : Hub := 0
     let g : Sheet := 0
     let v : W32 := 0x80000000
     let G := getGang s g
     let home (t : State) (sh : Nat) (x : ShState) : Prop := (getSheet t sh).state = x
     (live s h = true ∧ mayDebug s m h = true ∧ gangHere s h g = true ∧ G.halted = false ∧ G.blots = [] ∧
       (getSheet s g).state ≠ .fault ∧ fld v 31 29 = 4 ∧ injecting s g = false ∧ (∀ sh ∈ members s g,
       home s sh .idle ∨ home s sh .run))) ∧
    (let s : State := sGangDebug .run { gangDflt with blots := [{ theBlot with toks := [] }] }
     let m : Master := .debug 0 .probe
     let h : Hub := 0
     let g : Sheet := 0
     let v : W32 := 0x80000000
     let G := getGang s g
     (live s h = true ∧ mayDebug s m h = true ∧ gangHere s h g = true ∧ G.halted = false ∧ G.blots ≠ [] ∧
       (getSheet s g).state ≠ .fault ∧ fld v 31 29 = 4 ∧ injecting s g = false)) ∧
    (let s : State := sGangDebug .halt { gangDflt with halted := true }
     let m : Master := .debug 0 .probe
     let h : Hub := 0
     let g : Sheet := 0
     let v : W32 := 0x20000000
     let G := getGang s g
     (live s h = true ∧ mayDebug s m h = true ∧ gangHere s h g = true ∧ serving s h = true ∧ G.halted = true ∧
       fld v 31 29 = 1 ∧ headWord G = none)) ∧
    (let s : State := sMargin true false true
     let h : Hub := 0
     let c : CoreId := c0
     let i : BitVec 8 := 3
     let cfg := csr s h (R.MPCFG i.toNat)
     (live s h = true ∧ serving s c.hub = true ∧ c.hub = h ∧ csrOk s (.core c) h h (0xC08000 + 8 * i.toNat) = true ∧
       cfg.getLsbD 31 = true ∧ fld cfg 2 0 = corePart s (coreIx c) ∧ rdB s h R.MTCTL 31 = true ∧
       rdB s h R.MTCTL 30 = true ∧ cfg.getLsbD 30 = false ∧ 32 ≤ (marginQ s h).length)) ∧
    (let s : State := sMargin true true true
     let h : Hub := 0
     let c : CoreId := c0
     let i : BitVec 8 := 3
     let cfg := csr s h (R.MPCFG i.toNat)
     (live s h = true ∧ serving s c.hub = true ∧ c.hub = h ∧ csrOk s (.core c) h h (0xC08000 + 8 * i.toNat) = true ∧
       cfg.getLsbD 31 = true ∧ fld cfg 2 0 = corePart s (coreIx c) ∧ rdB s h R.MTCTL 31 = true ∧
       rdB s h R.MTCTL 30 = true ∧ cfg.getLsbD 30 = true ∧ 32 ≤ (marginQ s h).length)) ∧
    (let s : State := sMargin false true true
     let h : Hub := 0
     let x := BitVec.ofNat 128 0x1F5
     let xs := [7]
     (live s h = true ∧ rdB s h R.TPCTL 31 = true ∧ traceQ s h = x :: xs ∧
       (marginQ s h = [] ∨ tget (fun _ => false) s.dbg.lastMargin h = true))) ∧
    (let s : State := withCsr base [(R.TPCTL, 0x80000000)]
     let h : Hub := 0
     (live s h = true ∧ rdB s h R.TPCTL 31 = true ∧ marginQ s h = [] ∧ traceQ s h = [])) :=
  ⟨by decide +kernel,
   by decide +kernel,
   by decide +kernel,
   by decide +kernel,
   by decide +kernel,
   by decide +kernel,
   by decide +kernel,
   by decide +kernel,
   by decide +kernel⟩

/-- Hypotheses of FabricConfiguration. -/
theorem test_witness_FabricConfiguration :
    (let s : State := sFab [(R.FREG 3, 0x02000003), (R.FCONT, 0x80000000)] id
     let m : Master := .mailbox 0
     let h : Hub := 0
     let r : Fin 16 := 3
     let line : Fin 64 := 5
     let v : W32 := 0x80000000
     let busy (t : State) : Bool := rdB t h R.FLOAD 30
     let off (t : State) (r line : Nat) : Bool := tget (fun _ => false) t.fab.lineOff (lineKey h r line)
     let region (t : State) : Nat := regionState t h r
     let kept : Prop := fld v 26 24 = rdF s h (R.FREG r) 26 24
     (live s h = true ∧ asP0 s m = true ∧ v.getLsbD 31 = true ∧ busy s = false ∧ fabricFenced s h = false ∧
       fabricOff s h = false ∧ region s = 3 ∧ ¬ kept ∧ rdB s h R.FCONT 31 = true ∧ off s r line = false ∧
       mayDebug s m h = false)) ∧
    (let s : State := sFab [(R.FREG 3, 0x02000002), (R.DBGCTL, 8)] (fun x => { x with relReq := [(3, true)] })
     let m : Master := .debug 0 .probe
     let h : Hub := 0
     let r : Fin 16 := 3
     let v : W32 := 0x80000000
     let b : Bytes := zeros 128
     let asked (t : State) : Bool := tget (fun _ => false) t.fab.relReq (16 * h.val + r.val)
     let region (t : State) : Nat := regionState t h r
     (live s h = true ∧ asP0 s m = true ∧ fld v 31 30 = 2 ∧ region s = 2 ∧ asked s = true ∧ fabricOff s h = false ∧
       mayDebug s m h = true ∧ v.getLsbD 31 = true ∧ b.length = 128 ∧ (∀ k < 32,
       csr s h (R.FRAWBUF k) = BitVec.ofNat 32 (leAt b (4 * k) 4)))) ∧
    (let s : State := sFab [(R.FLOAD, 0x40000000)] id
     let m : Master := .mailbox 0
     let h : Hub := 0
     let v : W32 := 0x80000000
     let busy (t : State) : Bool := rdB t h R.FLOAD 30
     (live s h = true ∧ asP0 s m = true ∧ v.getLsbD 31 = true ∧ busy s = true)) ∧
    (let s : State := sFab [(R.NREG 4, 0x60000000)] id
     let m : Master := .mailbox 0
     let h : Hub := 0
     let v : W32 := 0x80000000
     let busy (t : State) : Bool := rdB t h R.FLOAD 30
     (live s h = true ∧ asP0 s m = true ∧ v.getLsbD 31 = true ∧ busy s = false ∧
       (fabricFenced s h = true ∨ fabricOff s h = true))) ∧
    (let s : State := sFab [(R.FREG 3, 0x02000002), (R.DBGCTL, 8)] (fun x => { x with relReq := [(3, true)] })
     let m : Master := .mailbox 0
     let h : Hub := 0
     let r : Fin 16 := 3
     let v : W32 := 0x42000000
     let region (t : State) : Nat := regionState t h r
     let kept : Prop := fld v 26 24 = rdF s h (R.FREG r) 26 24
     (live s h = true ∧ asP0 s m = true ∧ fld v 30 30 = 1 ∧ (region s = 2 ∨ (region s = 3 ∧ kept)))) ∧
    (let s : State := sFab [(R.FREG 3, 0x02000004)] id
     let m : Master := .mailbox 0
     let h : Hub := 0
     let r : Fin 16 := 3
     let v : W32 := 0x02000000
     let region (t : State) : Nat := regionState t h r
     let kept : Prop := fld v 26 24 = rdF s h (R.FREG r) 26 24
     (live s h = true ∧ asP0 s m = true ∧ fld v 30 30 = 0 ∧ region s = 4 ∧ kept)) ∧
    (let s : State := withBytes (sFab [(R.FLOAD, 0x40000000)] loadingFab) 0x4000 (fabHeader 2 0 0)
     let h : Hub := 0
     let a : BitVec 48 := 0x4000
     let g : State := (checkImage s 0 (imgAddr a)).1
     let st : Nat := (checkImage s 0 (imgAddr a)).2.1
     (live s h = true ∧ loadOf s h = some (a, none) ∧ pass2Of s h = none ∧ checkImage s h (imgAddr a) = (g, st,
       none) ∧ 0 < st ∧ st < 16)) ∧
    (let s : State := withBytes (sFab [(R.FLOAD, 0x40000000), (R.FCFG, 2)] loadingFab) 0x4000 (fabHeader 1 0 0)
     let h : Hub := 0
     let a : BitVec 48 := 0x4000
     let g : State := (checkImage s 0 (imgAddr a)).1
     let st : Nat := (checkImage s 0 (imgAddr a)).2.1
     let hd : FHead := ((checkImage s 0 (imgAddr a)).2.2.getD (parseHead [], [])).1
     let l : List FFrame := ((checkImage s 0 (imgAddr a)).2.2.getD (parseHead [], [])).2
     (live s h = true ∧ loadOf s h = some (a, none) ∧ pass2Of s h = none ∧ checkImage s h (imgAddr a) = (g, st,
       some (hd, l)))) ∧
    (let s : State := withBytes (sFab [(R.FLOAD, 0x40000000), (R.FCFG, 2), (R.FREG 3,
       1)] (fun x => { loadingFab x with pass2 := [(0, some 8)] })) 0x4000 (fabHeader 1 8 2 ++ fabFrame 0x13000000 3 ++ fabFrame 0x43001000 5)
     let h : Hub := 0
     let a : BitVec 48 := 0x4000
     let fenced : Nat := 8
     let hd : FHead := parseHead (rbs s (imgAddr a) 64)
     let l : List FFrame := (readFrames s 0 (imgAddr a + 64) 2).2.getD []
     (live s h = true ∧ loadOf s h = some (a, none) ∧ pass2Of s h = some fenced ∧ s.mem.bad = [] ∧
       rangeServes s h (imgAddr a) 64 = true ∧ imgAddr a + 64 ≤ mainTop ∧ parseHead (rbs s (imgAddr a) 64) = hd ∧
       hd.count ≤ maxFrames ∧ readFrames s h (imgAddr a + 64) hd.count = (s, some l) ∧ (l.map FFrame.addr).Nodup ∧
       (∀ f ∈ l, f.addr < 2 ^ 32))) :=
  ⟨by decide +kernel,
   by decide +kernel,
   by decide +kernel,
   by decide +kernel,
   by decide +kernel,
   by decide +kernel,
   by decide +kernel,
   by decide +kernel,
   by decide +kernel⟩

/-- Hypotheses of FabricPortsAndMemories. -/
theorem test_witness_FabricPortsAndMemories :
    (let s : State := sPort (fun x => { x with targets := [(1, [⟨c0, true, true, 0x40, 0x77, none⟩])] })
     let c : CoreId := c0
     let h : Hub := 0
     let fp : Fin 8 := 1
     let size8 : Bool := true
     let o : BitVec 28 := 0x40
     let x : TAcc := (targetsOf s 0 1).headD ⟨c0, true, true, 0x40, 0x77, none⟩
     let xs : List TAcc := []
     let a : BitVec 48 := 0x2000
     let n : BitVec 8 := 0x35
     let pos : BitVec 16 := 0
     let len : Fin 73 := 4
     let e : BitVec 72 := 0x12345678AB
     let win : BmWindow := .bLater
     let i := coreIx c
     let ea := portAddr h fp o.toNat
     let sz := if size8 then 8 else 4
     let f := boundary s i
     let here : Prop := canStep s i = true ∧ (getCore s i).fpu = none ∧ ea % sz = 0 ∧ coreCut f i = false ∧
       (targetsOf f h fp).length < 16 ∧ reach f (i / 32) h = true ∧ portOpen f h fp = true
     let A := a.toNat
     let N := n.toNat
     let e' : BitVec 72 := (0 : BitVec 72)
     (here ∧ winOk f i ea 2 = true ∧ watchHits f i ea sz false true = [] ∧ winOk f i ea 1 = true ∧
       watchHits f i ea sz true false = [] ∧ (getCore s i).ports = [] ∧ live s h = true ∧ targetsOf s h fp = x :: xs ∧
       x.write = true ∧ portOpen s h fp = true ∧ masterMem s h fp A N = false ∧ regionState s h (n.toNat / 16) = 3 ∧
       fabricOff s h = false ∧ bmWord pos.toNat len = true ∧ len.val ≤ 36 ∧ (∃ z < len.val,
       e.getLsbD z ≠ e'.getLsbD z) ∧ win ≠ .apart) ∧ (∀ u w, region h A ≠ .csr u w)) ∧
    (let s : State := updCore (sPort (fun x => { x with targets := [(1, [⟨c0, false, true, 0x40, 0x77, some ⟨false, false, 2, none⟩⟩])] })) 0 (fun k => { k with portWait := true })
     let h : Hub := 0
     let fp : Fin 8 := 1
     let x : TAcc := (targetsOf s 0 1).headD ⟨c0, true, true, 0x40, 0x77, none⟩
     let xs : List TAcc := []
     let a : BitVec 48 := 0x2000
     let n : BitVec 8 := 8
     let b : Bytes := [1, 2, 0, 4, 5, 6, 7, 8]
     let q : PortFin := ⟨false, false, 2, none⟩
     let j := coreIx x.core
     let y := getCore s j
     let A := a.toNat
     let N := n.toNat
     (live s h = true ∧ targetsOf s h fp = x :: xs ∧ x.write = false ∧ x.size8 = true ∧ x.fin = some q ∧
       q.fdst = false ∧ q.sx = false ∧ q.upd = none ∧ y.portWait = true ∧ portOpen s h fp = true ∧
       rdF s h (R.FPORT fp) 15 0 ≠ 0 ∧ masterMem s h fp A N = true ∧ s.mem.bad = [] ∧ rangeServes s h A N = true ∧
       b.length = N)) :=
  ⟨⟨by decide +kernel, not_csr (by decide +kernel)⟩,
   by decide +kernel⟩

/-- Hypotheses of Microcode. -/
theorem test_witness_Microcode :
    (let s : State := sMicro
     let f : State := s
     let m : Master := .mailbox 0
     let c : CoreId := c0
     let w : W32 := tableWord
     let v : W32 := 0x80000000
     let i := coreIx c
     let h := c.hub
     let k := getCore f i
     let e : W64 := tget (fun _ => 0) k.dtab ((fld w 31 26 - 0x38) * 8 + fld w 2 0)
     let o := fld e 11 0
     let busy (t : State) : Bool := rdB t h R.MCSTART 30
     (0x38 ≤ fld w 31 26 ∧ k.fpu = none ∧ k.mode = true ∧ dtabGood e = true ∧ fld e 38 38 = 1 ∧
       fld w 25 0 &&& fld e 37 12 = 0 ∧ inCustomer k o = true ∧
       tget (fun _ => (0 : BitVec 136)) k.wcs o = wcsWord (BitVec.ofNat 128 (4 * 2 ^ 110 + 2 * 2 ^ 94 + 2 ^ 84)) ∧
       live s h = true ∧ asP0 s m = true ∧ v.getLsbD 31 = true ∧ busy s = false ∧ c.num.val = 0 ∧
       booting s h = true) ∧ Begins s f c [] [] false) ∧
    (let s : State := updCore sMicro 0 (fun k => { k with micro := some theMicro, watch := true, pstat := 0x1000 })
     let c : CoreId := c0
     let u : Micro := theMicro
     let i := coreIx c
     ((getCore s i).micro = some u ∧ coreLive s i = true ∧ eventDue (getCore s i) = true ∧
       0x4000 ≤ microAddr (getCore s i) u.upc) ∧ TrapReady s i) ∧
    (let s : State := withCsr base [(R.BOOTSTAT, 0xF0000000)]
     let c : CoreId := c0
     let h := c.hub
     (live s h = true ∧ (c.num.val ≠ 0 ∨ booting s h = false))) ∧
    (let s : State := withCsr base [(R.MCSTART, 0x40000000)]
     let m : Master := .mailbox 0
     let c : CoreId := c0
     let v : W32 := 0x80000000
     let h := c.hub
     let busy (t : State) : Bool := rdB t h R.MCSTART 30
     (live s h = true ∧ asP0 s m = true ∧ v.getLsbD 31 = true ∧ busy s = true)) ∧
    (let s : State := sMcLoad 0x10 6 (theMcImage.set 0 9)
     let g : State := (mcRead (setMcLoad (wrB s 0 R.MCSTART 30 false) 0 none) 0 0x4000).1
     let c : CoreId := c0
     let l : McLoad := ⟨0x4000, 6, none⟩
     let b : Bytes := (mcRead (setMcLoad (wrB s 0 R.MCSTART 30 false) 0 none) 0 0x4000).2.getD []
     let h := c.hub
     let s1 := setMcLoad (wrB s h R.MCSTART 30 false) h none
     (live s h = true ∧ mcLoadOf s h = some l ∧ l.slot = none ∧ mcRead s1 h l.image.toNat = (g, some b) ∧
       mcStatus g h l.cores b ≠ 0)) ∧
    (let s : State := sMcLoad 0 6 theMcImage
     let g : State := (mcRead (setMcLoad (wrB s 0 R.MCSTART 30 false) 0 none) 0 0x4000).1
     let c : CoreId := c0
     let l : McLoad := ⟨0x4000, 6, none⟩
     let b : Bytes := (mcRead (setMcLoad (wrB s 0 R.MCSTART 30 false) 0 none) 0 0x4000).2.getD []
     let n : Nat := (keySlot g (sub b 64 64)).getD 0
     let h := c.hub
     let s1 := setMcLoad (wrB s h R.MCSTART 30 false) h none
     (live s h = true ∧ mcLoadOf s h = some l ∧ l.slot = none ∧ mcRead s1 h l.image.toNat = (g, some b) ∧
       mcStatus g h l.cores b = 0 ∧ keySlot g (sub b 64 64) = some n)) :=
  ⟨⟨by decide +kernel, begins_of (by decide +kernel)⟩,
   ⟨by decide +kernel, by unfold TrapReady; decide +kernel⟩,
   by decide +kernel,
   by decide +kernel,
   by decide +kernel,
   by decide +kernel⟩

/-! ## Statements whose premises are about any state -/

/-- StepTakesFront: a queue with a command in front, and one empty. -/
theorem test_witness_StepTakesFront :
    ({ base with pending := [.nop c0] } : State).pending = Instr.nop c0 :: [] ∧ base.pending = [] := by decide +kernel

/-- MemoryFormKept: a state with listed bytes whose step answers a next state that has one more. -/
theorem test_witness_MemoryFormKept :
    let s : State := { sMem with pending := [.store c0 0 false 0x100 3 1] }
    s.memWf ∧ (match step s with | .next t => t.mem.cells.length == s.mem.cells.length + 1 | _ => false) = true := by
  unfold State.memWf; decide +kernel

/-- LookupsAndBlotters, its duplicates: a token whose port is present in an entry of the store, and in one in the blotter. -/
def dupEntry (p : Place) : Entry := entryOf 0 0 p [none, some 1, none, none]
theorem test_witness_duplicates :
    let k := secondTok
    let key := tagKey k.tag
    let ready (s : State) : Prop := live s 0 = true ∧ (getCtx s 0 (tagCtx k.tag)).state = .live ∧
      sweeping s 0 (tagCtx k.tag) = false ∧ dispHeld s 0 (bankOwner s 0 13) = none ∧ rdB s 0 R.TRCTL 31 = false
    let none4 (s : State) : Prop := ∀ p < 8, poolTotal s 0 p ≤ poolPages s 0 p →
      poolTotal s 0 p = 0 ∨ rdB s 0 (R.SDSTAT p) 30 = true
    let s := sLook k [dupEntry .way]
    let r := setBlook (setAq (sLook k [dupEntry .reserve]) 0 13 []) 0 13 [k]
    (ready s ∧ getAq s 0 13 = [k] ∧ getBlook s 0 13 = [] ∧ s.tok.entries.find? (isEntry 0 key) = some (dupEntry .way) ∧
      ((dupEntry .way).vals.getD (tagPort k.tag) none).isSome = true ∧ none4 s) ∧
    (ready r ∧ getBlook r 0 13 = [k] ∧ r.tok.entries.find? (isEntry 0 key) = some (dupEntry .reserve) ∧
      (dupEntry .reserve).chk = tagCheck (keyTag key 0) ∧ bltServes (setBlook r 0 13 []) 0 0 = true ∧ none4 r) := by
  decide +kernel

/-! ## Commands whose operands do not agree -/

theorem test_refused_offset : wellFormed (.registerWrite (.host 0) 0 0x102 0) = false := by decide +kernel
theorem test_refused_lane_data : wellFormed (.inboundRequest 0 3 true 0x1000 4 [1, 2, 3]) = false := by decide +kernel
theorem test_refused_fabric_data : wellFormed (.fabricMasterRequest 0 3 true 0x1000 8 [1]) = false := by decide +kernel
theorem test_refused_table_word : wellFormed (.tableRangeWord c0 0x08000000) = false := by decide +kernel
theorem test_refused_emulated_word : wellFormed (.emulatedWord c0 0x08000000) = false := by decide +kernel
theorem test_refused_illegal_word : wellFormed (.illegalWord c0 0xE0A21800) = false := by decide +kernel

/-! ## Results worked by hand or by the spec's examples -/

/-- The state after a command, the same where it stops. -/
def after (i : Instr) (s : State) : State := match exec i s with | .next t => t | _ => s
def g0 (i : Instr) (s : State) (r : Nat) : W64 := (getCore (after i s) 0).gr r

/-- 2^64 - 1 and 1 sum to 0 with carry and without overflow (R172): Z and C. -/
theorem test_add_wraps :
    let t := after (.add c0 true 3 1 2) (withG [(1, BitVec.allOnes 64), (2, 1), (3, 9)])
    (getCore t 0).gr 3 = 0 ∧ (getCore t 0).pc = 0x010000001004 ∧
      ((getCore t 0).pstat ^^^ k0.pstat) &&& 0xF = 6 := by decide +kernel

/-- G0 reads as zero and takes no write (R166). -/
theorem test_g0_discards : g0 (.add c0 false 0 1 2) (withG [(1, 5), (2, 6)]) 0 = 0 := by decide +kernel

/-- The example after R177: 1,000,000 divided by 7, and the quotient times 1,000. -/
theorem test_div_example : g0 (.div c0 3 1 2) (withG [(1, 1000000), (2, 7)]) 3 = 142857 := by decide +kernel
theorem test_mul_example : g0 (.mul c0 3 1 2) (withG [(1, 142857), (2, 1000)]) 3 = 142857000 := by decide +kernel

/-- The example after R180: 9,275 + 1,848 = 11,123. -/
theorem test_dadd_example : g0 (.dadd c0 3 1 2) (withG [(1, 0x9275), (2, 0x1848)]) 3 = 0x11123 := by decide +kernel

/-- Two bytes from address 0x2002, least significant first (R14), sign-extended: 0xB4 above 0xA3. -/
theorem test_load_order : g0 (.load c0 1 true false 1 3 1) sMem 3 = 0xFFFFFFFFFFFFB4A3 := by decide +kernel

/-- The byte stored is the register's lowest. -/
theorem test_store_byte :
    rbs (after (.store c0 0 false 5 2 1) sMem) (commonBase 0 + 0x2004) 3 = [0xC5, 0x08, 0xE7] := by decide +kernel

/-- The example after R225: a word of major 0x38 in TRAP mode raises EMU with the word in TRAPV and G3. -/
theorem test_emu_example :
    let k := getCore (after (.tableRangeWord c0 0xE0A21800) base) 0
    k.epc = 0x010000001000 ∧ k.trapc.toNat % 256 = 2 ∧ k.trapc.getLsbD 9 = false ∧ k.trapv = 0xE0A21800 ∧
      k.gr 3 = 0xE0A21800 := by decide +kernel

/-- The example after R206: the binary32 division at 0x0000_0040_0100 divides by +0.0 with TEDZ set. It leaves F3 and
the flags and makes an FPE pending with sub-cause 2, which the next instruction of the unit takes. -/
def divZero : FpOp := { major := 0x10, func := 0x403, rd := 3, ra := 1, a := 0x3F800000, b := 0, c := 0, pc := 0x400100 }
theorem test_fpe_pends :
    let k := getCore (after (.fpComplete c0) (onCore { k0 with f := [(3, 9)], fpcr := 0x80, fpu := some divZero })) 0
    k.fr 3 = 9 ∧ k.fpsr = 0x2100 ∧ k.fpu = none := by decide +kernel
theorem test_fpe_taken :
    let k := getCore (after (.fmul c0 false 4 5 6) (onCore { k0 with fpsr := 0x2100, fpePc := 0x400100 })) 0
    k.epc = 0x010000001000 ∧ k.trapv = 0x0200000000400100 ∧ k.fpsr.getLsbD 8 = false := by decide +kernel

/-- The example after R239: |5 - 9| by three microwords at customer offset 0x120, named by entry 9. -/
theorem test_absd_example :
    let word (next seq cond alu a b d : Nat) : BitVec 136 :=
      wcsWord (BitVec.ofNat 128 (next * 2 ^ 113 + seq * 2 ^ 110 + cond * 2 ^ 105 + alu * 2 ^ 99 + a * 2 ^ 94 + b * 2 ^ 89 + d * 2 ^ 84))
    let k : Core := { k0 with
      g := [(5, 5), (9, 9)], mode := true, corg := 0x100, clen := 0x100, dtab := [(9, dtabEntry 0x0040007F8120)],
      wcs := [(0x120, word 0x4122 1 0x13 2 2 3 4), (0x121, word 0 4 0 0 4 0 1), (0x122, word 0 4 0 2 0 4 1)] }
    let t := getCore (after (.tableRangeWord c0 0xE4854801) (onCore k)) 0
    t.gr 4 = 4 ∧ t.pc = 0x010000001004 := by decide +kernel

/-- The example after R9: the part's identification code. -/
theorem test_idcode_example : idcode { State.reset with part := .yq8640 } = 0x28640D9D := by decide +kernel

/-- Places of registers in the spec's examples: sheet 13, stream ruling 17, TICK, channel 2. -/
theorem test_register_places :
    R.SHSTAT 13 = 0x20E000 ∧ R.SHFAULT 13 = 0x20E00C ∧ R.RCFG 17 = 0x101110 ∧ R.MCELOC1 2 = 0x702014 := by decide +kernel

/-- The example after R85: SHSTAT of a sheet in FAULT on H[1]. -/
theorem test_shstat_example :
    (csrRead (withArr base (fun a => { a with sheets := [(13, { sheetDflt 13 with state := .fault })] })) (.host 0) 1 (R.SHSTAT 13)).2 =
      0x805 := by decide +kernel

/-- The example after R139: tag and key of entry 5 of JOIN, port 2, in context 0x2A7. -/
theorem test_tag_example :
    keyTag (tagKey 0x2A70031100000580) 0 = 0x2A70031100000500 ∧ tagPort 0x2A70031100000580 = 2 := by decide +kernel

/-- Sheets 0 and 1, planes A (1), B (2) and C with one nib's bits each. -/
def adder (a b c : Bool) : State :=
  let at5 (x : Bool) : Plane := BitVec.ofNat 16384 (b2n x * 2 ^ 5)
  let s := sWord (bitW 1 2 3 0x96 0xE8 0 0 0 0 9 0 false false)
  withArr s (fun z => { z with
    sheets := [(0, { wSheet 0 .run with c := at5 c }), (1, wSheet 1 .run)], planes := [(1, at5 a), (2, at5 b)] })

/-- The example after R57: the full adder at index 5 gives sum 0 and carry 1. -/
theorem test_full_adder :
    let t := after (.bitWord 0) (adder true false true)
    (plane t 0 3).getLsbD 5 = false ∧ (getSheet t 0).c.getLsbD 5 = true := by decide +kernel

/-- The example after R88: the word 0x1000_2F02_F0FC_0081_8000_0000 ORs the north neighbour's T into plane 0x2F0. T holds
one nib, row 4 column 3; its southern neighbour gains a one. -/
theorem test_dilation_example :
    let s := withArr (sWord 0x10002F02F0FC008180000000) (fun z => { z with
      sheets := [(0, { wSheet 0 .run with gw := 1, t := BitVec.ofNat 16384 (2 ^ (128 * 4 + 3)) })], planes := [(0x2F0, 1)] })
    let t := after (.bitWord 0) s
    (plane t 0 0x2F0) = BitVec.ofNat 16384 (2 ^ (128 * 5 + 3) + 1) := by decide +kernel

/-- Published check values: CRC-8, CRC-16 and the CRC-32s of the digits 1 to 9, SHA-256 of nothing (FIPS 180-4). -/
theorem test_crcs :
    let d : Bytes := (List.range 9).map (fun i => BitVec.ofNat 8 (0x31 + i))
    crc8 d = 0xF4 ∧ crc16 d = 0x29B1 ∧ crc32c d = 0xE3069283 ∧ crc32 d = 0xCBF43926 := by decide +kernel
theorem test_sha_empty :
    sha256 [] = 0xe3b0c44298fc1c149afbf4c8996fb92427ae41e4649b934ca495991b7852b855 := by decide +kernel

end Sys2Proof.Tests
end

section
/-! Bookkeeping: what reading memory, recording an event and noting exhaustion may change, said once. -/
namespace Sys2Proof.Machine

/-! ## Registers apart -/

/-- A write to a register leaves the others of its block, on either hub. -/
theorem csr_setCsr_of_ne (s : State) (h off h' off' : Nat) (v : W32) (hne : off' ≠ off) (hoff : off < 0x4000000)
    (hoff' : off' < 0x4000000) : csr (setCsr s h off v) h' off' = csr s h' off' := by
  rw [csr_setCsr, if_neg]
  simp only [csrKey]
  omega

/-- The registers that records of events, exhaustion and the scheduling trace write (R135, R163, R270, R369). -/
def recordRegs : List Nat :=
  (List.range 8).map R.SDSTAT ++
  (List.range 4).flatMap (fun i => [R.MCECC i, R.MCELOC0 i, R.MCELOC1 i, R.MCWDISC i, R.UECC i, R.UELOC0 i, R.UELOC1 i,
    R.UMWDISC i]) ++ [R.JWR, R.JDROP, R.TRWR, R.TRLOST]

theorem lt_of_mem_recordRegs : ∀ off ∈ recordRegs, off < 0x4000000 := by decide

theorem sdstat_mem_recordRegs : ∀ p < 8, R.SDSTAT p ∈ recordRegs := by decide

/-- The registers where a unit's errors are counted and placed are registers of records. -/
theorem eccUnit_mem_recordRegs (k : Nat) : (eccUnit k).ecc ∈ recordRegs ∧ (eccUnit k).loc0 ∈ recordRegs ∧
    (eccUnit k).loc1 ∈ recordRegs ∧ (eccUnit k).wdisc ∈ recordRegs := by
  have hmain : ∀ i < 4, R.MCECC i ∈ recordRegs ∧ R.MCELOC0 i ∈ recordRegs ∧ R.MCELOC1 i ∈ recordRegs ∧
      R.MCWDISC i ∈ recordRegs := by decide
  have hcommon : ∀ i < 4, R.UECC i ∈ recordRegs ∧ R.UELOC0 i ∈ recordRegs ∧ R.UELOC1 i ∈ recordRegs ∧
      R.UMWDISC i ∈ recordRegs := by decide
  unfold eccUnit
  split
  · exact hmain _ (by omega)
  · exact hcommon _ (by omega)

/-- A hub has four memory channels (R12). -/
theorem region_main_lt {eh a n k : Nat} (h : region eh a = .main n k) : k < 4 := by
  unfold region at h
  split at h
  · cases h
    exact Nat.mod_lt _ (by decide)
  · iterate 9
      split at h
      · cases h
    cases h

/-- The first match of a list depends on the test of its members alone. -/
theorem find?_eq_of_eq_on {α : Type} {p q : α → Bool} {l : List α} (h : ∀ x ∈ l, p x = q x) :
    l.find? p = l.find? q := by
  induction l with
  | nil => rfl
  | cons x l ih =>
    rw [List.find?_cons, List.find?_cons, h x List.mem_cons_self, ih fun y hy => h y (List.mem_cons_of_mem x hy)]

/-- A core's partition is one of eight. -/
theorem corePart_lt (s : State) (i : Nat) : corePart s i < 8 := by
  unfold corePart
  cases hf : (List.range 8).find? (fun p => rdB s (i / 32) (R.PCORES p) (i % 32)) with
  | none => simp
  | some p => exact List.mem_range.mp (List.mem_of_find?_eq_some hf)

/-- A bank's owner is told by four bits. -/
theorem bankOwner_lt (s : State) (h b : Nat) : bankOwner s h b < 16 := by
  have hfld (v : W32) (i : Nat) : fld v (4 * i + 3) (4 * i) < 16 := by
    have hw : 4 * i + 3 + 1 - 4 * i = 4 := by omega
    rw [fld, hw]
    exact Nat.mod_lt _ (by decide)
  unfold bankOwner
  split <;> exact hfld _ _

/-! ## Nothing but records -/

/-- `t` with everything of `s` that bookkeeping may change. -/
def recordsAs (s t : State) : State :=
  { t with csr := s.csr, cpu := s.cpu, mem := s.mem, dbg := s.dbg, fresh := s.fresh,
           svc := { t.svc with jlost := s.svc.jlost, jbuf := s.svc.jbuf },
           dsp := { t.dsp with trLost := s.dsp.trLost },
           tok := { t.tok with throttled := s.tok.throttled } }

/-- Nothing has changed but memory, the journal, the trace, the registers of records, free values drawn, throttles, and
reservations that have ended (R186). -/
structure OnlyRecords (s t : State) : Prop where
  rest : recordsAs s t = s
  cores : CoresKept s t
  regs : ∀ h off, off < 0x4000000 → off ∉ recordRegs → csr t h off = csr s h off

theorem CoresKept.trans {s t u : State} (h1 : CoresKept s t) (h2 : CoresKept t u) : CoresKept s u := by
  intro i
  rcases h1 i with e1 | e1 <;> rcases h2 i with e2 | e2 <;> simp [e1, e2]

theorem coresKept_of_cpu {s t : State} (h : t.cpu = s.cpu) : CoresKept s t := fun i => .inl (by simp [getCore, h])

namespace OnlyRecords
variable {s t u : State}

theorem refl (s : State) : OnlyRecords s s := ⟨rfl, coresKept_of_cpu rfl, fun _ _ _ _ => rfl⟩

theorem trans (h1 : OnlyRecords s t) (h2 : OnlyRecords t u) : OnlyRecords s u where
  rest := calc
    recordsAs s u = recordsAs s (recordsAs t u) := rfl
    _ = s := by rw [h2.rest, h1.rest]
  cores := h1.cores.trans h2.cores
  regs h off hlt hr := (h2.regs h off hlt hr).trans (h1.regs h off hlt hr)

/-- A change that bookkeeping may make, of neither cores nor registers. -/
theorem of_rest (h : OnlyRecords s t) (hu : recordsAs t u = t) (hcpu : u.cpu = t.cpu) (hcsr : u.csr = t.csr) :
    OnlyRecords s u :=
  h.trans ⟨hu, coresKept_of_cpu hcpu, fun _ _ _ _ => by rw [csr, csr, hcsr, ← congrArg State.part hu]; rfl⟩

theorem ite (ht : OnlyRecords s t) (c : Prop) [Decidable c] (hu : OnlyRecords s u) :
    OnlyRecords s (if c then t else u) := by
  split
  · exact ht
  · exact hu

/-- What a state reads beside the changes of bookkeeping. -/
theorem read_eq {α : Type} (h : OnlyRecords s t) (f : State → α) : f (recordsAs s t) = f s := congrArg f h.rest

theorem entries_eq (h : OnlyRecords s t) : t.tok.entries = s.tok.entries := h.read_eq (·.tok.entries)
theorem getAq_eq (h : OnlyRecords s t) (n b : Nat) : getAq t n b = getAq s n b := h.read_eq (getAq · n b)
theorem getSpill_eq (h : OnlyRecords s t) (n b : Nat) : getSpill t n b = getSpill s n b := h.read_eq (getSpill · n b)
theorem getBlook_eq (h : OnlyRecords s t) (n b : Nat) : getBlook t n b = getBlook s n b := h.read_eq (getBlook · n b)
theorem inboxOf_eq (h : OnlyRecords s t) (n : Nat) : inboxOf t n = inboxOf s n := h.read_eq (inboxOf · n)
theorem readyOf_eq (h : OnlyRecords s t) (i : Nat) : readyOf t i = readyOf s i := h.read_eq (readyOf · i)

/-- Bookkeeping touches nothing outside the matching store, dispatch, the journal and their registers. -/
theorem onlyTokens (h : OnlyRecords s t) : OnlyTokens s t :=
  ⟨h.read_eq (·.part), h.read_eq (·.arr), h.read_eq (·.net), h.read_eq (·.evi), h.read_eq (·.lan), h.read_eq (·.fab),
   h.read_eq (·.boot), h.read_eq (·.pwr), h.read_eq (·.rul.marks), h.read_eq (·.rul.pos), h.read_eq (·.pending),
   h.cores⟩

/-! ### The operations that make records -/

theorem setCsr (h : OnlyRecords s t) {off : Nat} (hr : off ∈ recordRegs) (n : Nat) (v : W32) :
    OnlyRecords s (setCsr t n off v) := by
  refine h.trans ⟨rfl, coresKept_of_cpu rfl, fun n' off' hlt hr' => ?_⟩
  have hne : off' ≠ off := by rintro rfl; exact hr' hr
  exact csr_setCsr_of_ne t n off n' off' v hne (lt_of_mem_recordRegs off hr) hlt

theorem bump (h : OnlyRecords s t) {off : Nat} (hr : off ∈ recordRegs) (n hi lo k : Nat) :
    OnlyRecords s (bump t n off hi lo k) := h.setCsr hr n _

theorem wrB (h : OnlyRecords s t) {off : Nat} (hr : off ∈ recordRegs) (n b : Nat) (v : Bool) :
    OnlyRecords s (wrB t n off b v) := h.setCsr hr n _

theorem wbs (h : OnlyRecords s t) (k : Nat) (bs : Bytes) : OnlyRecords s (wbs t k bs) := h.of_rest rfl rfl rfl
theorem drawn (h : OnlyRecords s t) : OnlyRecords s (drawn t) := h.of_rest rfl rfl rfl
theorem setBad (h : OnlyRecords s t) (cw : Nat) (m : BitVec 20) : OnlyRecords s (setBad t cw m) := h.of_rest rfl rfl rfl
theorem goodCws (h : OnlyRecords s t) (k : Nat) : OnlyRecords s (goodCws t k) := h.of_rest rfl rfl rfl
theorem setJlost (h : OnlyRecords s t) (n : Nat) (b : Bool) : OnlyRecords s (setJlost t n b) := h.of_rest rfl rfl rfl
theorem setJbuf (h : OnlyRecords s t) (n : Nat) (q : List Bytes) : OnlyRecords s (setJbuf t n q) :=
  h.of_rest rfl rfl rfl

theorem dropDirty (h : OnlyRecords s t) (k n : Nat) : OnlyRecords s (dropDirty t k n) := by
  unfold Machine.dropDirty
  split
  · exact h
  · exact h.of_rest rfl rfl rfl

theorem endReservation (h : OnlyRecords s t) (i : Nat) :
    OnlyRecords s (updCore t i (fun c => { c with lladdr := 0 })) := by
  refine h.trans ⟨rfl, fun j => ?_, fun _ _ _ _ => rfl⟩
  by_cases hj : j = i
  · subst hj; exact .inr (getCore_updCore_self t j _)
  · exact .inl (getCore_updCore_ne t i j _ hj)

theorem dropRes (h : OnlyRecords s t) (who : Option Nat) (k n : Nat) : OnlyRecords s (dropRes t who k n) :=
  foldl_keeps (OnlyRecords s) _ _ _ h (fun _ i ht => ht.endReservation i)

theorem jwrite (h : OnlyRecords s t) (n : Nat) (body : Bytes) : OnlyRecords s (jwrite t n body) := by
  unfold Machine.jwrite
  dsimp only
  split
  · exact (((((h.wbs _ _).dropDirty _ _).dropRes _ _ _).goodCws _).setJlost _ _).setCsr (by decide) _ _
  · exact (h.setJlost _ _).bump (by decide) _ _ _ _

theorem journal (h : OnlyRecords s t) (n code : Nat) (alarm : Bool) (part : Nat) (det : Bytes) :
    OnlyRecords s (journal t n code alarm part det) := by
  unfold Machine.journal
  dsimp only
  split
  · exact h.jwrite _ _
  · split
    · exact h.setJbuf _ _
    · exact (h.setJlost _ _).bump (by decide) _ _ _ _

theorem eloc (h : OnlyRecords s t) (k a sym src : Nat) (unc : Bool) :
    OnlyRecords s (eloc t (eccUnit k) a sym src unc) := by
  unfold Machine.eloc
  split
  · exact h
  · obtain ⟨-, hloc0, hloc1, -⟩ := eccUnit_mem_recordRegs k
    exact (h.setCsr hloc0 _ _).setCsr hloc1 _ _

theorem scramble (h : OnlyRecords s t) (cw : Nat) : OnlyRecords s (scramble t cw) := (h.wbs _ _).drawn

/-- A decoder's verdict is counted, recorded and written back. -/
theorem checkCw (h : OnlyRecords s t) (cw src : Nat) : OnlyRecords s (checkCw t cw src).1 := by
  obtain ⟨hecc, -, -, -⟩ := eccUnit_mem_recordRegs cw
  unfold Machine.checkCw
  dsimp only
  have counted {t : State} (ht : OnlyRecords s t) := ht.bump hecc (eccUnit cw).h 31 16 1
  have corrected {t : State} (ht : OnlyRecords s t) (sym : Nat) :=
    ((((counted ht).journal (eccUnit cw).h evMemCorr false noPart
      (memDetail (eccUnit cw).code sym src 0 (eccAddr cw))).ite
      ((!(elocHolds t (eccUnit cw) (eccAddr cw))) = true) (counted ht)).eloc cw (eccAddr cw) sym src false).setBad cw 0
  have uncorrectable {t : State} (ht : OnlyRecords s t) :=
    ((ht.bump hecc (eccUnit cw).h 15 0 1).journal (eccUnit cw).h evMemUncorr false noPart
      (memDetail (eccUnit cw).code 0x1F src 0 (eccAddr cw))).eloc cw (eccAddr cw) 0x1F src true
  split
  · exact h
  split
  · exact corrected h _
  split
  · exact uncorrectable h
  split
  · exact h.drawn.scramble cw
  split
  · exact corrected (h.drawn.drawn.scramble cw) _
  · exact uncorrectable h.drawn

theorem checkRange (h : OnlyRecords s t) (k n src : Nat) : OnlyRecords s (checkRange t k n src).1 := by
  unfold Machine.checkRange
  split
  · exact h
  · exact foldl_keeps (fun r : State × MStat => OnlyRecords s r.1) _ _ _ h (fun _ cw hr => hr.checkCw cw src)

/-- A read of memory leaves nothing but records of the errors it met. -/
theorem mrd (h : OnlyRecords s t) (eh a n : Nat) : OnlyRecords s (mrd t eh a n).1 := by
  have hc := h.checkRange (absKey eh a) n 0
  unfold Machine.mrd
  split
  · exact h
  · dsimp only
    split
    · split
      · next e => rwa [e] at hc
      · next e => rwa [e] at hc
    · exact h

/-- Reading a descriptor leaves nothing but records. (`mrd` is named `read` first, so that the kernel does not
evaluate it when it checks the opened body.) -/
theorem readDesc (h : OnlyRecords s t) (n i : Nat) : OnlyRecords s (readDesc t n i).1 := by
  have hm := h.mrd n (cltBase t n + 16 * i) 16
  obtain ⟨read, hread⟩ : ∃ f, f = Machine.mrd := ⟨_, rfl⟩
  generalize hf : Machine.readDesc = f
  delta Machine.readDesc at hf
  rw [← hread] at hf hm
  subst hf
  dsimp only
  split
  · next e =>
    rw [e] at hm
    split
    · exact hm
    · exact hm.journal _ _ _ _ _
  · next e => rw [e] at hm; exact hm.journal _ _ _ _ _

theorem rmwCheck (h : OnlyRecords s t) (k n : Nat) : OnlyRecords s (rmwCheck t k n).1 := by
  unfold Machine.rmwCheck
  split
  · exact h
  · refine foldl_keeps (fun r : State × List Nat => OnlyRecords s r.1) _ _ _ h (fun r cw hr => ?_)
    have hc := hr.checkCw cw 1
    obtain ⟨-, -, -, hwdisc⟩ := eccUnit_mem_recordRegs cw
    split
    · split
      · next e => rwa [e] at hc
      · next e => rw [e] at hc; exact hc.bump hwdisc _ _ _ _
    · exact hr.setBad _ _

/-- A write of memory leaves nothing but its bytes and records of the errors it met. -/
theorem mwr (h : OnlyRecords s t) (eh : Nat) (who : Option Nat) (a : Nat) (bs : Bytes) :
    OnlyRecords s (mwr t eh who a bs).1 := by
  have hstored {u : State} (hu : OnlyRecords s u) (k n : Nat) (b : Bytes) :
      OnlyRecords s (Machine.dropRes (Machine.dropDirty (Machine.wbs u k b) k n) who k n) :=
    ((hu.wbs k b).dropDirty k n).dropRes who k n
  have hcheck : OnlyRecords s (if coded (absKey eh a) = true then Machine.rmwCheck t (absKey eh a) bs.length
      else (t, [])).1 := by
    split
    · exact h.rmwCheck _ _
    · exact h
  unfold Machine.mwr
  dsimp only
  split
  · exact h
  split
  · exact h
  split
  · exact h
  generalize (if coded (absKey eh a) = true then Machine.rmwCheck t (absKey eh a) bs.length else (t, [])) = r at hcheck
  obtain ⟨u, refused⟩ := r
  dsimp only at hcheck ⊢
  split
  · exact hstored hcheck _ _ _
  split
  · exact hcheck
  · exact hstored hcheck _ _ _

theorem setTrLost (h : OnlyRecords s t) (q : Tab Bool) :
    OnlyRecords s { t with dsp := { t.dsp with trLost := q } } := h.of_rest rfl rfl rfl

theorem setDbg (h : OnlyRecords s t) (d : DebugSys) : OnlyRecords s { t with dbg := d } := h.of_rest rfl rfl rfl

/-- A record of the scheduling trace, written or dropped. -/
theorem trace (h : OnlyRecords s t) (n part type : Nat) (tag : W64) (aux core : Nat) :
    OnlyRecords s (trace t n part type tag aux core) := by
  have hm (a : Nat) (bs : Bytes) := h.mwr n none a bs
  obtain ⟨write, hwrite⟩ : ∃ f, f = Machine.mwr := ⟨_, rfl⟩
  generalize hf : Machine.trace = f
  delta Machine.trace at hf
  rw [← hwrite] at hf hm
  subst hf
  dsimp only
  split
  · exact h
  split
  · split
    · exact ((h.setDbg _).setCsr (by decide) _ _).setTrLost _
    · exact (h.bump (by decide) _ _ _ _).setTrLost _
  split
  · exact (h.bump (by decide) _ _ _ _).setTrLost _
  split
  · next e =>
    replace hm := congrArg Prod.fst e ▸ hm _ _
    exact (hm.setCsr (by decide) _ _).setTrLost _
  · next e =>
    replace hm := congrArg Prod.fst e ▸ hm _ _
    exact (hm.bump (by decide) _ _ _ _).setTrLost _

theorem setThrottled (h : OnlyRecords s t) (q : Tab Bool) :
    OnlyRecords s { t with tok := { t.tok with throttled := q } } := h.of_rest rfl rfl rfl

theorem settle1 (h : OnlyRecords s t) (n : Nat) {p : Nat} (hp : p < 8) : OnlyRecords s (settle1 t n p) := by
  unfold Machine.settle1
  dsimp only
  apply setThrottled
  split
  · exact (h.wrB (sdstat_mem_recordRegs p hp) _ _ _).journal _ _ _ _ _
  · exact h

/-- Settling a hub's pools leaves nothing but records. -/
theorem settle (h : OnlyRecords s t) (n : Nat) : OnlyRecords s (settle t n) :=
  List.foldlRecOn (List.range 8) _ h fun _ ht _ hp => ht.settle1 n (List.mem_range.mp hp)

/-! ### What bookkeeping leaves to be read -/

theorem rdF_eq (h : OnlyRecords s t) {off : Nat} (hlt : off < 0x4000000) (hr : off ∉ recordRegs) (n hi lo : Nat) :
    rdF t n off hi lo = rdF s n off hi lo := by rw [rdF, rdF, h.regs n off hlt hr]

theorem rdB_eq (h : OnlyRecords s t) {off : Nat} (hlt : off < 0x4000000) (hr : off ∉ recordRegs) (n b : Nat) :
    rdB t n off b = rdB s n off b := by rw [rdB, rdB, h.rdF_eq hlt hr]

theorem corePart_eq (h : OnlyRecords s t) (i : Nat) : corePart t i = corePart s i := by
  have hpc : ∀ p < 8, R.PCORES p < 0x4000000 ∧ R.PCORES p ∉ recordRegs := by decide
  have heq : ∀ p ∈ List.range 8, rdB t (i / 32) (R.PCORES p) (i % 32) = rdB s (i / 32) (R.PCORES p) (i % 32) := by
    intro p hp
    obtain ⟨hlt, hr⟩ := hpc p (List.mem_range.mp hp)
    exact h.rdB_eq hlt hr _ _
  rw [corePart, corePart, find?_eq_of_eq_on heq]

theorem hubLinkOk_eq (h : OnlyRecords s t) : hubLinkOk t = hubLinkOk s := by
  have hpart : t.part = s.part := h.read_eq (·.part)
  have htaken : t.svc.taken = s.svc.taken := h.read_eq (·.svc.taken)
  have hlink : R.DPLCTL 6 < 0x4000000 ∧ R.DPLCTL 6 ∉ recordRegs := by decide
  simp only [hubLinkOk, hubOk, hpart, htaken, h.rdB_eq hlink.1 hlink.2, h.rdF_eq hlink.1 hlink.2]

theorem reach_eq (h : OnlyRecords s t) (eh n : Nat) : reach t eh n = reach s eh n := by
  have hpart : t.part = s.part := h.read_eq (·.part)
  rw [reach, reach, h.hubLinkOk_eq, hubOk, hubOk, hpart]

theorem tileIso_eq (h : OnlyRecords s t) (n : Nat) {x : Nat} (hlt : R.NTILE x < 0x4000000)
    (hr : R.NTILE x ∉ recordRegs) : tileIso t n x = tileIso s n x := by
  rw [tileIso, tileIso, h.rdB_eq hlt hr, h.rdB_eq hlt hr]

/-- A memory serves on as before: bookkeeping fences nothing and stops no channel. -/
theorem memServes_eq (h : OnlyRecords s t) (eh a : Nat) : memServes t eh a = memServes s eh a := by
  have hpart : t.part = s.part := h.read_eq (·.part)
  have hchan : ∀ k < 4, (R.MCCFG k < 0x4000000 ∧ R.MCCFG k ∉ recordRegs) ∧
      (R.MCINIT k < 0x4000000 ∧ R.MCINIT k ∉ recordRegs) ∧
      R.NTILE (tMC k) < 0x4000000 ∧ R.NTILE (tMC k) ∉ recordRegs := by decide
  have hcommon : ∀ x < 2, R.NTILE (tCMM x) < 0x4000000 ∧ R.NTILE (tCMM x) ∉ recordRegs := by decide
  unfold memServes
  cases hreg : region eh a with
  | main n k =>
    obtain ⟨⟨hcl, hcr⟩, ⟨hil, hir⟩, htl, htr⟩ := hchan k (region_main_lt hreg)
    simp only [h.reach_eq, chanServes, chanOk, hubOk, hpart, h.rdF_eq hcl hcr, h.rdB_eq hil hir, h.tileIso_eq n htl htr]
  | common n =>
    obtain ⟨htl, htr⟩ := hcommon (a / 0x800000 % 2) (by omega)
    simp only [h.reach_eq, h.tileIso_eq n htl htr]
  | flash => exact h.reach_eq eh 0
  | rom => simp only [h.tileIso_eq eh (x := tSYS) (by decide) (by decide)]
  | csr _ _ => rfl
  | fport _ _ _ => rfl
  | hole => rfl

theorem bltServes_eq (h : OnlyRecords s t) (n : Nat) {p : Nat} (hp : p < 16) : bltServes t n p = bltServes s n p := by
  have hbase : ∀ p < 16, (R.BLTBASEHI p < 0x4000000 ∧ R.BLTBASEHI p ∉ recordRegs) ∧
      R.BLTBASELO p < 0x4000000 ∧ R.BLTBASELO p ∉ recordRegs := by decide
  obtain ⟨⟨hhl, hhr⟩, hll, hlr⟩ := hbase p hp
  rw [bltServes, bltServes, h.memServes_eq, bltBase, bltBase, h.rdF_eq hhl hhr, h.regs n _ hll hlr]

end OnlyRecords
end Sys2Proof.Machine
end

section
/-! What lookups do in each case (R129 to R132).

A proof that opens a function whose body matches on a read or write of memory first names that callee by a variable
(`obtain ⟨read, hread⟩ : ∃ f, f = readDesc`): the kernel would otherwise evaluate the access when it compares the
unfolded body with the function. -/
namespace Sys2Proof.Machine

/-! ## The trace, exhaustion and duplicates -/

/-- No trace record is written while TRCTL.EN is 0 (R163). -/
theorem trace_off {s : State} {h : Nat} (htr : rdB s h R.TRCTL 31 = false) (part type : Nat) (tag : W64)
    (aux core : Nat) : trace s h part type tag aux core = s := by
  have hen : fld (csr s h R.TRCTL) 31 31 = 0 := by
    simp only [rdB, rdF, beq_eq_false_iff_ne, fld] at htr ⊢
    omega
  obtain ⟨write, hwrite⟩ : ∃ f, f = mwr := ⟨_, rfl⟩
  generalize hf : trace = f
  delta trace at hf
  rw [← hwrite] at hf
  subst hf
  simp [hen]

/-- No pool of the hub is about to be noted as exhausted (R135). -/
def NoneExhausted (s : State) (h : Nat) : Prop :=
  ∀ p < 8, poolTotal s h p ≤ poolPages s h p → poolTotal s h p = 0 ∨ rdB s h (R.SDSTAT p) 30 = true

/-- Settling a pool that is not newly exhausted sets its throttle alone. -/
theorem settle1_throttles {s : State} {h p : Nat}
    (hp : poolTotal s h p ≤ poolPages s h p → poolTotal s h p = 0 ∨ rdB s h (R.SDSTAT p) 30 = true) :
    ∃ q, settle1 s h p = { s with tok := { s.tok with throttled := q } } := by
  have hno : (poolTotal s h p ≠ 0 && poolTotal s h p ≤ poolPages s h p && !(rdB s h (R.SDSTAT p) 30)) = false := by
    by_cases hle : poolTotal s h p ≤ poolPages s h p
    · rcases hp hle with h0 | h1
      · simp [h0]
      · simp [h1]
    · simp [hle]
  unfold settle1
  simp only [hno]
  exact ⟨_, rfl⟩

theorem settle_throttles {s : State} {h : Nat} (hn : NoneExhausted s h) :
    ∃ q, settle s h = { s with tok := { s.tok with throttled := q } } := by
  refine List.foldlRecOn (motive := fun t : State => ∃ q, t = { s with tok := { s.tok with throttled := q } })
    (List.range 8) _ ⟨s.tok.throttled, rfl⟩ ?_
  rintro _ ⟨q, rfl⟩ p hp
  exact settle1_throttles (hn p (List.mem_range.mp hp))

theorem svc_settle {s : State} {h : Nat} (hn : NoneExhausted s h) : (settle s h).svc = s.svc := by
  obtain ⟨q, hq⟩ := settle_throttles hn
  rw [hq]

theorem toNat_setFld_whole (v : W32) {n : Nat} (hn : n < 2 ^ 32) : (setFld v 31 0 n).toNat = n := by
  have hmask : (BitVec.ofNat 32 (2 ^ (31 + 1 - 0) - 1)) <<< 0 = BitVec.allOnes 32 := by decide
  simp only [setFld, hmask, BitVec.not_allOnes, BitVec.and_zero, BitVec.zero_or, BitVec.shiftLeft_zero,
    BitVec.toNat_ofNat]
  omega

/-- A counter of a whole register counts up by one and saturates. -/
theorem csr_bump_whole (s : State) (h off : Nat) :
    (csr (bump s h off 31 0 1) h off).toNat = min ((csr s h off).toNat + 1) (2 ^ 32 - 1) := by
  have hlt := (csr s h off).isLt
  rw [bump, wrF, csr_setCsr_self, toNat_setFld_whole]
  · simp only [rdF, fld]
    omega
  · omega

/-- What a pool's pages are counted from. -/
theorem poolPages_congr {s t : State} {h : Nat} (hspill : t.tok.spill = s.tok.spill)
    (hentries : t.tok.entries = s.tok.entries) (hdsp : t.dsp = s.dsp) (howner : bankOwner t h = bankOwner s h)
    (hcore : corePart t = corePart s) (p : Nat) : poolPages t h p = poolPages s h p := by
  unfold poolPages
  simp only [getSpill, backlogOf, hspill, hentries, hdsp, howner, hcore]

theorem bump_tok (s : State) (h off hi lo n : Nat) : (bump s h off hi lo n).tok = s.tok := setCsr_tok _ _ _ _
theorem bump_dsp (s : State) (h off hi lo n : Nat) : (bump s h off hi lo n).dsp = s.dsp := setCsr_dsp _ _ _ _
theorem bump_svc (s : State) (h off hi lo n : Nat) : (bump s h off hi lo n).svc = s.svc := setCsr_svc _ _ _ _

/-- Registers that lie otherwise within their 64 bytes than MSDUP keep their value when it counts. -/
theorem csr_bump_msdup_of_mod_ne (s : State) (h k h' off : Nat) (hoff : off % 64 ≠ 48) :
    csr (bump s h R.MSDUP 31 0 k) h' off = csr s h' off := by
  rw [bump, wrF, csr_setCsr, if_neg]
  simp only [csrKey, R.MSDUP]
  omega

theorem bankOwner_bump_msdup (s : State) (h k : Nat) : bankOwner (bump s h R.MSDUP 31 0 k) h = bankOwner s h := by
  funext b
  unfold bankOwner rdF
  rw [csr_bump_msdup_of_mod_ne _ _ _ _ R.MBPART0 (by decide), csr_bump_msdup_of_mod_ne _ _ _ _ R.MBPART1 (by decide)]

theorem corePart_bump_msdup (s : State) (h k : Nat) : corePart (bump s h R.MSDUP 31 0 k) = corePart s := by
  funext i
  have hpc (q : Nat) : csr (bump s h R.MSDUP 31 0 k) (i / 32) (R.PCORES q) = csr s (i / 32) (R.PCORES q) :=
    csr_bump_msdup_of_mod_ne _ _ _ _ _ (by simp only [R.PCORES]; omega)
  simp only [corePart, rdB, rdF, hpc]

theorem poolPages_bump_msdup (s : State) (h k p : Nat) :
    poolPages (bump s h R.MSDUP 31 0 k) h p = poolPages s h p :=
  poolPages_congr (congrArg TokenSys.spill (bump_tok s h _ _ _ k)) (congrArg TokenSys.entries (bump_tok s h _ _ _ k))
    (bump_dsp s h _ _ _ k) (bankOwner_bump_msdup s h k) (corePart_bump_msdup s h k) p

theorem poolTotal_bump_msdup (s : State) (h k p : Nat) :
    poolTotal (bump s h R.MSDUP 31 0 k) h p = poolTotal s h p := by
  unfold poolTotal rdB rdF
  rw [csr_bump_msdup_of_mod_ne _ _ _ _ (R.BLTCTL p) (by simp only [R.BLTCTL]; omega)]

/-- MSDUP is no part of what measures a hub's pools. -/
theorem noneExhausted_bump_msdup {s : State} {h : Nat} (hn : NoneExhausted s h) (k : Nat) :
    NoneExhausted (bump s h R.MSDUP 31 0 k) h := by
  intro p hp
  have hsd : rdB (bump s h R.MSDUP 31 0 k) h (R.SDSTAT p) 30 = rdB s h (R.SDSTAT p) 30 := by
    rw [rdB, rdB, rdF, rdF, bump, wrF, csr_setCsr_of_ne] <;> simp only [R.SDSTAT, R.MSDUP] <;> omega
  rw [poolTotal_bump_msdup, poolPages_bump_msdup, hsd]
  exact hn p hp

/-- A hub's pools are measured by registers, spilled tokens, entries and dispatch: arrival queues and blotter lookups
are no part of it. -/
theorem noneExhausted_congr {s t : State} {h : Nat} (hcsr : csr t = csr s) (hspill : t.tok.spill = s.tok.spill)
    (hentries : t.tok.entries = s.tok.entries) (hdsp : t.dsp = s.dsp) (hn : NoneExhausted s h) :
    NoneExhausted t h := by
  have hrdB : rdB t = rdB s := by funext; rw [rdB, rdB, rdF, rdF, hcsr]
  have howner : bankOwner t h = bankOwner s h := by funext b; unfold bankOwner rdF; rw [hcsr]
  have hcore : corePart t = corePart s := by funext i; unfold corePart; rw [hrdB]
  have htotal (p : Nat) : poolTotal t h p = poolTotal s h p := by unfold poolTotal rdF; rw [hrdB, hcsr]
  intro p hp
  rw [htotal, poolPages_congr hspill hentries hdsp howner hcore, hrdB]
  exact hn p hp

/-! ## The stages of a lookup -/

/-- The first match of a list that passes a further test is the first that passes both. -/
theorem find?_and_of_find? {α : Type} {l : List α} {p q : α → Bool} {a : α} (hf : l.find? p = some a)
    (hq : q a = true) : l.find? (fun x => p x && q x) = some a := by
  rw [List.find?_eq_some_iff_append] at hf ⊢
  obtain ⟨hp, as, bs, hl, has⟩ := hf
  refine ⟨by simp [hp, hq], as, bs, hl, fun x hx => ?_⟩
  have hpx := has x hx
  simp only [Bool.not_eq_true'] at hpx
  simp [hpx]

section
variable {s g : State} {h b : Nat} {k : Tok} {l : List Tok} {d : Desc} {e : Entry} {blt : Bool}

/-- A token whose port is present is counted and leaves the entries (R130). -/
theorem fillEntry_duplicate (htr : rdB s h R.TRCTL 31 = false)
    (hport : (e.vals.getD (tagPort k.tag) none).isSome = true) :
    fillEntry s h b k e = bump s h R.MSDUP 31 0 1 := by
  have htr' : rdB (bump s h R.MSDUP 31 0 1) h R.TRCTL 31 = false := by
    rw [← htr, rdB, rdB, rdF, rdF, csr_bump_msdup_of_mod_ne _ _ _ _ _ (by decide)]
  obtain ⟨read, hread⟩ : ∃ f, f = readDesc := ⟨_, rfl⟩
  generalize hf : fillEntry = f
  delta fillEntry at hf
  rw [← hread] at hf
  subst hf
  simp only [hport, if_true, trace_off htr']

/-- The entry with one more port. -/
def filledEntry (e : Entry) (k : Tok) : Entry :=
  { e with vals := e.vals.set (tagPort k.tag) (some k.value), cls := max e.cls (tagClass k.tag) }

/-- The token that fills the last port makes the entry ready, and it leaves the store (R129). -/
theorem fillEntry_last (htr : rdB s h R.TRCTL 31 = false) (hport : e.vals.getD (tagPort k.tag) none = none)
    (hfull : presence (filledEntry e k).vals = 2 ^ e.arity - 1)
    (hr : readDesc (setEntries s (s.tok.entries.filter (fun y => !(isEntry h (tagKey k.tag) y)))) h
      (tagCodelet k.tag) = (g, some d)) :
    ∃ u, OnlyRecords g u ∧ fillEntry s h b k e = toDispatch u h (entryInst (filledEntry e k) d) := by
  have hport' : (e.vals.getD (tagPort k.tag) none).isSome = false := by rw [hport]; rfl
  obtain ⟨read, hread⟩ : ∃ f, f = readDesc := ⟨_, rfl⟩
  generalize hf : fillEntry = f
  delta fillEntry at hf
  rw [← hread] at hf hr
  subst hf
  simp only [filledEntry] at hfull ⊢
  simp only [hport', trace_off htr, hfull, hr, if_true, Bool.false_eq_true, if_false]
  exact ⟨_, (OnlyRecords.refl g).trace _ _ _ _ _ _, rfl⟩

/-- The entry that a token starts in a way (R131). -/
def wayEntry (s : State) (h b : Nat) (k : Tok) (d : Desc) : Entry :=
  { hub := hubFin h, bank := b, set := keySet (tagKey k.tag), key := tagKey k.tag, arity := d.arity,
    vals := (List.range 4).map (fun i => if i = tagPort k.tag then some k.value else none),
    cls := tagClass k.tag, part := (getCtx s h (tagCtx k.tag)).part, place := .way,
    chk := tagCheck (keyTag (tagKey k.tag) 0) }

/-- While a way of the set is free a new entry takes it (rule 1 of R131). -/
theorem newEntry_way (hr : readDesc s h (tagCodelet k.tag) = (g, some d))
    (hway : waysUsed g h b (keySet (tagKey k.tag)) < 8) :
    OnlyRecords (setEntries g (g.tok.entries ++ [wayEntry s h b k d])) (newEntry s h b k) := by
  obtain ⟨read, hread⟩ : ∃ f, f = readDesc := ⟨_, rfl⟩
  generalize hf : newEntry = f
  delta newEntry at hf
  rw [← hread] at hf hr
  subst hf
  simp only [hr, hway, if_true]
  exact (OnlyRecords.refl _).trace _ _ _ _ _ _

/-- A lookup that finds an entry it may use fills it (R129, R132). -/
theorem lookup_found (hlive : (getCtx s h (tagCtx k.tag)).state = .live) (hsw : sweeping s h (tagCtx k.tag) = false)
    (hf : s.tok.entries.find? (isEntry h (tagKey k.tag)) = some e) (hseen : (blt || e.place == .way) = true)
    (hgood : e.place ≠ .way → e.chk = tagCheck (keyTag (tagKey k.tag) 0) ∧ bltServes s h e.part = true) :
    lookup s h b k blt = fillEntry s h b k e := by
  have hfind := find?_and_of_find? (q := fun y => blt || y.place == .way) hf hseen
  unfold lookup
  simp only [hlive, hsw, hfind]
  by_cases hp : e.place = .way
  · simp [hp]
  · obtain ⟨hc, hs⟩ := hgood hp
    simp [hc, hs]

theorem find?_eq_none_of_absent {q : Entry → Bool} {key : BitVec 56}
    (hno : s.tok.entries.all (fun y => !(isEntry h key y)) = true) :
    s.tok.entries.find? (fun y => isEntry h key y && q y) = none := by
  rw [List.find?_eq_none]
  intro y hy
  have := List.all_eq_true.mp hno y hy
  simp only [Bool.not_eq_true'] at this
  simp [this]

/-- A lookup that finds no entry, in the store or with the blotter read, makes one (R129, R131). -/
theorem lookup_new (hlive : (getCtx s h (tagCtx k.tag)).state = .live) (hsw : sweeping s h (tagCtx k.tag) = false)
    (hno : s.tok.entries.all (fun y => !(isEntry h (tagKey k.tag) y)) = true)
    (hread : blt = true ∨ ovf s h b (keySet (tagKey k.tag)) = 0) : lookup s h b k blt = newEntry s h b k := by
  unfold lookup
  simp only [hlive, hsw, find?_eq_none_of_absent hno]
  rcases hread with hb | ho
  · simp [hb]
  · simp [ho]

/-- A lookup in a set with entries outside the store waits for the blotter (R132). -/
theorem lookup_await (hlive : (getCtx s h (tagCtx k.tag)).state = .live) (hsw : sweeping s h (tagCtx k.tag) = false)
    (hno : s.tok.entries.all (fun y => !(isEntry h (tagKey k.tag) y)) = true)
    (hovf : 0 < ovf s h b (keySet (tagKey k.tag))) :
    lookup s h b k false = setBlook s h b (getBlook s h b ++ [k]) := by
  unfold lookup
  simp only [hlive, hsw, find?_eq_none_of_absent hno]
  simp [hovf]

end

end Sys2Proof.Machine
end

section
/-! The commands of the matching store: lookups, answers of the blotter and refills (R128 to R133, R146). -/
namespace Sys2Proof.Machine

/-! ## The state around the stores -/

theorem OnlyTokens.trans {s t u : State} (h1 : OnlyTokens s t) (h2 : OnlyTokens t u) : OnlyTokens s u := by
  obtain ⟨a1, a2, a3, a4, a5, a6, a7, a8, a9, a10, a11, hc⟩ := h1
  obtain ⟨b1, b2, b3, b4, b5, b6, b7, b8, b9, b10, b11, hd⟩ := h2
  exact ⟨b1.trans a1, b2.trans a2, b3.trans a3, b4.trans a4, b5.trans a5, b6.trans a6, b7.trans a7, b8.trans a8,
    b9.trans a9, b10.trans a10, b11.trans a11, hc.trans hd⟩

theorem onlyTokens_setTok (s : State) (x : TokenSys) : OnlyTokens s { s with tok := x } :=
  ⟨rfl, rfl, rfl, rfl, rfl, rfl, rfl, rfl, rfl, rfl, rfl, coresKept_of_cpu rfl⟩

theorem onlyTokens_setDsp (s : State) (x : DispatchSys) : OnlyTokens s { s with dsp := x } :=
  ⟨rfl, rfl, rfl, rfl, rfl, rfl, rfl, rfl, rfl, rfl, rfl, coresKept_of_cpu rfl⟩

theorem onlyTokens_bump (s : State) (h off hi lo n : Nat) : OnlyTokens s (bump s h off hi lo n) :=
  ⟨rfl, rfl, rfl, rfl, rfl, rfl, rfl, rfl, rfl, rfl, rfl, coresKept_of_cpu rfl⟩

@[simp] theorem getAq_setAq_self (s : State) (h b : Nat) (l : List Tok) : getAq (setAq s h b l) h b = l :=
  tget_tset_self _ _ _ _
theorem getAq_bump (s : State) (h off hi lo k n b : Nat) : getAq (bump s h off hi lo k) n b = getAq s n b := by
  rw [getAq, getAq, bump_tok]
theorem getBlook_bump (s : State) (h off hi lo k n b : Nat) : getBlook (bump s h off hi lo k) n b = getBlook s n b := by
  rw [getBlook, getBlook, bump_tok]
@[simp] theorem getSpill_setSpill_self (s : State) (h b : Nat) (l : List Tok) : getSpill (setSpill s h b l) h b = l :=
  tget_tset_self _ _ _ _
@[simp] theorem getBlook_setBlook_self (s : State) (h b : Nat) (l : List Tok) : getBlook (setBlook s h b l) h b = l :=
  tget_tset_self _ _ _ _
@[simp] theorem readyOf_setReady_self (s : State) (i : Nat) (r : Ready) : readyOf (setReady s i r) i = r :=
  tget_tset_self _ _ _ _
@[simp] theorem inboxOf_toDispatch_self (s : State) (h : Nat) (x : Inst) :
    inboxOf (toDispatch s h x) h = inboxOf s h ++ [x] := tget_tset_self _ _ _ _

theorem corePart_congr {s t : State} (hcsr : csr t = csr s) : corePart t = corePart s := by
  funext i
  simp only [corePart, rdB, rdF, hcsr]

/-- What serves depends on registers, presence and takeover alone. -/
theorem bltServes_congr {s t : State} (hpart : t.part = s.part) (hcsr : csr t = csr s) (hsvc : t.svc = s.svc) :
    bltServes t = bltServes s := by
  have hrdF : rdF t = rdF s := by funext h off hi lo; rw [rdF, rdF, hcsr]
  have hrdB : rdB t = rdB s := by funext h off b; rw [rdB, rdB, hrdF]
  have hhub : hubOk t = hubOk s := by funext h; rw [hubOk, hubOk, hpart]
  have hreach : reach t = reach s := by funext eh h; unfold reach hubLinkOk; rw [hhub, hsvc, hrdB, hrdF]
  have hchan : chanServes t = chanServes s := by
    funext h k
    unfold chanServes chanOk tileIso
    rw [hhub, hpart, hrdF, hrdB]
  have htile : tileIso t = tileIso s := by funext h x; rw [tileIso, tileIso, hrdB]
  have hmem : memServes t = memServes s := by
    funext eh a
    unfold memServes
    rw [hreach, hchan, hrdF, htile]
  have hbase : bltBase t = bltBase s := by
    funext h p
    rw [bltBase, bltBase, hrdF, hcsr]
  funext h p
  rw [bltServes, bltServes, hmem, hbase]

theorem csr_congr {s t : State} (hpart : t.part = s.part) (hcsr : t.csr = s.csr) : csr t = csr s := by
  funext h off
  rw [csr, csr, hpart, hcsr]

theorem csr_setAq (s : State) (n c : Nat) (l : List Tok) : csr (setAq s n c l) = csr s := csr_congr rfl rfl
theorem csr_setBlook (s : State) (n c : Nat) (l : List Tok) : csr (setBlook s n c l) = csr s := csr_congr rfl rfl
theorem csr_setSpill (s : State) (n c : Nat) (l : List Tok) : csr (setSpill s n c l) = csr s := csr_congr rfl rfl
theorem csr_setReady (s : State) (i : Nat) (r : Ready) : csr (setReady s i r) = csr s := csr_congr rfl rfl

theorem bltServes_setAq (s : State) (n c : Nat) (l : List Tok) : bltServes (setAq s n c l) = bltServes s :=
  bltServes_congr rfl (csr_setAq s n c l) rfl
theorem bltServes_setSpill (s : State) (n c : Nat) (l : List Tok) : bltServes (setSpill s n c l) = bltServes s :=
  bltServes_congr rfl (csr_setSpill s n c l) rfl
theorem bltServes_setReady (s : State) (i : Nat) (r : Ready) : bltServes (setReady s i r) = bltServes s :=
  bltServes_congr rfl (csr_setReady s i r) rfl
theorem corePart_setReady (s : State) (i : Nat) (r : Ready) : corePart (setReady s i r) = corePart s :=
  corePart_congr (csr_setReady s i r)

theorem hubFin_val (h : Hub) : hubFin h.val = h := Fin.ext (Nat.mod_eq_of_lt h.isLt)

/-! ## What a lookup leaves behind -/

section
variable {s g : State} {h b : Nat} {k : Tok} {l : List Tok} {d : Desc} {e : Entry}

/-- A bank looks up the head of its queue unless it would have to wait (R132). -/
theorem lookupStep_head (hq : getAq s h b = k :: l)
    (hbehind : (getBlook s h b).any (fun u => tagKey u.tag == tagKey k.tag) = false)
    (hroom : s.tok.entries.any (fun y => isEntry h (tagKey k.tag) y && y.place == .way) = true ∨
      ovf s h b (keySet (tagKey k.tag)) = 0 ∨ (getBlook s h b).length < 32) :
    lookupStep s h b = settle (lookup (setAq s h b l) h b k false) h := by
  unfold lookupStep
  simp only [hq, hbehind]
  rcases hroom with hin | hovf | hlen
  · simp [hin]
  · simp [hovf]
  · simp [Nat.not_le.mpr hlen]

theorem blookStep_head (hq : getBlook s h b = k :: l) :
    blookStep s h b = settle (lookup (setBlook s h b l) h b k true) h := by
  unfold blookStep
  rw [hq]

/-- A new entry in a way, once its pools are settled. -/
theorem settle_newEntry_way (hr : readDesc s h (tagCodelet k.tag) = (g, some d))
    (hway : waysUsed g h b (keySet (tagKey k.tag)) < 8) :
    OnlyTokens s (settle (newEntry s h b k) h) ∧
    (∀ n c, getAq (settle (newEntry s h b k) h) n c = getAq s n c) ∧
    (∀ n c, getBlook (settle (newEntry s h b k) h) n c = getBlook s n c) ∧
    (settle (newEntry s h b k) h).tok.entries = g.tok.entries ++ [wayEntry s h b k d] := by
  have hg : OnlyRecords s g := by
    have := (OnlyRecords.refl s).readDesc h (tagCodelet k.tag)
    rwa [hr] at this
  have ht := (newEntry_way hr hway).settle h
  exact ⟨hg.onlyTokens.trans ((onlyTokens_setTok _ _).trans ht.onlyTokens),
    fun n c => (ht.getAq_eq n c).trans (hg.getAq_eq n c), fun n c => (ht.getBlook_eq n c).trans (hg.getBlook_eq n c),
    ht.entries_eq⟩

/-- The count of a duplicate, once the pools are settled: entries kept, no record unless a pool is exhausted (R130). -/
theorem settle_duplicate (s : State) (h : Nat) :
    OnlyRecords (bump s h R.MSDUP 31 0 1) (settle (bump s h R.MSDUP 31 0 1) h) ∧
    (NoneExhausted s h → (settle (bump s h R.MSDUP 31 0 1) h).svc = s.svc) ∧
    (csr (settle (bump s h R.MSDUP 31 0 1) h) h R.MSDUP).toNat = min ((csr s h R.MSDUP).toNat + 1) (2 ^ 32 - 1) := by
  have ht := (OnlyRecords.refl (bump s h R.MSDUP 31 0 1)).settle h
  refine ⟨ht, fun hn => ?_, ?_⟩
  · rw [svc_settle (noneExhausted_bump_msdup hn 1), bump_svc]
  · rw [ht.regs h R.MSDUP (by decide) (by decide), csr_bump_whole]

/-- R131: a token that finds no entry, in a set all in the store with a free way, makes one. -/
theorem lookupStep_makes_entry (hlive : (getCtx s h (tagCtx k.tag)).state = .live)
    (hsw : sweeping s h (tagCtx k.tag) = false) (hq : getAq s h b = k :: l)
    (hbehind : (getBlook s h b).any (fun u => tagKey u.tag == tagKey k.tag) = false)
    (hno : s.tok.entries.all (fun y => !(isEntry h (tagKey k.tag) y)) = true)
    (hovf : ovf s h b (keySet (tagKey k.tag)) = 0)
    (hr : readDesc (setAq s h b l) h (tagCodelet k.tag) = (g, some d))
    (hway : waysUsed g h b (keySet (tagKey k.tag)) < 8) :
    OnlyTokens s (lookupStep s h b) ∧ getAq (lookupStep s h b) h b = l ∧
    (lookupStep s h b).tok.entries = g.tok.entries ++ [wayEntry s h b k d] := by
  have hstep : lookupStep s h b = settle (newEntry (setAq s h b l) h b k) h := by
    rw [lookupStep_head hq hbehind (.inr (.inl hovf)), lookup_new (s := setAq s h b l) hlive hsw hno (.inr hovf)]
  obtain ⟨hframe, haq, -, hentries⟩ := settle_newEntry_way hr hway
  rw [hstep]
  exact ⟨(onlyTokens_setTok _ _).trans hframe, (haq h b).trans (getAq_setAq_self _ _ _ _), hentries⟩

/-- R132: the same when the blotter has been read and holds no entry. -/
theorem blookStep_makes_entry (hlive : (getCtx s h (tagCtx k.tag)).state = .live)
    (hsw : sweeping s h (tagCtx k.tag) = false) (hq : getBlook s h b = k :: l)
    (hno : s.tok.entries.all (fun y => !(isEntry h (tagKey k.tag) y)) = true)
    (hr : readDesc (setBlook s h b l) h (tagCodelet k.tag) = (g, some d))
    (hway : waysUsed g h b (keySet (tagKey k.tag)) < 8) :
    OnlyTokens s (blookStep s h b) ∧ getBlook (blookStep s h b) h b = l ∧
    (blookStep s h b).tok.entries = g.tok.entries ++ [wayEntry s h b k d] := by
  have hstep : blookStep s h b = settle (newEntry (setBlook s h b l) h b k) h := by
    rw [blookStep_head hq, lookup_new (s := setBlook s h b l) hlive hsw hno (.inl rfl)]
  obtain ⟨hframe, -, hblook, hentries⟩ := settle_newEntry_way hr hway
  rw [hstep]
  exact ⟨(onlyTokens_setTok _ _).trans hframe, (hblook h b).trans (getBlook_setBlook_self _ _ _ _), hentries⟩

/-- An entry that is found in a way is one of the store's. -/
theorem inStore_of_find? (hf : s.tok.entries.find? (isEntry h (tagKey k.tag)) = some e) (hway : e.place = .way) :
    s.tok.entries.any (fun y => isEntry h (tagKey k.tag) y && y.place == .way) = true :=
  List.any_eq_true.mpr ⟨e, List.mem_of_find?_eq_some hf, by simp [List.find?_some hf, hway]⟩

/-- R129: the token that fills the last port of an entry in the store makes it ready for dispatch. -/
theorem lookupStep_completes (hlive : (getCtx s h (tagCtx k.tag)).state = .live)
    (hsw : sweeping s h (tagCtx k.tag) = false) (htr : rdB s h R.TRCTL 31 = false) (hq : getAq s h b = k :: l)
    (hbehind : (getBlook s h b).any (fun u => tagKey u.tag == tagKey k.tag) = false)
    (hf : s.tok.entries.find? (isEntry h (tagKey k.tag)) = some e) (hway : e.place = .way)
    (hport : e.vals.getD (tagPort k.tag) none = none)
    (hfull : presence (filledEntry e k).vals = 2 ^ e.arity - 1)
    (hr : readDesc (setEntries (setAq s h b l) (s.tok.entries.filter (fun y => !(isEntry h (tagKey k.tag) y)))) h
      (tagCodelet k.tag) = (g, some d)) :
    OnlyTokens s (lookupStep s h b) ∧ getAq (lookupStep s h b) h b = l ∧
    inboxOf (lookupStep s h b) h = inboxOf s h ++ [entryInst (filledEntry e k) d] ∧
    (lookupStep s h b).tok.entries = s.tok.entries.filter (fun y => !(isEntry h (tagKey k.tag) y)) := by
  have hlook : lookup (setAq s h b l) h b k false = fillEntry (setAq s h b l) h b k e :=
    lookup_found hlive hsw hf (by simp [hway]) (fun hne => absurd hway hne)
  obtain ⟨u, hu, hfill⟩ := fillEntry_last (s := setAq s h b l) (b := b) htr hport hfull hr
  have hg := (OnlyRecords.refl (setEntries (setAq s h b l)
    (s.tok.entries.filter (fun y => !(isEntry h (tagKey k.tag) y))))).readDesc h (tagCodelet k.tag)
  rw [hr] at hg
  have hgu := hg.trans hu
  have ht := (OnlyRecords.refl (toDispatch u h (entryInst (filledEntry e k) d))).settle h
  rw [lookupStep_head hq hbehind (.inl (inStore_of_find? hf hway)), hlook, hfill]
  refine ⟨?_, ?_, ?_, ?_⟩
  · exact (onlyTokens_setTok _ _).trans (hgu.onlyTokens.trans ((onlyTokens_setDsp _ _).trans ht.onlyTokens))
  · exact (ht.getAq_eq h b).trans ((hgu.getAq_eq h b).trans (getAq_setAq_self s h b l))
  · rw [ht.inboxOf_eq, inboxOf_toDispatch_self, hgu.inboxOf_eq]
    rfl
  · exact ht.entries_eq.trans hgu.entries_eq

/-- R130: a token whose port is present is counted, and nothing else comes of it. -/
theorem lookupStep_duplicate (hlive : (getCtx s h (tagCtx k.tag)).state = .live)
    (hsw : sweeping s h (tagCtx k.tag) = false) (htr : rdB s h R.TRCTL 31 = false) (hq : getAq s h b = k :: l)
    (hbehind : (getBlook s h b).any (fun u => tagKey u.tag == tagKey k.tag) = false)
    (hf : s.tok.entries.find? (isEntry h (tagKey k.tag)) = some e) (hway : e.place = .way)
    (hport : (e.vals.getD (tagPort k.tag) none).isSome = true) :
    lookupStep s h b = settle (bump (setAq s h b l) h R.MSDUP 31 0 1) h := by
  have hlook : lookup (setAq s h b l) h b k false = fillEntry (setAq s h b l) h b k e :=
    lookup_found hlive hsw hf (by simp [hway]) (fun hne => absurd hway hne)
  rw [lookupStep_head hq hbehind (.inl (inStore_of_find? hf hway)), hlook,
    fillEntry_duplicate (s := setAq s h b l) htr hport]

theorem blookStep_duplicate (hlive : (getCtx s h (tagCtx k.tag)).state = .live)
    (hsw : sweeping s h (tagCtx k.tag) = false) (htr : rdB s h R.TRCTL 31 = false) (hq : getBlook s h b = k :: l)
    (hf : s.tok.entries.find? (isEntry h (tagKey k.tag)) = some e)
    (hgood : e.place ≠ .way → e.chk = tagCheck (keyTag (tagKey k.tag) 0) ∧ bltServes (setBlook s h b l) h e.part = true)
    (hport : (e.vals.getD (tagPort k.tag) none).isSome = true) :
    blookStep s h b = settle (bump (setBlook s h b l) h R.MSDUP 31 0 1) h := by
  have hlook : lookup (setBlook s h b l) h b k true = fillEntry (setBlook s h b l) h b k e :=
    lookup_found hlive hsw hf rfl hgood
  rw [blookStep_head hq, hlook, fillEntry_duplicate (s := setBlook s h b l) htr hport]

/-- R132: a token that finds no entry in the store waits for the blotter while its set has entries there. -/
theorem lookupStep_waits (hlive : (getCtx s h (tagCtx k.tag)).state = .live)
    (hsw : sweeping s h (tagCtx k.tag) = false) (hq : getAq s h b = k :: l)
    (hbehind : (getBlook s h b).any (fun u => tagKey u.tag == tagKey k.tag) = false)
    (hno : s.tok.entries.all (fun y => !(isEntry h (tagKey k.tag) y)) = true)
    (hovf : 0 < ovf s h b (keySet (tagKey k.tag))) (hlen : (getBlook s h b).length < 32) :
    OnlyTokens s (lookupStep s h b) ∧ getAq (lookupStep s h b) h b = l ∧
    getBlook (lookupStep s h b) h b = getBlook s h b ++ [k] ∧ (lookupStep s h b).tok.entries = s.tok.entries := by
  have hlook : lookup (setAq s h b l) h b k false = setBlook (setAq s h b l) h b (getBlook s h b ++ [k]) :=
    lookup_await hlive hsw hno hovf
  have ht := (OnlyRecords.refl (setBlook (setAq s h b l) h b (getBlook s h b ++ [k]))).settle h
  rw [lookupStep_head hq hbehind (.inr (.inr hlen)), hlook]
  exact ⟨(onlyTokens_setTok _ _).trans ht.onlyTokens, (ht.getAq_eq h b).trans (getAq_setAq_self s h b l),
    (ht.getBlook_eq h b).trans (getBlook_setBlook_self _ h b _), ht.entries_eq⟩

end

/-! ## Refills -/

/-- One token of a spill FIFO comes back, or is lost (R116, R128, R429). -/
def restoreToken (h b p : Nat) (s : State) (t : Tok) : State :=
  if t.chk = tagCheck t.tag && bltServes s h p then
    setAq (trace s h p 6 t.tag (16 * b) noCore) h b (getAq s h b ++ [t])
  else tagFail s h t.tag

/-- Tokens that pass their checks come back in order, at the tail of the queue, while the blotter answers. -/
theorem foldl_restoreToken {h b p : Nat} (hp : p < 16) (ts : List Tok) (hok : ∀ t ∈ ts, t.chk = tagCheck t.tag) :
    ∀ s : State, bltServes s h p = true →
      OnlyTokens s (ts.foldl (restoreToken h b p) s) ∧
      getAq (ts.foldl (restoreToken h b p) s) h b = getAq s h b ++ ts ∧
      getSpill (ts.foldl (restoreToken h b p) s) h b = getSpill s h b := by
  induction ts with
  | nil => exact fun s _ => ⟨onlyTokens_setTok s s.tok, (List.append_nil _).symm, rfl⟩
  | cons t ts ih =>
    intro s hserve
    have htrace := (OnlyRecords.refl s).trace h p 6 t.tag (16 * b) noCore
    have hstep : restoreToken h b p s t =
        setAq (trace s h p 6 t.tag (16 * b) noCore) h b (getAq s h b ++ [t]) := by
      simp [restoreToken, hok t (by simp), hserve]
    have hserve' : bltServes (restoreToken h b p s t) h p = true := by
      rw [hstep, bltServes_setAq, htrace.bltServes_eq h hp, hserve]
    obtain ⟨hframe, haq, hspill⟩ := ih (fun u hu => hok u (by simp [hu])) _ hserve'
    rw [hstep] at hframe haq hspill
    rw [List.foldl_cons, hstep]
    refine ⟨htrace.onlyTokens.trans ((onlyTokens_setTok _ _).trans hframe), ?_, hspill.trans (htrace.getSpill_eq h b)⟩
    rw [haq, getAq_setAq_self, List.append_assoc]
    rfl

/-- Up to 64 of the oldest tokens of a spill FIFO come back, and the pools are settled (R128). -/
theorem settle_restoreTokens {s : State} {h b p : Nat} (hp : p < 16) (hserve : bltServes s h p = true)
    (hok : (getSpill s h b).all (fun t => t.chk == tagCheck t.tag) = true) :
    let t := settle (((getSpill s h b).take 64).foldl (restoreToken h b p)
      (setSpill s h b ((getSpill s h b).drop 64))) h
    OnlyTokens s t ∧ getAq t h b = getAq s h b ++ (getSpill s h b).take 64 ∧
      getSpill t h b = (getSpill s h b).drop 64 := by
  have hchk : ∀ t ∈ (getSpill s h b).take 64, t.chk = tagCheck t.tag := fun t ht =>
    beq_iff_eq.mp (List.all_eq_true.mp hok t (List.mem_of_mem_take ht))
  obtain ⟨hframe, haq, hspill⟩ := foldl_restoreToken (b := b) hp _ hchk (setSpill s h b ((getSpill s h b).drop 64))
    (by rw [bltServes_setSpill, hserve])
  intro t
  have ht := (OnlyRecords.refl (((getSpill s h b).take 64).foldl (restoreToken h b p)
    (setSpill s h b ((getSpill s h b).drop 64)))).settle h
  exact ⟨(onlyTokens_setTok s _).trans (hframe.trans ht.onlyTokens), (ht.getAq_eq h b).trans haq,
    (ht.getSpill_eq h b).trans (hspill.trans (getSpill_setSpill_self s h b _))⟩

/-- One ready record of a spill FIFO comes back onto the list of core `i`, or is lost (R146, R429). -/
def restoreReady (i k : Nat) (s : State) (x : Inst) : State :=
  if bltServes s (i / 32) (corePart s i) then
    trace (setReady s i { readyOf s i with on := (readyOf s i).on ++ [x] }) (i / 32) x.part 6 (instTag x) (2 + 16 * k)
      noCore
  else tagFail s (i / 32) (instTag x)

/-- Ready records come back in order, at the tail of the list, while the blotter answers. -/
theorem foldl_restoreReady {i k : Nat} (xs : List Inst) :
    ∀ s : State, bltServes s (i / 32) (corePart s i) = true →
      OnlyTokens s (xs.foldl (restoreReady i k) s) ∧
      readyOf (xs.foldl (restoreReady i k) s) i = { readyOf s i with on := (readyOf s i).on ++ xs } := by
  induction xs with
  | nil => exact fun s _ => ⟨onlyTokens_setTok s s.tok, by simp⟩
  | cons x xs ih =>
    intro s hserve
    have hstep : OnlyRecords (setReady s i { readyOf s i with on := (readyOf s i).on ++ [x] })
        (restoreReady i k s x) := by
      rw [restoreReady, if_pos hserve]
      exact (OnlyRecords.refl _).trace _ _ _ _ _ _
    have hserve' : bltServes (restoreReady i k s x) (i / 32) (corePart (restoreReady i k s x) i) = true := by
      rw [hstep.corePart_eq, hstep.bltServes_eq _ (Nat.lt_trans (corePart_lt _ _) (by decide)),
        bltServes_setReady, corePart_setReady, hserve]
    obtain ⟨hframe, hready⟩ := ih _ hserve'
    refine ⟨(onlyTokens_setDsp _ _).trans (hstep.onlyTokens.trans hframe), ?_⟩
    rw [List.foldl_cons, hready, hstep.readyOf_eq, readyOf_setReady_self]
    simp

/-! ## The commands -/

theorem exec_lookup {s : State} {h : Hub} {b : Fin 16} (hl : live s h = true)
    (hd : dispHeld s h (bankOwner s h b) = none) : exec (.lookup h b) s = .next (lookupStep s h b) := by
  change execLookup h b s = _
  simp only [execLookup, unlessHeld, hl, hd, if_true]

theorem exec_blotterLookupDone {s : State} {h : Hub} {b : Fin 16} (hl : live s h = true)
    (hd : dispHeld s h (bankOwner s h b) = none) : exec (.blotterLookupDone h b) s = .next (blookStep s h b) := by
  change execBlotterLookupDone h b s = _
  simp only [execBlotterLookupDone, unlessHeld, hl, hd, if_true]

theorem exec_spillRefill {s : State} {h : Hub} {b : Fin 16} (hl : live s h = true) (hne : getSpill s h b ≠ [])
    (hlow : (getAq s h b).length ≤ 512) :
    exec (.spillRefill h b) s = .next (settle (((getSpill s h b).take 64).foldl
      (restoreToken h b (bankOwner s h b)) (setSpill s h b ((getSpill s h b).drop 64))) h) := by
  change execSpillRefill h b s = _
  have hgo : ¬ (!(live s h) || (getSpill s h b).isEmpty || aqLow < (getAq s h b).length) = true := by
    simp [hl, hne, aqLow, Nat.not_lt.mpr hlow]
  unfold execSpillRefill
  dsimp only
  rw [if_neg hgo]
  rfl

theorem exec_wayRefill {s : State} {h : Hub} {b : Fin 16} {set : BitVec 11} {e : Entry} (hl : live s h = true)
    (hway : waysUsed s h b set.toNat < 8)
    (hf : s.tok.entries.find? (fun y => y.hub == h && y.bank == b.val && y.set == set.toNat && y.place != .way) =
      some e)
    (hchk : e.chk = tagCheck (keyTag e.key 0)) (hserve : bltServes s h e.part = true) :
    exec (.wayRefill h b set) s = .next (settle (trace (setEntries s (s.tok.entries.map (fun y =>
      if isEntry h e.key y then { y with place := .way } else y))) h e.part 6 (keyTag e.key 0) (1 + 16 * b)
      noCore) h) := by
  change execWayRefill h b set s = _
  have hgo : ¬ (!(live s h) || 8 ≤ waysUsed s h b set.toNat) = true := by simp [hl, hway]
  unfold execWayRefill
  rw [if_neg hgo, hf]
  simp only [hchk, hserve, decide_true, Bool.and_self, if_true]

theorem exec_readyRefill {s : State} {c : CoreId} (hl : live s c.hub = true) :
    exec (.readyRefill c) s = .next (readyRefill s (coreIx c)) := by
  change execReadyRefill c s = _
  rw [execReadyRefill, if_pos hl]

theorem coreIx_div (c : CoreId) : coreIx c / 32 = c.hub := by
  have := c.num.isLt
  simp only [coreIx]
  omega

/-- The highest class whose spill FIFO holds any. -/
theorem find?_highest_spill {r : Ready} {j : Nat} (hj : j ≤ 3) (hne : r.spill j ≠ [])
    (hhigh : ∀ m ≤ 3, j < m → r.spill m = []) : [3, 2, 1, 0].find? (fun k => !(r.spill k).isEmpty) = some j := by
  have hskip (m : Nat) (hm : m ≤ 3) (hlt : j < m) : (!(r.spill m).isEmpty) = false := by simp [hhigh m hm hlt]
  have hstop : (!(r.spill j).isEmpty) = true := by simp [hne]
  obtain rfl | rfl | rfl | rfl : j = 0 ∨ j = 1 ∨ j = 2 ∨ j = 3 := by omega
  · simp [hskip 3, hskip 2, hskip 1, hstop]
  · simp [hskip 3, hskip 2, hstop]
  · simp [hskip 3, hstop]
  · simp [hstop]

theorem readyRefill_highest {s : State} {i j : Nat} (hroom : (readyOf s i).on.length ≤ 128)
    (hf : [3, 2, 1, 0].find? (fun k => !((readyOf s i).spill k).isEmpty) = some j) :
    readyRefill s i = settle ((((readyOf s i).spill j).take 16).foldl (restoreReady i j)
      (setReady s i ((readyOf s i).setSpill j (((readyOf s i).spill j).drop 16)))) (i / 32) := by
  unfold readyRefill
  dsimp only
  rw [if_neg (Nat.not_lt.mpr hroom), hf]
  rfl

theorem Ready.setSpill_on (r : Ready) (j : Nat) (l : List Inst) : (r.setSpill j l).on = r.on := by
  unfold Ready.setSpill
  split <;> rfl

/-- Up to 16 of the oldest records of the highest class come back, and the pools are settled (R146). -/
theorem readyRefill_restores {s : State} {i j : Nat} (hroom : (readyOf s i).on.length ≤ 128)
    (hf : [3, 2, 1, 0].find? (fun k => !((readyOf s i).spill k).isEmpty) = some j)
    (hserve : bltServes s (i / 32) (corePart s i) = true) :
    OnlyTokens s (readyRefill s i) ∧
    readyOf (readyRefill s i) i = { (readyOf s i).setSpill j (((readyOf s i).spill j).drop 16) with
      on := (readyOf s i).on ++ ((readyOf s i).spill j).take 16 } := by
  obtain ⟨hframe, hready⟩ := foldl_restoreReady (k := j) (((readyOf s i).spill j).take 16)
    (setReady s i ((readyOf s i).setSpill j (((readyOf s i).spill j).drop 16)))
    (by rw [bltServes_setReady, corePart_setReady, hserve])
  rw [readyRefill_highest hroom hf]
  have ht := (OnlyRecords.refl ((((readyOf s i).spill j).take 16).foldl (restoreReady i j)
    (setReady s i ((readyOf s i).setSpill j (((readyOf s i).spill j).drop 16))))).settle (i / 32)
  refine ⟨(onlyTokens_setDsp s _).trans (hframe.trans ht.onlyTokens), ?_⟩
  rw [ht.readyOf_eq, hready, readyOf_setReady_self, Ready.setSpill_on]

end Sys2Proof.Machine
end

section
/-! Lookups, duplicates and blotter refills. -/
namespace Sys2Proof.Machine

/-- A duplicate taken from a queue or a blotter lookup: entries and every queue stay, and MSDUP counts (R130). -/
theorem duplicate_counted {s u : State} {h : Nat} (hframe : OnlyTokens s u) (hcsr : csr u = csr s)
    (hspill : u.tok.spill = s.tok.spill) (hentries : u.tok.entries = s.tok.entries) (hdsp : u.dsp = s.dsp)
    (hsvc : u.svc = s.svc) :
    OnlyTokens s (settle (bump u h R.MSDUP 31 0 1) h) ∧
    (settle (bump u h R.MSDUP 31 0 1) h).tok.entries = s.tok.entries ∧
    (NoneExhausted s h → (settle (bump u h R.MSDUP 31 0 1) h).svc = s.svc) ∧
    (csr (settle (bump u h R.MSDUP 31 0 1) h) h R.MSDUP).toNat = min ((csr s h R.MSDUP).toNat + 1) (2 ^ 32 - 1) := by
  obtain ⟨hrec, hquiet, hcount⟩ := settle_duplicate u h
  refine ⟨hframe.trans ((onlyTokens_bump _ _ _ _ _ _).trans hrec.onlyTokens), ?_, fun hn => ?_, ?_⟩
  · rw [hrec.entries_eq, bump_tok, hentries]
  · exact (hquiet (noneExhausted_congr hcsr hspill hentries hdsp hn)).trans hsvc
  · rw [hcount, hcsr]

/-- Settles O23: each lookup goes through the one stage that its case names, and what reading the descriptor, the trace
and settling the pools add is bookkeeping; refills restore records one after the other. -/
theorem lookupsAndBlotters : Obligations.LookupsAndBlotters := by
  unfold Obligations.LookupsAndBlotters
  refine ⟨fun s g h b k l d e => ?_, fun s h b set c e j htr => ⟨?_, ?_, ?_⟩⟩
  · intro key dry wet full ready noneExhausted duplicate fresh hl hlive hsw hheld htr
    have hfresh : wayEntry s h b k d = fresh .way := by simp only [wayEntry, hubFin_val]; rfl
    refine ⟨fun hq hbehind => ⟨?_, ?_, ?_, ?_⟩, ?_, ?_⟩
    · intro hno hovf hr hway
      rw [← hfresh]
      exact ⟨_, exec_lookup hl hheld, lookupStep_makes_entry hlive hsw hq hbehind hno hovf hr hway⟩
    · intro hf hway hport hfull hr
      exact ⟨_, exec_lookup hl hheld, lookupStep_completes hlive hsw htr hq hbehind hf hway hport hfull hr⟩
    · intro hf hway hport
      have hstep := lookupStep_duplicate hlive hsw htr hq hbehind hf hway hport
      obtain ⟨hframe, hdup⟩ := duplicate_counted (h := h) (onlyTokens_setTok s _) (csr_setAq s h b l) rfl rfl rfl rfl
      have haq : getAq (settle (bump dry h R.MSDUP 31 0 1) h) h b = l := by
        rw [(settle_duplicate dry h).1.getAq_eq, getAq_bump, getAq_setAq_self]
      exact ⟨_, exec_lookup hl hheld, hstep ▸ ⟨hframe, haq, hdup⟩⟩
    · intro hno hovf hlen
      exact ⟨_, exec_lookup hl hheld, lookupStep_waits hlive hsw hq hbehind hno hovf hlen⟩
    · intro hq hf hgood hport
      have hstep := blookStep_duplicate hlive hsw htr hq hf hgood hport
      obtain ⟨hframe, hdup⟩ := duplicate_counted (h := h) (onlyTokens_setTok s _) (csr_setBlook s h b l) rfl rfl rfl rfl
      have hblook : getBlook (settle (bump wet h R.MSDUP 31 0 1) h) h b = l := by
        rw [(settle_duplicate wet h).1.getBlook_eq, getBlook_bump, getBlook_setBlook_self]
      exact ⟨_, exec_blotterLookupDone hl hheld, hstep ▸ ⟨hframe, hblook, hdup⟩⟩
    · intro hq hno hr hway
      rw [← hfresh]
      exact ⟨_, exec_blotterLookupDone hl hheld, blookStep_makes_entry hlive hsw hq hno hr hway⟩
  · intro hl hne hlow hserve hok
    exact ⟨_, exec_spillRefill hl hne hlow, settle_restoreTokens (bankOwner_lt s h b) hserve hok⟩
  · intro hl hway hf hchk hserve
    have ht := ((OnlyRecords.refl (setEntries s (s.tok.entries.map (fun y =>
      if isEntry h e.key y then { y with place := .way } else y)))).trace h e.part 6 (keyTag e.key 0) (1 + 16 * b)
      noCore).settle h
    exact ⟨_, exec_wayRefill hl hway hf hchk hserve, (onlyTokens_setTok s _).trans ht.onlyTokens, ht.entries_eq⟩
  · intro r hl hroom hj hne hhigh hserve
    exact ⟨_, exec_readyRefill hl,
      readyRefill_restores hroom (find?_highest_spill hj hne hhigh) (coreIx_div c ▸ hserve)⟩

end Sys2Proof.Machine
end

section
/-! Trap entry: what each step of the sequence writes (R214, R215). -/
namespace Sys2Proof.Machine

/-! ## PSTAT -/

/-- A field of one bit is that bit. -/
theorem fld_bit {w : Nat} (v : BitVec w) (b : Nat) : (fld v b b == 1) = v.getLsbD b := by
  rw [BitVec.getLsbD, Nat.testBit_eq_decide_div_mod_eq, fld, Nat.add_sub_cancel_left, Nat.pow_one]
  rfl

theorem Core.ps_eq_getLsbD (k : Core) (b : Nat) : k.ps b = k.pstat.getLsbD b := fld_bit k.pstat b

theorem Core.level_eq_one (k : Core) : (k.level == 1) = k.trapc.getLsbD 9 := fld_bit k.trapc 9

/-- At trap entry IE becomes 0 and INTRAP 1 (R215). -/
theorem setFld_handler (p : W32) : setFld (setFld p 12 12 0) 13 13 1 = (p &&& ~~~(0x1000 : W32)) ||| 0x2000 := by
  change (((p &&& ~~~(0x1000 : W32)) ||| 0) &&& ~~~(0x2000 : W32)) ||| 0x2000 = _
  rw [show (0 : W32) = 0#32 from rfl, BitVec.or_zero]
  ext b hb
  simp only [BitVec.getElem_or, BitVec.getElem_and, BitVec.getElem_not]
  cases (0x2000 : W32)[b] <;> simp

/-- The registers of a core that enters a trap, as R215 lists them. -/
theorem trapRegs_eq (k : Core) (slot : Nat) (epc : BitVec 48) (tc v : W64) (vec : BitVec 48) :
    trapRegs k slot epc tc v vec = ((({ k with
      shadow := if k.pstat.getLsbD 13 then some (k.epc, k.trapc, k.trapv) else k.shadow
      epc := epc.setWidth 64
      trapc := tc
      trapv := v
      lladdr := 0
      pc := vec
      pstat := (k.pstat &&& ~~~(0x1000 : W32)) ||| 0x2000
      sleep := false
      bare := k.bare || k.running.isNone
      rstate := .running
      ports := []
      micro := none } : Core).setG 1 (BitVec.ofNat 64 slot)).setG 2 tc).setG 3 v := by
  rw [← setFld_handler, ← Core.ps_eq_getLsbD]
  rfl

/-! ## Common memory of the core's own hub -/

/-- The first 16 MiB of the window are the hub's own common memory (R12). -/
theorem region_common (eh : Nat) {off : Nat} (h : off < 0x1000000) : region eh (0x010000000000 + off) = .common eh := by
  unfold region mainTop
  rw [if_neg (by omega), if_neg (by omega), if_pos (by omega)]

theorem absKey_common (eh : Nat) {off : Nat} (h : off < 0x1000000) :
    absKey eh (0x010000000000 + off) = commonBase eh + off := by
  rw [absKey, region_common eh h]
  dsimp only
  omega

/-- Addresses of one half of the common memory answer together (R241, R249). -/
theorem memServes_common (s : State) (eh : Nat) {x y : Nat} (hx : x < 0x1000000) (hy : y < 0x1000000)
    (hhalf : x / 0x800000 = y / 0x800000) :
    memServes s eh (0x010000000000 + x) = memServes s eh (0x010000000000 + y) := by
  have htile : (0x010000000000 + x) / 0x800000 = (0x010000000000 + y) / 0x800000 := by omega
  simp only [memServes, region_common eh hx, region_common eh hy, htile]

/-! ## Bytes that a core stores -/

theorem getD_append_of_lt {bs cs : Bytes} {j : Nat} (h : j < bs.length) : (bs ++ cs).getD j 0 = bs.getD j 0 := by
  rw [List.getD_eq_getElem?_getD, List.getD_eq_getElem?_getD, List.getElem?_append_left h]

theorem getD_append_of_le {bs cs : Bytes} {j : Nat} (h : bs.length ≤ j) :
    (bs ++ cs).getD j 0 = cs.getD (j - bs.length) 0 := by
  rw [List.getD_eq_getElem?_getD, List.getD_eq_getElem?_getD, List.getElem?_append_right h]

/-- Core `i` has stored `bs` from `k` up in memory without errors; but for reservations of other cores that have ended
(R186) nothing else has changed. -/
structure StoredBytes (s t : State) (i k : Nat) (bs : Bytes) : Prop where
  rest : { t with cpu := s.cpu, mem := s.mem } = s
  mcLoad : t.cpu.mcLoad = s.cpu.mcLoad
  own : getCore t i = getCore s i
  others : ∀ j, j ≠ i → getCore t j = getCore s j ∨ getCore t j = { getCore s j with lladdr := 0 }
  bad : t.mem.bad = s.mem.bad
  bytes : ∀ a, rb t a = if k ≤ a ∧ a < k + bs.length then bs.getD (a - k) 0 else rb s a

namespace StoredBytes
variable {s t u : State} {i k : Nat} {bs cs : Bytes}

theorem nil (s : State) (i k : Nat) : StoredBytes s s i k [] where
  rest := rfl
  mcLoad := rfl
  own := rfl
  others := fun _ _ => .inl rfl
  bad := rfl
  bytes := fun a => (if_neg (by simp only [List.length_nil]; omega)).symm

/-- Bytes stored one piece after the other. -/
theorem append (h1 : StoredBytes s t i k bs) (h2 : StoredBytes t u i (k + bs.length) cs) :
    StoredBytes s u i k (bs ++ cs) where
  rest := by
    have h := h1.rest
    rw [← h2.rest] at h
    exact h
  mcLoad := h2.mcLoad.trans h1.mcLoad
  own := h2.own.trans h1.own
  others := fun j hj => by rcases h1.others j hj with e1 | e1 <;> rcases h2.others j hj with e2 | e2 <;> simp [e1, e2]
  bad := h2.bad.trans h1.bad
  bytes := fun a => by
    rw [h2.bytes, h1.bytes, List.length_append]
    by_cases hlow : a < k + bs.length
    · rw [if_neg (by omega)]
      by_cases hk : k ≤ a
      · rw [if_pos (by omega), if_pos (by omega), getD_append_of_lt (by omega)]
      · rw [if_neg (by omega), if_neg (by omega)]
    · by_cases hhigh : a < k + bs.length + cs.length
      · rw [if_pos (by omega), if_pos (by omega), getD_append_of_le (by omega), Nat.sub_add_eq]
      · rw [if_neg (by omega), if_neg (by omega), if_neg (by omega)]

theorem read_eq {α : Type} (h : StoredBytes s t i k bs) (f : State → α) :
    f { t with cpu := s.cpu, mem := s.mem } = f s := congrArg f h.rest

theorem csr_eq (h : StoredBytes s t i k bs) : csr t = csr s := csr_congr (h.read_eq (·.part)) (h.read_eq (·.csr))

theorem rdF_eq (h : StoredBytes s t i k bs) : rdF t = rdF s := by
  funext n off hi lo
  rw [rdF, rdF, h.csr_eq]

theorem onlyRecords (h : StoredBytes s t i k bs) : OnlyRecords s t where
  rest := by
    have hs : recordsAs s { t with cpu := s.cpu, mem := s.mem } = s := by rw [h.rest]; rfl
    exact hs
  cores := fun j => by
    by_cases hj : j = i
    · exact .inl (hj ▸ h.own)
    · exact h.others j hj
  regs := fun n off _ _ => by rw [h.csr_eq]

theorem coreCut_eq (h : StoredBytes s t i k bs) : coreCut t i = coreCut s i := by
  simp only [coreCut, tileIso, rdB, h.rdF_eq]

/-- With the core's own registers changed as well, still nothing but cores and memory has changed. -/
theorem coresAndMemory_updCore (h : StoredBytes s t i k bs) (f : Core → Core) :
    CoresAndMemory s (updCore t i f) i :=
  ⟨h.rest, h.mcLoad, fun j hj => by rw [getCore_updCore_ne t i j f hj]; exact h.others j hj⟩

end StoredBytes

theorem rmwCheck_of_no_errors {s : State} (hbad : s.mem.bad = []) (k n : Nat) : rmwCheck s k n = (s, []) := by
  rw [rmwCheck, hbad]
  rfl

theorem rb_updCore (s : State) (i : Nat) (f : Core → Core) (a : Nat) : rb (updCore s i f) a = rb s a := (rfl)

theorem rb_congr {s t : State} (h : t.mem.cells = s.mem.cells) (a : Nat) : rb t a = rb s a := by rw [rb, rb, h]

/-- A note of old bytes is all that is dropped. -/
theorem dropDirty_eq (s : State) (k n : Nat) :
    ∃ d, dropDirty s k n = { s with mem := { s.mem with dirty := d } } := by
  unfold dropDirty
  split
  · exact ⟨_, rfl⟩
  · exact ⟨_, rfl⟩

/-- The end of other cores' reservations stores nothing. -/
theorem storedBytes_dropRes (s : State) (i k n k' : Nat) : StoredBytes s (dropRes s (some i) k n) i k' [] := by
  unfold dropRes
  refine List.foldlRecOn (motive := fun t => StoredBytes s t i k' []) _ _ (.nil s i k') fun t ht j hj => ?_
  have hne : j ≠ i := fun e => by simp [e] at hj
  exact ht.append (cs := []) ⟨rfl, rfl, getCore_updCore_ne t j i _ hne.symm, fun x _ => by
    by_cases hx : x = j
    · exact .inr (hx ▸ getCore_updCore_self t j _)
    · exact .inl (getCore_updCore_ne t j x _ hx), rfl, (StoredBytes.nil t i _).bytes⟩

/-- Bytes stored below the boot ROM, with what storing does to the L1 and to reservations. -/
theorem storedBytes_wbs (s : State) (i k n : Nat) (bs : Bytes) (hk : k + bs.length ≤ romBase) :
    StoredBytes s (dropRes (dropDirty (wbs s k bs) k n) (some i) k n) i k bs := by
  have hw : StoredBytes s (dropDirty (wbs s k bs) k n) i k bs := by
    obtain ⟨d, hd⟩ := dropDirty_eq (wbs s k bs) k n
    rw [hd]
    refine ⟨rfl, rfl, rfl, fun _ _ => .inl rfl, rfl, fun a => ?_⟩
    refine (rb_congr (s := wbs s k bs) (by rfl) a).trans ?_
    by_cases hrom : romBase ≤ a ∧ a < romBase + 0x40000
    · rw [rb_rom _ a hrom, rb_rom s a hrom, if_neg (by omega)]
    · exact rb_wbs s k bs a hrom
  simpa using hw.append (storedBytes_dropRes _ i k n _)

/-- A core's write to its own common memory, where it answers and has no errors. -/
theorem mwr_ownCommon {s : State} {i off : Nat} {bs : Bytes} (hi : i < 64) (hbad : s.mem.bad = []) (hne : bs ≠ [])
    (hin : off + bs.length ≤ 0x1000000)
    (hserve : rangeServes s (i / 32) (0x010000000000 + off) bs.length = true) :
    ∃ t, mwr s (i / 32) (some i) (0x010000000000 + off) bs = (t, .ok) ∧
      StoredBytes s t i (commonBase (i / 32) + off) bs := by
  have hlen : 0 < bs.length := List.length_pos_iff.mpr hne
  have hoff : off < 0x1000000 := by omega
  refine ⟨_, ?_, storedBytes_wbs s i _ bs.length bs ?_⟩
  · unfold mwr
    simp only [hserve, region_common _ hoff, absKey_common _ hoff, rmwCheck_of_no_errors hbad, ite_self,
      if_neg (Nat.ne_of_gt hlen), Bool.not_true, Bool.false_eq_true, if_false, List.isEmpty_nil, if_true]
    rfl
  · simp only [commonBase, romBase]
    omega

/-! ## The six words of a trap slot (R215) -/

/-- Words, low byte first, one after the other. -/
def wordBytes (vs : List W64) : Bytes := vs.flatMap fun v => natLe 8 v.toNat

theorem natLe_length (n v : Nat) : (natLe n v).length = n := by
  induction n generalizing v with
  | zero => rfl
  | succ n ih => rw [natLe, List.length_cons, ih]

theorem natLe_getD (n v : Nat) : ∀ j < n, (natLe n v).getD j 0 = BitVec.ofNat 8 (v / 256 ^ j) := by
  induction n generalizing v with
  | zero => exact fun j hj => absurd hj (Nat.not_lt_zero j)
  | succ n ih =>
    rintro (_ | j) hj
    · simp [natLe]
    · rw [natLe, List.getD_cons_succ, ih _ j (by omega), Nat.div_div_eq_div_mul, Nat.pow_succ']

theorem wordBytes_length (vs : List W64) : (wordBytes vs).length = 8 * vs.length := by
  induction vs with
  | nil => rfl
  | cons v vs ih =>
    rw [wordBytes, List.flatMap_cons, List.length_append, natLe_length, ← wordBytes, ih, List.length_cons]
    omega

theorem wordBytes_getD (vs : List W64) : ∀ j < 8 * vs.length,
    (wordBytes vs).getD j 0 = BitVec.ofNat 8 ((vs.getD (j / 8) 0).toNat / 256 ^ (j % 8)) := by
  induction vs with
  | nil => exact fun j hj => absurd hj (Nat.not_lt_zero j)
  | cons v vs ih =>
    intro j hj
    rw [List.length_cons] at hj
    rw [wordBytes, List.flatMap_cons, ← wordBytes]
    by_cases h8 : j < 8
    · rw [getD_append_of_lt (by rw [natLe_length]; exact h8), natLe_getD 8 _ j h8, Nat.div_eq_of_lt h8,
        Nat.mod_eq_of_lt h8, List.getD_cons_zero]
    · obtain ⟨m, rfl⟩ := Nat.exists_eq_add_of_le (Nat.le_of_not_lt h8)
      rw [getD_append_of_le (by rw [natLe_length]; omega), natLe_length, Nat.add_sub_cancel_left,
        ih m (by omega), Nat.add_mod_left, Nat.add_div_left m (by decide), List.getD_cons_succ]

/-- One word of the slot: the state, whether a write met uncorrectable data, and the number of words so far. -/
def trapSlotWrite (i slot : Nat) (r : State × Bool × Nat) (v : W64) : State × Bool × Nat :=
  if coreCut r.1 i then (absorbed r.1 i, r.2.1, r.2.2 + 1) else
  match mwr r.1 (i / 32) (some i) (slot + 8 * r.2.2) (natLe 8 v.toNat) with
  | (s, .ok) => (s, r.2.1, r.2.2 + 1)
  | (s, .isolated) => (absorbed s i, r.2.1, r.2.2 + 1)
  | (s, .uncorr) => (s, true, r.2.2 + 1)

theorem slotWrites_eq_foldl (s : State) (i slot : Nat) (vs : List W64) :
    slotWrites s i slot vs =
      ((vs.foldl (trapSlotWrite i slot) (s, false, 0)).1, (vs.foldl (trapSlotWrite i slot) (s, false, 0)).2.1) := rfl

theorem trapSlotWrite_ok {s t : State} {i slot n : Nat} {bad : Bool} {v : W64} (hcut : coreCut s i = false)
    (hw : mwr s (i / 32) (some i) (slot + 8 * n) (natLe 8 v.toNat) = (t, .ok)) :
    trapSlotWrite i slot (s, bad, n) v = (t, bad, n + 1) := by
  unfold trapSlotWrite
  dsimp only
  rw [hcut, hw]
  rfl

/-- The words of a slot in the core's own common memory, where all its bytes answer. -/
theorem foldl_trapSlotWrite {i off : Nat} (hi : i < 64) (vs : List W64) : ∀ {s : State} {n : Nat},
    coreCut s i = false → s.mem.bad = [] → off + 8 * (n + vs.length) ≤ 0x1000000 →
    (∀ x < 8 * (n + vs.length), memServes s (i / 32) (0x010000000000 + off + x) = true) →
    ∃ t, vs.foldl (trapSlotWrite i (0x010000000000 + off)) (s, false, n) = (t, false, n + vs.length) ∧
      StoredBytes s t i (commonBase (i / 32) + off + 8 * n) (wordBytes vs) := by
  induction vs with
  | nil => exact fun _ _ _ _ => ⟨_, rfl, StoredBytes.nil _ _ _⟩
  | cons v vs ih =>
    intro s n hcut hbad hin hserve
    rw [List.length_cons] at hin hserve
    have hfirst : rangeServes s (i / 32) (0x010000000000 + (off + 8 * n)) (natLe 8 v.toNat).length = true := by
      rw [rangeServes, natLe_length, ← Nat.add_assoc, hserve (8 * n) (by omega), Bool.true_and,
        Nat.add_sub_assoc (by decide), Nat.add_assoc]
      exact hserve (8 * n + 7) (by omega)
    obtain ⟨u, hwrite, hu⟩ := mwr_ownCommon hi hbad (List.ne_nil_of_length_pos (by rw [natLe_length]; decide))
      (by rw [natLe_length]; omega) hfirst
    obtain ⟨t, hrest, ht⟩ := ih (s := u) (n := n + 1) (hu.coreCut_eq.trans hcut) (hu.bad.trans hbad) (by omega)
      fun x hx => by rw [hu.onlyRecords.memServes_eq]; exact hserve x (by omega)
    refine ⟨t, ?_, ?_⟩
    · rw [List.foldl_cons, trapSlotWrite_ok hcut (Nat.add_assoc _ off _ ▸ hwrite), hrest, List.length_cons]
      exact congrArg (fun m => (t, false, m)) (by omega)
    · rw [wordBytes, List.flatMap_cons, ← wordBytes]
      rw [← Nat.add_assoc] at hu
      refine hu.append ?_
      rw [natLe_length, Nat.add_assoc _ (8 * n)]
      exact ht

/-! ## The entry -/

/-- Where the slot of the level at hand lies (R215). -/
theorem trapSlot_eq (s : State) (i : Nat) :
    trapSlot s i (b2n ((getCore s i).ps psINTRAP)) = 0x010000000000 + slotOffset s i := by
  rw [trapSlot, slotOffset, trapLevel, Core.ps_eq_getLsbD, Nat.add_assoc]
  rfl

/-- All 48 bytes of a slot lie in one half of common memory, since slots are aligned (R215). -/
theorem TrapReady.memServes_slot {s : State} {i : Nat} (h : TrapReady s i) :
    ∀ x < 48, memServes s (i / 32) (0x010000000000 + slotOffset s i + x) = true := by
  obtain ⟨-, -, -, -, -, -, hin, hserve⟩ := h
  intro x hx
  have hfirst := (Bool.and_eq_true_iff.mp hserve).1
  have halign : slotOffset s i % 64 = 0 := by unfold slotOffset; omega
  rw [Nat.add_assoc, memServes_common s _ (y := slotOffset s i) (by omega) (by omega) (by omega)]
  exact hfirst

/-- The slot is written whole (R215). -/
theorem TrapReady.slotWrites {s : State} {i : Nat} (h : TrapReady s i) {vs : List W64} (hlen : vs.length = 6) :
    ∃ t, slotWrites s i (0x010000000000 + slotOffset s i) vs = (t, false) ∧
      StoredBytes s t i (commonBase (i / 32) + slotOffset s i) (wordBytes vs) := by
  have hserve := h.memServes_slot
  obtain ⟨-, -, hcut, hbad, hi, -, hin, -⟩ := h
  obtain ⟨t, hfold, ht⟩ := foldl_trapSlotWrite (off := slotOffset s i) hi vs (n := 0) hcut hbad
    (by rw [hlen]; omega) (by rw [hlen]; exact hserve)
  exact ⟨t, by rw [slotWrites_eq_foldl, hfold], ht⟩

/-- TRAPC of an entry (R214): the cause, ASYNC, LEVEL, and PSTAT as it stood. -/
theorem trapcOf_eq (k : Core) (cause : Nat) (async : Bool) : trapcOf k cause async =
    BitVec.ofNat 64 (cause + 256 * b2n async + 512 * trapLevel k + k.pstat.toNat * 2 ^ 32) := by
  rw [trapcOf, trapLevel, Core.ps_eq_getLsbD]
  congr 1
  simp only [psINTRAP]
  omega

/-- It is no double trap (R217). -/
theorem TrapReady.single {s : State} {i : Nat} (h : TrapReady s i) :
    ((getCore s i).ps psINTRAP && (getCore s i).level == 1) = false := by
  obtain ⟨-, -, -, -, -, hlevel, -⟩ := h
  rw [Core.ps_eq_getLsbD, Core.level_eq_one, ← Bool.not_eq_true, Bool.and_eq_true]
  exact hlevel

/-- The six words of the slot, in order (R215). -/
def trapWords (k : Core) (epc : BitVec 48) (tc v : W64) : List W64 := [k.gr 1, k.gr 2, k.gr 3, epc.setWidth 64, tc, v]

/-- An entry writes the slot and then the core's registers. -/
theorem enterTrap_eq {s t : State} {i cause : Nat} {epc : BitVec 48} {v : W64} {async : Bool}
    (hsingle : ((getCore s i).ps psINTRAP && (getCore s i).level == 1) = false)
    (hslot : slotWrites s i (0x010000000000 + slotOffset s i)
      (trapWords (getCore s i) epc (trapcOf (getCore s i) cause async) v) = (t, false)) :
    enterTrap s i epc cause v async = updCore t i (fun k => trapRegs k (0x010000000000 + slotOffset s i) epc
      (trapcOf (getCore s i) cause async) v (trapVector t i)) := by
  rw [trapWords] at hslot
  unfold enterTrap
  dsimp only
  rw [hsingle, if_neg Bool.false_ne_true, trapSlot_eq, hslot]
  rfl

/-- A core that can, enters its trap (R215). -/
theorem TrapReady.enterTrap {s : State} {i : Nat} (h : TrapReady s i) (epc : BitVec 48) (cause : Nat) (v : W64)
    (async : Bool) : TrapEntered s (enterTrap s i epc cause v async) i epc cause v async := by
  obtain ⟨t, hslot, ht⟩ := h.slotWrites
    (vs := trapWords (getCore s i) epc (trapcOf (getCore s i) cause async) v) rfl
  have hvec : trapVector t i = trapVector s i := by rw [trapVector, trapVector, ht.rdF_eq]
  have hlen : (wordBytes (trapWords (getCore s i) epc (trapcOf (getCore s i) cause async) v)).length = 48 :=
    wordBytes_length _
  have hbytes := ht.bytes
  rw [hlen] at hbytes
  rw [enterTrap_eq h.single hslot, TrapEntered, hvec]
  rw [trapcOf_eq] at hbytes ⊢
  refine ⟨ht.coresAndMemory_updCore _, ?_, fun j hj => ?_, fun a ha => ?_⟩
  · rw [getCore_updCore_self, ht.own, trapRegs_eq]
    rfl
  · rw [rb_updCore, hbytes, if_pos (by omega), Nat.add_sub_cancel_left]
    exact wordBytes_getD _ j hj
  · rw [rb_updCore, hbytes, if_neg ha]

/-- A core that can, enters the trap itself: no FPE goes before it (R215). -/
theorem TrapReady.takeTrap {s : State} {i : Nat} (h : TrapReady s i) (at_ epc : BitVec 48) (cause : Nat) (v : W64)
    (async : Bool) : TrapEntered s (takeTrap s i at_ epc cause v async) i epc cause v async := by
  have hpend : (getCore s i).fpePend = false := by obtain ⟨-, hpend, -⟩ := h; exact hpend
  rw [takeTrap_plain at_ epc cause v async hpend]
  exact h.enterTrap epc cause v async

end Sys2Proof.Machine
end

section
/-! The instructions that enter a trap, and the return from one (R192, R216, R223 to R225). -/
namespace Sys2Proof.Machine

/-! ## A row that begins -/

/-- The boundary before an instruction ends sleep and sets the decode mode; nothing else of the core changes. -/
theorem getCore_boundary (s : State) (i : Nat) :
    ∃ m, getCore (boundary s i) i = { getCore s i with sleep := false, mode := m } := by
  unfold boundary setMode
  split
  · exact ⟨_, getCore_updCore_self _ _ _⟩
  · exact ⟨_, by rw [getCore_updCore_self, getCore_updCore_self]⟩

theorem fpu_boundary (s : State) (i : Nat) : (getCore (boundary s i) i).fpu = (getCore s i).fpu := by
  obtain ⟨m, h⟩ := getCore_boundary s i
  rw [h]

/-- An illegal word that begins raises ILLEGAL on the state after the fetch (R223). -/
theorem runRow_illegal {s f : State} {c : CoreId} {o : Op} (hill : o.ill = true) (h : Begins s f c [] [] false) :
    runRow c o s = finish (boundary s (coreIx c)) (coreIx c) (illegal f o.word) := by
  obtain ⟨hstep, -, w, hfetch⟩ := h
  simp only [runRow, hstep, if_true, stepOp, beforeFetch, hill, Bool.not_true, Bool.and_false, boundary_pc, hfetch,
    opRes]
  rfl

/-- A delivery point that begins with the unit idle and no exception pending runs its operation (R206). -/
theorem runRow_beginsFp {s f : State} {c : CoreId} {o : Op} (hill : o.ill = false)
    (h : BeginsFp s f c o.foot.reads o.foot.writes o.foot.flags) :
    runRow c o s = finish (boundary s (coreIx c)) (coreIx c) (o.run (coreIx c) f) := by
  obtain ⟨⟨hstep, hhaz, w, hfetch⟩, hunit, hpend⟩ := h
  replace hhaz : hazard (getCore f (coreIx c)) o.foot = false := hhaz
  replace hpend : (getCore (boundary s (coreIx c)) (coreIx c)).fpePend = false := by
    obtain ⟨m, hb⟩ := getCore_boundary s (coreIx c)
    rw [hb]
    exact hpend
  simp only [runRow, hstep, if_true, stepOp, beforeFetch, fpu_boundary, hunit, hpend, boundary_pc, hfetch, opRes, hill,
    hhaz, Option.isSome_none, Bool.false_eq_true, if_false, ite_self]

/-! ## Traps of instructions -/

section
variable {s f : State} {i cause : Nat} {v : W64} (hready : TrapReady f i) (hunit : (getCore s i).fpu = none)
include hready hunit

/-- A precise trap, at the instruction (R214). -/
theorem trapEntered_finish_trap :
    TrapEntered f (finish (boundary s i) i (.trap f cause v)) i (getCore f i).pc cause v false := by
  rw [finish_trap f i cause v ((fpu_boundary s i).trans hunit)]
  exact hready.takeTrap _ _ _ _ _

/-- The trap of TRAP, after the instruction (R192). -/
theorem trapEntered_finish_after :
    TrapEntered f (finish (boundary s i) i (.after f cause v)) i ((getCore f i).pc + 4) cause v false := by
  have hidle : ((getCore (boundary s i) i).fpu.isSome) = false := by rw [fpu_boundary, hunit]; rfl
  rw [finish, hidle, if_neg Bool.false_ne_true]
  exact hready.takeTrap _ _ _ _ _

end

theorem fld_major (w : W32) : fld w 31 26 = w.toNat / 2 ^ 26 := by
  rw [fld]
  exact Nat.mod_eq_of_lt (by omega)

/-! ## The return (R216) -/

theorem onlyCore_updCore (s : State) (i : Nat) (g : Core → Core) : OnlyCore s (updCore s i g) i :=
  ⟨rfl, rfl, fun j hj => getCore_updCore_ne s i j g hj, fun _ => rfl⟩

theorem coreBecomes_updCore {s : State} {i : Nat} {g : Core → Core} {k : Core} (h : g (getCore s i) = k) :
    CoreBecomes s (updCore s i g) i k :=
  ⟨onlyCore_updCore s i g, (getCore_updCore_self s i g).trans h⟩

/-- Registers on the return from a handler of level 0. -/
theorem trapReturn_level0 {k : Core} (h : k.trapc.getLsbD 9 = false) : trapReturn k =
    { k with pstat := (k.trapc >>> 32).setWidth 32 &&& 0x313F, lladdr := 0, pc := k.epc.setWidth 48 } := by
  have hlevel : k.level ≠ 1 := by
    rw [← Core.level_eq_one] at h
    exact ne_of_beq_false h
  rw [trapReturn, if_neg hlevel]
  rfl

/-- Registers on the return from a handler of level 1. -/
theorem trapReturn_level1 {k : Core} {e t v : W64} (h : k.trapc.getLsbD 9 = true) (hsh : k.shadow = some (e, t, v)) :
    trapReturn k = { k with
      pstat := (k.trapc >>> 32).setWidth 32 &&& 0x313F, lladdr := 0, pc := k.epc.setWidth 48,
      epc := e, trapc := t, trapv := v, shadow := none } := by
  have hlevel : k.level = 1 := by
    rw [← Core.level_eq_one] at h
    exact eq_of_beq h
  rw [trapReturn, if_pos hlevel, hsh]
  rfl

/-! ## What each instruction comes to -/

theorem exec_trap (c : CoreId) (imm : BitVec 15) (s : State) :
    exec (.trap c imm) s = .next (runRow c (opTrap imm) s) := by
  change execTrap c imm s = _
  rw [execTrap]

theorem exec_brk (c : CoreId) (s : State) : exec (.brk c) s = .next (runRow c opBrk s) := by
  change execBrk c s = _
  rw [execBrk]

theorem exec_eret (c : CoreId) (s : State) : exec (.eret c) s = .next (runRow c opEret s) := by
  change execEret c s = _
  rw [execEret]

theorem exec_illegalWord {c : CoreId} {w : W32} {s : State} (h : (decodeOp w).ill = true) :
    exec (.illegalWord c w) s = .next (runRow c (opIllegal w) s) := by
  change execIllegalWord c w s = _
  rw [execIllegalWord, if_pos h]

theorem exec_emulatedWord {c : CoreId} {w : W32} {s : State}
    (h : w.toNat / 2 ^ 26 = 0x07 ∨ (0x1A ≤ w.toNat / 2 ^ 26 ∧ w.toNat / 2 ^ 26 ≤ 0x37)) :
    exec (.emulatedWord c w) s = .next (runRow c (opEmu w) s) := by
  have hmajor : isEmulated w = true := by
    rw [isEmulated, fld_major]
    simpa using h
  change execEmulatedWord c w s = _
  rw [execEmulatedWord, if_pos hmajor]

theorem exec_tableRangeWord {c : CoreId} {w : W32} {s : State} (h : 0x38 ≤ w.toNat / 2 ^ 26)
    (hmicro : (getCore s (coreIx c)).micro = none) :
    exec (.tableRangeWord c w) s = .next (runRow c (opTable w) s) := by
  change execTableRangeWord c w s = _
  rw [execTableRangeWord, fld_major, if_neg (Nat.not_lt.mpr h), hmicro]

theorem opBrk_run {s : State} {i : Nat} (h : rdB s (i / 32) R.DBGCTL 31 = false) :
    opBrk.run i s = .trap s 0x0D 0x8 := by
  change (if attached s (i / 32) then _ else _) = _
  rw [attached, h]
  rfl

theorem emulate_eq (s : State) (w : W32) : emulate s w false = .trap s 0x02 (w.setWidth 64) := by
  rw [emulate, b2n, if_neg Bool.false_ne_true, Nat.zero_mul, Nat.zero_add, BitVec.ofNat_toNat, trEmu]

theorem opEmu_run (s : State) (i : Nat) (w : W32) : (opEmu w).run i s = .trap s 0x02 (w.setWidth 64) := emulate_eq s w

theorem opTable_run {s : State} {i : Nat} {w : W32} (h : (getCore s i).mode = false) :
    (opTable w).run i s = .trap s 0x02 (w.setWidth 64) := by
  have hdecide : tableDecide i w s = .error (emulate s w false) := by
    rw [tableDecide, h]
    rfl
  change tableRun w i s = _
  rw [tableRun, hdecide]
  exact emulate_eq s w

/-- Outside a handler there is nothing to return from (R216). -/
theorem opEret_run_outside {s : State} {i : Nat} (h : (getCore s i).pstat.getLsbD 13 = false) :
    opEret.run i s = .trap s 0x0A 0 := by
  rw [← psINTRAP, ← Core.ps_eq_getLsbD] at h
  change (if (getCore s i).ps psINTRAP then _ else _) = _
  rw [h]
  rfl

theorem opEret_run_handler {s : State} {i : Nat} (h : (getCore s i).pstat.getLsbD 13 = true) :
    opEret.run i s = .done (updCore s i trapReturn) := by
  rw [← psINTRAP, ← Core.ps_eq_getLsbD] at h
  change (if (getCore s i).ps psINTRAP then _ else _) = _
  rw [h]
  rfl

/-- Settles O15: each of the instructions comes to a trap on the state after its fetch, which is entered as R215 says;
ERET in a handler gives back what the level at hand has saved, and traps outside one. -/
theorem trapEntriesAndReturns : Obligations.TrapEntriesAndReturns := by
  unfold Obligations.TrapEntriesAndReturns
  refine ⟨?_, ?_⟩
  · intro s f c imm w i k major hb hunit hready
    have traps {o : Op} {cause : Nat} {v : W64} (h : runRow c o s = finish (boundary s i) i (.trap f cause v)) :
        TrapEntered f (runRow c o s) i k.pc cause v false := h ▸ trapEntered_finish_trap hready hunit
    refine ⟨⟨_, exec_trap c imm s, ?_⟩, fun hdbg => ⟨_, exec_brk c s, traps ?_⟩,
      fun hill => ⟨_, exec_illegalWord hill, traps ?_⟩, fun hmajor => ⟨_, exec_emulatedWord hmajor, traps ?_⟩,
      fun hmajor hmicro hmode => ⟨_, exec_tableRangeWord hmajor hmicro, traps ?_⟩⟩
    · rw [runRow_begins (o := opTrap imm) rfl rfl hb]
      exact trapEntered_finish_after hready hunit
    · rw [runRow_begins (o := opBrk) rfl rfl hb, opBrk_run (coreIx_div c ▸ hdbg)]
    · exact runRow_illegal (o := opIllegal w) rfl hb
    · rw [runRow_begins (o := opEmu w) rfl rfl hb, opEmu_run]
    · rw [runRow_begins (o := opTable w) rfl rfl hb, opTable_run hmode]
  · intro s f c i k back hb
    have hrun : runRow c opEret s = finish (boundary s i) i (opEret.run i f) := runRow_beginsFp (o := opEret) rfl hb
    refine ⟨fun hin h0 => ⟨_, exec_eret c s, ?_⟩, fun e t v hin h1 hsh => ⟨_, exec_eret c s, ?_⟩,
      fun hout hready => ⟨_, exec_eret c s, ?_⟩⟩
    · rw [hrun, opEret_run_handler hin]
      exact coreBecomes_updCore (trapReturn_level0 h0)
    · rw [hrun, opEret_run_handler hin]
      exact coreBecomes_updCore (trapReturn_level1 h1 hsh)
    · rw [hrun, opEret_run_outside hout]
      obtain ⟨-, hunit, -⟩ := hb
      exact trapEntered_finish_trap hready hunit

end Sys2Proof.Machine
end
